-- ==== Sys2Proof/Word.lean ====
section
/-! DEFINITION. The word types of the QD-4960 model: Holt registers are 64 bits wide (R21), registers of
the control range 32 bits (R32), memory is addressed by byte (R8). -/

namespace Sys2Proof

/-- A Holt general register, PC or CSR (R21, R26). -/
abbrev Word := BitVec 64

/-- One control register, a ticket or a buffer handle (R32, R43, R38). -/
abbrev Word32 := BitVec 32

/-- One byte of memory. -/
abbrev Byte := BitVec 8

end Sys2Proof
end

