-- ==== Sys2Proof/Syntax.lean ====
section
/-! DEFINITION. The commands of the block: one constructor for each row of spec/opcode_table.json, with the row's operands,
and the types of those operands. -/

namespace Sys2Proof

/-- The operand fields of a Holt instruction word (R18). `imm` is opcode bit 0; the other opcode bits are the constructor's. -/
structure HoltWord where
  imm : Bool
  hd : BitVec 5
  ha : BitVec 5
  hb : BitVec 5
  mod : BitVec 4
  imm37 : BitVec 37
  deriving DecidableEq, Repr

/-- Who makes a register access: a host function through BAR0 (R12), a Holt program through a segment, as the function of its
context (R513), Keystone, or the host through a function's PCI configuration space (R398). -/
inductive Who
  | host (f : Nat)
  | holt (c : Nat)
  | keystone
  | config (f : Nat)
  deriving DecidableEq, Repr

/-- What ECC, the link and the MAC find in a DRAM access (R298, R299, R305): nothing, a corrected single-bit error, an uncorrectable
error, a link or command error that the retry did not cure, or a sealed unit whose contents were modified or moved. -/
inductive DramFault
  | none
  | single (syndrome : Nat)
  | double (syndrome : Nat)
  | link
  | mac
  deriving DecidableEq, Repr

/-- What ECC finds in the first word of an Ashlar access (R307): nothing, an error it corrects, or one it cannot. -/
inductive AshFault
  | none
  | single
  | double
  deriving DecidableEq, Repr

/-- An access served at an Ashlar bank (R307, R309). -/
inductive AshOp
  | load (size : Nat)
  | store (bytes : List Byte)
  | add (size value : Nat)
  | swap (size value : Nat)
  | cas (size compare value : Nat)
  deriving DecidableEq, Repr

/-- An NVMe controller found below a root port (R271–R274): whether it creates both I/O queue pairs, its MDTS in 4,096-byte blocks with 0 for no limit, and its namespaces as NSID and size in
4,096-byte blocks, 0 for one that OPEN refuses (R272). -/
structure NvmeFound where
  twoPairs : Bool
  mdts : Nat
  spaces : List (Nat × Nat)
  deriving DecidableEq, Repr

/-- Coding tools by the names of R95 and R180. -/
inductive Tool
  | quadtree | amp | intra35 | dct32 | dst4 | transformSkip | rdoq | signHiding | scalingLists | deblocking | sao | transquantBypass | rdpcm
  | extendedPrecision | persistentRice | bypassAlignment | crossComponent | merge | tmvp | longTerm | tiles | wpp | dependentSlices
  | qtMtt | intra67 | cclm | mts | lfnst | dependentQuant | bdpcm | alf | ccAlf | mmvd | amvr | affine | bdof | dmvr
  | tenPartitions | intra13 | cfl | tx16 | quantMatrices | segmentation | cdef | loopRestoration | compound | globalMotion
  | cabac | intraAvc | interPartitions | transform8 | severalSlices
  | pcm | weightedPrediction | fieldCoding | fieldIndication | scc | scalable | rpr | gdr | subpictures | palette | intraBlockCopy | act | lmcs
  | mip | isp | mrl | gpm | ciip | sbt | severalLayers | filmGrain | filterIntra | superres | switchFrames | largeScaleTile | localWarp
  | blocks4 | otherOperatingPoints | cavlc | fieldPictures | mbaff | sub8
  deriving DecidableEq, Repr

/-- A reference as the headers of a picture name it (R197): by its ORDER, by its place in a list whose order is not known, or in AV1 by
ref_frame_idx with the ref_order_hint when one is signalled. -/
inductive RefName
  | order (o : Int)
  | unknown
  | frame (idx : Nat) (hint : Option Int)
  deriving DecidableEq, Repr

/-- A NAL unit or OBU of an access unit as R193 looks at it: forbidden_zero_bit, a reserved type or value, its size and the bytes left in its
extent or unit, whether every identifier in it names a set received and every value lies in its range, and whether it is picture-level. -/
structure StreamUnit where
  forbidden : Bool
  reserved : Bool
  size : Nat
  room : Nat
  known : Bool
  inRange : Bool
  picture : Bool
  deriving DecidableEq, Repr

/-- What the units and headers of an access unit say (R181, R185, R187, R193, R197), as its coding standard's syntax gives it: profile (R92) and
level code, the tools it needs, chroma format, depth, size; whether a temporal delimiter is there; CTU size, tile columns and rows in CTUs,
the places in decoding order at which slice segments begin, with the entry points of each and the length of its data; whether rows are
decoded apart; its ORDER and PIC_TYPE code; the AV1 frame it shows and does nothing else; the references it names in list order, the
orders that stay references, the AV1 frames it refreshes, whether it becomes a reference and is output; reorder and latency limits, a
flush before it and one after it; its packing description, its in-band hash and its film grain; the ring packets and bytes it takes. -/
structure DecHead where
  profile : Nat
  level : Nat
  tools : List Tool
  chroma : Nat
  depth : Nat
  width : Nat
  height : Nat
  units : List StreamUnit
  delimiter : Bool
  ctu : Nat
  tileCols : List Nat
  tileRows : List Nat
  slices : List (Nat × List Nat × Nat)
  rowWise : Bool
  order : Int
  type : Nat
  existing : Option Nat
  refs : List RefName
  keep : List Int
  refresh : List Nat
  isRef : Bool
  shown : Bool
  reorder : Nat
  latency : Nat
  flushBefore : Bool
  flush : Bool
  packed : Option Nat
  hash : Option (Nat × List (List Byte))
  grain : Bool
  packets : Nat
  bytes : Nat
  deriving DecidableEq, Repr

/-- One CTU as its coding standard decodes it (R193, R194): whether the entropy decoder finds an error in it, the indices of the references it
predicts from, its vector in whole luma samples, and its samples, plane by plane. -/
structure CtuData where
  error : Bool
  refs : List Nat
  mvx : Int
  mvy : Int
  samples : List (List (List Nat))
  deriving DecidableEq, Repr

/-- What a check of the two signatures of a hybrid signature block finds (R59, R449): the ECDSA and the ML-DSA one. -/
structure SigOk where
  ec : Bool
  ml : Bool
  deriving DecidableEq, Repr

/-- What the checks of an IMPORT find (R447): the signatures of the device key record and of the wrapped-key record, and the KEK and tag. -/
structure ImportOk where
  record : SigOk
  wrapped : SigOk
  kek : Bool
  deriving DecidableEq, Repr

/-- Bytes of the boot flash that carry a signature block, with what a check of its signatures finds: a firmware copy (R432) or the device
key record (R430). -/
structure BootCopy where
  bytes : List Byte
  sigOk : SigOk
  deriving DecidableEq, Repr

/-- What the ROM finds in the boot flash before the firmware copies (R477, R506): the boot header, and the dummy cycles of the octal DDR
read that the flash's SFDP offers. -/
structure BootFlash where
  header : List Byte
  octal : Option Nat
  deriving DecidableEq, Repr

/-- What ends a boot stage (R432, R477–R479): the boot flash, its firmware copies and its device key
record; the channels that failed training; the host port answering; the boot configuration block and whether its
signature verifies; the first program image and whether its signatures verify. -/
inductive BootIn
  | firmware (flash : BootFlash) (a b record : BootCopy)
  | dram (failed : List Nat)
  | hostReady
  | config (block : List Byte) (sigOk : SigOk)
  | program (image : List Byte) (sigOk : SigOk)
  deriving DecidableEq, Repr

/-- An instruction of the test access port (R509). -/
inductive TapOp
  | idcode | bypass | sample | extest | extestPulse | extestTrain | debug
  deriving DecidableEq, Repr

/-- Where an aborted work order stops (R84): after n of its bytes or rows, and the bytes that the host has answered by then. -/
structure AbortAt where
  n : Nat
  host : List Byte
  deriving DecidableEq, Repr

/-- An operand place that carries nothing: what the command needs is in the device. -/
abbrev NoInput : Type := Unit

/-- The commands: one constructor for each row of the table. -/
inductive Instr
  /-- ADD (R27): Holt ADD writes ha plus src2 to hd, wrapping at 64 bits. -/
  | add (c : Nat) (w : HoltWord)
  /-- SUB (R27): Holt SUB writes ha minus src2 to hd. -/
  | sub (c : Nat) (w : HoltWord)
  /-- AND (R27): Holt AND writes the bitwise and of ha and src2 to hd. -/
  | and (c : Nat) (w : HoltWord)
  /-- OR (R27): Holt OR writes the bitwise or of ha and src2 to hd. -/
  | or (c : Nat) (w : HoltWord)
  /-- XOR (R27): Holt XOR writes the bitwise exclusive or of ha and src2 to hd. -/
  | xor (c : Nat) (w : HoltWord)
  /-- SHL (R27): Holt SHL shifts ha left by src2[5:0] into hd. -/
  | shl (c : Nat) (w : HoltWord)
  /-- SHR (R27): Holt SHR shifts ha right with zero fill into hd. -/
  | shr (c : Nat) (w : HoltWord)
  /-- SAR (R27): Holt SAR shifts ha right with sign fill into hd. -/
  | sar (c : Nat) (w : HoltWord)
  /-- MUL (R27): Holt MUL writes the low 64 bits of ha times src2 to hd. -/
  | mul (c : Nat) (w : HoltWord)
  /-- MULH (R27): Holt MULH or MULHU writes the high 64 bits of the signed or unsigned product to hd. -/
  | mulh (c : Nat) (w : HoltWord)
  /-- MIN (R27): Holt MIN or MINU writes the smaller of ha and src2, signed or unsigned, to hd. -/
  | min (c : Nat) (w : HoltWord)
  /-- MAX (R27): Holt MAX or MAXU writes the larger of ha and src2, signed or unsigned, to hd. -/
  | max (c : Nat) (w : HoltWord)
  /-- CMP (R28): Holt CMPEQ to CMPGEU writes 1 or 0 to hd according to the condition in mod. -/
  | cmp (c : Nat) (w : HoltWord)
  /-- SEL (R27): Holt SEL or SELZ writes src2 to hd when ha is nonzero or zero, otherwise leaves hd. -/
  | sel (c : Nat) (w : HoltWord)
  /-- MOV (R27): Holt MOV copies hb to hd. -/
  | mov (c : Nat) (w : HoltWord)
  /-- MOVI (R27): Holt MOVI writes the sign-extended imm37 to hd. -/
  | movi (c : Nat) (w : HoltWord)
  /-- MOVHI (R27): Holt MOVHI replaces bits [63:27] of hd with imm37. -/
  | movhi (c : Nat) (w : HoltWord)
  /-- B (R29): Holt B transfers control to the target, trapping on a misaligned target. -/
  | b (c : Nat) (w : HoltWord)
  /-- BCOND (R29): Holt BEQ to BGEU compare hd with ha and branch when the condition holds. -/
  | bcond (c : Nat) (w : HoltWord)
  /-- CALL (R29): Holt CALL writes PC plus 8 to hd and transfers to the target. -/
  | call (c : Nat) (w : HoltWord)
  /-- RET (R29): Holt RET transfers control to the address in ha. -/
  | ret (c : Nat) (w : HoltWord)
  /-- SWITCH (R30): Holt SWITCH reads a table and branches to the entry chosen by ha or to DEFAULT. -/
  | switch (c : Nat) (w : HoltWord)
  /-- LD (R31): Holt LD8 to LD64 load memory through a segment into hd, zero or sign extended. -/
  | ld (c : Nat) (w : HoltWord)
  /-- ST (R31): Holt ST8 to ST64 store the low bytes of hd through a segment. -/
  | st (c : Nat) (w : HoltWord)
  /-- LDSEG (R24): Holt LDSEG reads a 16-byte descriptor and installs it in a segment slot or traps. -/
  | ldseg (c : Nat) (w : HoltWord)
  /-- AADD (R33): Holt AADD atomically adds src2 to an Ashlar word and returns the old value. -/
  | aadd (c : Nat) (w : HoltWord)
  /-- ASWAP (R33): Holt ASWAP atomically swaps src2 into an Ashlar word and returns the old value. -/
  | aswap (c : Nat) (w : HoltWord)
  /-- ACAS (R33): Holt ACAS atomically compares an Ashlar word with hd and stores src2 on a match. -/
  | acas (c : Nat) (w : HoltWord)
  /-- PUSH (R35): Holt PUSH appends the register quad as one ring entry, or reports FULL. -/
  | push (c : Nat) (w : HoltWord)
  /-- POP (R35): Holt POP removes the oldest ring entry into the quad, or begins a wait while the ring is empty. -/
  | pop (c : Nat) (w : HoltWord)
  /-- POP_COMPLETE (R69): A stalled POP completes when a deliverable entry arrives, or a reset or disable ends it. -/
  | popComplete (c : Nat)
  /-- POPNB (R35): Holt POPNB removes the oldest ring entry, or returns at once when the ring is empty. -/
  | popnb (c : Nat) (w : HoltWord)
  /-- PEEK (R35): Holt PEEK copies the oldest ring entry without removing it. -/
  | peek (c : Nat) (w : HoltWord)
  /-- RLEN (R35): Holt RLEN writes the number of entries in a ring to hd. -/
  | rlen (c : Nat) (w : HoltWord)
  /-- BALLOC (R315): Holt BALLOC allocates a buffer from the smallest fitting pool for the context. -/
  | balloc (c : Nat) (w : HoltWord)
  /-- BFREE (R318): Holt BFREE frees a buffer, or marks it HELD while accepted work still names it. -/
  | bfree (c : Nat) (w : HoltWord)
  /-- BXFER (R318): Holt BXFER gives a buffer to another owner. -/
  | bxfer (c : Nat) (w : HoltWord)
  /-- BSTAT (R38): Holt BSTAT returns the context word, base address or size of a buffer. -/
  | bstat (c : Nat) (w : HoltWord)
  /-- WAITT (R40): Holt WAITT begins a wait until device time reaches the target. -/
  | waitt (c : Nat) (w : HoltWord)
  /-- WAITT_COMPLETE (R69): A waiting WAITT completes when device time reaches its target. -/
  | waittComplete (c : Nat)
  /-- WAITD (R40): Holt WAITD begins a wait for selected doorbell bits of a mailbox channel. -/
  | waitd (c : Nat) (w : HoltWord)
  /-- WAITD_COMPLETE (R69): A waiting WAITD completes when a selected doorbell bit is set, returning and clearing the set bits. -/
  | waitdComplete (c : Nat)
  /-- FENCE (R47): Holt FENCE orders all earlier loads and stores before any later one. -/
  | fence (c : Nat) (w : HoltWord)
  /-- EVT (R40): Holt EVT raises a software event with a payload to the performance monitor. -/
  | evt (c : Nat) (w : HoltWord)
  /-- TKWAIT (R40): Holt TKWAIT examines a ticket and waits until its final record has been written. -/
  | tkwait (c : Nat) (w : HoltWord)
  /-- TKWAIT_COMPLETE (R66): A waiting TKWAIT completes when the ticket's final record is written or its ticket is discarded. -/
  | tkwaitComplete (c : Nat)
  /-- TKPOLL (R41): Holt TKPOLL returns the ticket result at once. -/
  | tkpoll (c : Nat) (w : HoltWord)
  /-- ENC (R42): Holt ENC dispatches an encode work order and returns a ticket. -/
  | enc (c : Nat) (w : HoltWord)
  /-- ENCR (R42): Holt ENCR dispatches a row-pipelined encode work order and returns a ticket. -/
  | encr (c : Nat) (w : HoltWord)
  /-- DEC (R42): Holt DEC dispatches a decode work order and returns a ticket. -/
  | dec (c : Nat) (w : HoltWord)
  /-- VFY (R42): Holt VFY dispatches a verify work order and returns a ticket. -/
  | vfy (c : Nat) (w : HoltWord)
  /-- ANA (R42): Holt ANA dispatches an analysis work order and returns a ticket. -/
  | ana (c : Nat) (w : HoltWord)
  /-- PIX (R42): Holt PIX dispatches a Plane pixel work order and returns a ticket. -/
  | pix (c : Nat) (w : HoltWord)
  /-- COMP (R42): Holt COMP dispatches a Mortar composition work order and returns a ticket. -/
  | comp (c : Nat) (w : HoltWord)
  /-- DMA (R42): Holt DMA dispatches a DMA chain work order and returns a ticket. -/
  | dma (c : Nat) (w : HoltWord)
  /-- SEAL (R42): Holt SEAL dispatches a Keystone seal work order from a sealed context and returns a ticket. -/
  | seal (c : Nat) (w : HoltWord)
  /-- MAGW (R42): Holt MAGW dispatches a magazine work order and returns a ticket. -/
  | magw (c : Nat) (w : HoltWord)
  /-- NETTX (R42): Holt NETTX dispatches a network transmit work order and returns a ticket. -/
  | nettx (c : Nat) (w : HoltWord)
  /-- INGEST (R42): Holt INGEST dispatches a sensor ingest work order and returns a ticket. -/
  | ingest (c : Nat) (w : HoltWord)
  /-- KEYOP (R42): Holt KEYOP dispatches a Keystone key work order from a sealed context and returns a ticket. -/
  | keyop (c : Nat) (w : HoltWord)
  /-- DISPATCH_STALL_ISSUE (R44): A dispatch stalled at the core's 128-ticket limit is issued afresh once a ticket of the core ends. -/
  | dispatchStallIssue (c : Nat)
  /-- MBXSEND (R423): Holt MBXSEND sends a word on a mailbox channel, or reports FULL. -/
  | mbxsend (c : Nat) (w : HoltWord)
  /-- MBXRECV (R423): Holt MBXRECV takes the word from a mailbox channel if it is full. -/
  | mbxrecv (c : Nat) (w : HoltWord)
  /-- DBELL (R424): Holt DBELL sets doorbell bits on a mailbox channel. -/
  | dbell (c : Nat) (w : HoltWord)
  /-- IRQ (R45): Holt IRQ raises a Mason software interrupt source. -/
  | irq (c : Nat) (w : HoltWord)
  /-- YIELD (R53): Holt YIELD moves the context to the end of its priority's rotation. -/
  | yield (c : Nat) (w : HoltWord)
  /-- HALT (R50): Holt HALT stops the thread after itself and writes a thread record with status OK. -/
  | halt (c : Nat) (w : HoltWord)
  /-- CSRR (R26): Holt CSRR reads a control and status register into hd. -/
  | csrr (c : Nat) (w : HoltWord)
  /-- CSRW (R26): Holt CSRW writes a control and status register, installing a descriptor for SEGn_LO. -/
  | csrw (c : Nat) (w : HoltWord)
  /-- ILLEGAL_INSTRUCTION (R20): An issued word whose opcode is unassigned or permanently illegal raises an illegal-instruction trap with detail 0. -/
  | illegalInstruction (c : Nat) (word : Word)
  /-- THREAD_RECORD_WRITE (R50): A held thread record is written to the owner ring once it can take it, then the thread-stop interrupt is raised. -/
  | threadRecordWrite (c : Nat)
  /-- MT_LOAD (R60): The LOAD command starts checking and installing a program image in an EMPTY context. -/
  | mtLoad (who : Who) (c : Nat)
  /-- LOAD_COMPLETE (R60): A load ends, installing the image as LOADED or returning the context to EMPTY with a status, and raises load done. -/
  | loadComplete (c : Nat) (sigOk : SigOk)
  /-- MT_START (R63): The START command installs the segment table afresh, clears registers and enters READY. -/
  | mtStart (who : Who) (c : Nat)
  /-- MT_STOP (R70): The STOP command stops a thread at its next instruction boundary. -/
  | mtStop (who : Who) (c : Nat)
  /-- MT_RESUME (R63): The RESUME command continues a STOPPED thread from its PC. -/
  | mtResume (who : Who) (c : Nat)
  /-- MT_UNLOAD (R63): The UNLOAD command enters DRAINING or EMPTY and releases the context's buffers. -/
  | mtUnload (who : Who) (c : Nat)
  /-- WO_ACCEPT (R77): A unit takes a dispatched work order and runs the acceptance checks, ending it at once on a failure. -/
  | woAccept (t : Nat)
  /-- COMPLETION_RECORD_WRITE (R81): A unit appends a work order's final or interim record to its ring once it has space, ending the ticket and releasing holds. -/
  | completionRecordWrite (t : Nat)
  /-- DEADLINE_EXPIRE (R78): A start-by or finish-by deadline passes and ends or aborts the work order. -/
  | deadlineExpire (t : Nat)
  /-- WO_CANCEL (R87): A write of a ticket to WO_CANCEL requests an abort of that work order. -/
  | woCancel (who : Who) (t : Nat)
  /-- ABORT_AT_BOUNDARY (R84): Running work reaches its abort boundary and stops with ABORTED or DEADLINE_MISSED. -/
  | abortAtBoundary (t : Nat) (stop : AbortAt)
  /-- ENC_PICTURE_START (R96): The dispatcher starts the next picture of a state buffer once the previous picture has been coded. -/
  | encPictureStart (t : Nat) (pre head : NoInput)
  /-- ENC_CU (R169): An engine decides, reconstructs, checks and commits one CU, recoding it losslessly when it misses its bound. -/
  | encCu (t tile fail : Nat)
  /-- ENC_PICTURE_CODED (R109): All tiles of a picture are coded, and verification or the final record follows. -/
  | encPictureCoded (t : Nat) (suffix : NoInput)
  /-- ENC_RING_PUSH (R119): An encoder waiting at a CU boundary for ring space pushes its output entries once room appears. -/
  | encRingPush (t : Nat)
  /-- ENCR_ROW_START (R125): An ENCR starts coding a CTU row once its source rows are complete and its engine is free. -/
  | encrRowStart (t k : Nat)
  /-- VERIFY_END (R109): The verify engines finish decoding the written extents and compare the tile hashes. -/
  | verifyEnd (t : Nat) (decoded : List (Nat × List (List (List Nat))))
  /-- PREEMPT (R176): At a CTU-row boundary an engine suspends its work for queued live work of higher priority. -/
  | preempt (u q : Nat)
  /-- SUSPENDED_RESUME (R177): Suspended work resumes on its engine when no higher-priority work is ready. -/
  | suspendedResume (u : Nat)
  /-- ENGINE_PROG_STEP (R209): A long engine instruction ends a step at a PROG word, writes its results and samples requests. -/
  | engineProgStep (u code : Nat) (last : Bool)
  /-- CE_PARITY_FAULT (R210): A control-store parity failure stops the engine, ends its work with INTERNAL and block-resets it. -/
  | ceParityFault (u : Nat) (nano : Bool) (addr lanes : Nat)
  /-- ANA_START (R134): The analysis unit starts the next ANA and reads or initialises its stream state. -/
  | anaStart (t : Nat)
  /-- ANA_END (R139): An ANA finishes its search, fits the global model and writes the field and statistics. -/
  | anaEnd (t : Nat)
  /-- DEC_PICTURE_START (R181): A DEC or VFY parses the headers of its access unit, checks support and picks a slot. -/
  | decPictureStart (t : Nat) (head : DecHead)
  /-- DEC_CTU (R194): An engine decodes one CTU, detecting errors and concealing under the error policy. -/
  | decCtu (t a : Nat) (data : CtuData)
  /-- DEC_PICTURE_END (R185): A decoded picture is hash-checked, copied, and the output list is written. -/
  | decPictureEnd (t : Nat) (same outs flush : NoInput)
  /-- TRUSS_PATCH_GO (R213): A write of GO starts checking and verifying a microcode patch. -/
  | trussPatchGo (who : Who) (n : Nat) (mask : BitVec 8)
  /-- PATCH_VERIFY_DONE (R214): Patch verification ends and the truss sets HOLD on the masked engines. -/
  | patchVerifyDone (n : Nat) (good : SigOk)
  /-- PATCH_APPLY (R214): Once every masked engine is idle the patch is written, HOLD clears and patch done is raised. -/
  | patchApply (n : Nat)
  /-- PIX_START (R226): A PIX starts its stripes on its Plane engines. -/
  | pixStart (t rows : Nat)
  /-- PIX_END (R230): The slowest stripe of a PIX finishes and the work order ends. -/
  | pixEnd (t : Nat)
  /-- MORTAR_FRAME_BOUNDARY (R246): At an output's frame boundary the oldest queued program takes effect and layers are tested for readiness. -/
  | mortarFrameBoundary (n : Nat)
  /-- MORTAR_LINE_COMPOSE (R251): Mortar composes an output line, dropping late layer lines and late writeback rows. -/
  | mortarLineCompose (n late : Nat) (wbLate : Bool)
  /-- SDI_FRAME_SEND (R289): An SDI output begins a frame at its aligned instant with payload ID and timecode. -/
  | sdiFrameSend (n : Nat)
  /-- CSI_PORT_CFG_WRITE (R254): A write of CSI_PORTn_CFG is judged and enables, disables or is refused. -/
  | csiPortCfgWrite (who : Who) (n : Nat) (v : Word32)
  /-- CSI_FRAME_START (R260): A Frame Start packet starts or joins a frame, allocating its buffer or dropping it. -/
  | csiFrameStart (n vc fn : Nat) (ecc : Bool)
  /-- CSI_LINE (R262): A picture line packet is written to its row or discarded. -/
  | csiLine (n vc dt line : Nat) (payload : List Byte) (crcOk excess ecc : Bool)
  /-- CSI_META_PACKET (R267): An embedded or user-defined packet is captured after the info block or dropped. -/
  | csiMetaPacket (n vc dt : Nat) (payload : List Byte) (crcOk ecc : Bool)
  /-- CSI_FRAME_END (R263): The last Frame End ends the frame: rows are concealed, the info block and arrival record are written. -/
  | csiFrameEnd (n vc : Nat) (ecc : Bool)
  /-- FRAME_TIMEOUT (R260): TIMEOUT_US after its start a frame ends as at Frame End. -/
  | frameTimeout (t : Nat)
  /-- TRIG_PULSE (R269): At each trigger instant the SYNC_OUT pin is asserted for TRIG_WIDTH. -/
  | trigPulse (p : Nat)
  /-- MAG_LINK_UP (R271): A magazine link comes up and the engine enumerates and initialises its controllers. -/
  | magLinkUp (p link gen : Nat) (found : List NvmeFound)
  /-- MAG_LINK_DOWN (R275): A magazine link goes down or a controller stops answering, ending its MAGWs with LINK_DOWN. -/
  | magLinkDown (p link : Nat) (ctrl : Option Nat)
  /-- MAG_CFG_WRITE (R273): A write of MAG_CFG sets bifurcation and RING_BASE unless NVMe rings are enabled. -/
  | magCfgWrite (who : Who) (v : Word32)
  /-- MAGW_OPEN (R277): A MAGW OPEN opens a clip over its members and fixes its seed link. -/
  | magwOpen (t : Nat)
  /-- MAGW_WRITE (R279): A MAGW WRITE takes a sequence number and issues the encrypted record's NVMe writes. -/
  | magwWrite (t : Nat)
  /-- MAGW_CLOSE (R283): A MAGW CLOSE waits for earlier writes, writes the final seal and trailer, and flushes. -/
  | magwClose (t : Nat)
  /-- MAG_RECORD_COMPLETE (R281): A record's NVMe writes end, its link is formed and its final record written in SEQ order. -/
  | magRecordComplete (clip seq nvme : Nat)
  /-- SEAL_RECORD_SIGN (R441): Keystone signs a reserved seal record once every earlier record has ended, or writes it void. -/
  | sealRecordSign (clip : Nat) (good : Bool)
  /-- MAG_EMERG_SW_TRIG (R285): A write of MAG_EMERG.SW_TRIG starts emergency close of every open clip. -/
  | magEmergSwTrig (who : Who)
  /-- EMERGENCY_CLOSE_DONE (R286): Emergency close ends after trailers and flushes, setting DONE and releasing any held chip reset. -/
  | emergencyCloseDone (lost : List Nat)
  /-- SDI_CFG_WRITE (R287): A write of SDIn_CFG is judged and takes effect at the next frame boundary, or is refused. -/
  | sdiCfgWrite (who : Who) (n : Nat) (v : Word32)
  /-- DMC_ACCESS (R293): A DRAM access arrives at its channel and is queued, ordered, decrypted and ECC-checked. -/
  | dmcAccess (requester a : Nat) (write : Bool) (data : List Byte) (size : Nat)
  /-- DMC_SCHEDULE (R294): A channel chooses and issues its next command. -/
  | dmcSchedule (ch : Nat) (flt : DramFault)
  /-- DMC_POWER_DOWN (R294): A channel idle for 1 µs enters power-down. -/
  | dmcPowerDown (ch : Nat)
  /-- REFRESH_DUE (R297): A per-bank refresh falls due and is placed, postponed or forced. -/
  | refreshDue (ch bank : Nat)
  /-- MR4_POLL (R297): Every 16 ms the controller reads MR4 and rescales refresh. -/
  | mr4Poll (ch v : Nat)
  /-- SCRUB_READ (R301): Patrol scrub reads the next block, correcting and logging errors. -/
  | scrubRead (n : Nat) (flt : DramFault)
  /-- RETRAIN_CHECK (R306): A periodic WCK and ZQ check runs on a channel and may start a full retrain. -/
  | retrainCheck (ch : Nat) (drift failed : Bool)
  /-- RETRAIN_RETRY (R306): 1 ms after a failed retrain it is retried. -/
  | retrainRetry (ch : Nat) (failed : Bool)
  /-- DMC_LOG_POP (R300): A write of POP removes the oldest DMC log entry. -/
  | dmcLogPop (who : Who) (n : Nat)
  /-- MEM_REGION_WRITE (R302): Keystone writes a DRAM region register, which takes effect or is refused with ERR. -/
  | memRegionWrite (n base limit : Nat)
  /-- ASHLAR_ACCESS (R307): A bank serves a load, store or atomic from an admitted requester, or refuses it. -/
  | ashlarAccess (requester ch a : Nat) (op : AshOp) (flt : AshFault)
  /-- ASHLAR_OWNER_WRITE (R308): A write of ASHLAR_OWNERn starts an owner change, with optional wipe, or is refused. -/
  | ashlarOwnerWrite (who : Who) (n : Nat) (v : Word32)
  /-- ASHLAR_DRAIN_DONE (R308): Accepted accesses drain and the new owner is admitted or zeroing begins. -/
  | ashlarDrainDone (n : Nat)
  /-- ASHLAR_WIPE_DONE (R308): Zeroing of a bank ends and held accesses of the new owner are served. -/
  | ashlarWipeDone (n : Nat)
  /-- ABS_WIPE_DONE (R311): The ABS wipe and read-back end and ABS_WIPED is set. -/
  | absWipeDone (bad : Option Nat)
  /-- YARD_CTRL_EN (R312): A write of YARD_CTRL.EN checks every enabled pool and enables the Yard or sets ERR. -/
  | yardCtrlEn (who : Who)
  /-- YARD_ALLOC (R320): A read of YARD_ALLOC allocates a buffer for the function and returns its handle. -/
  | yardAlloc (who : Who)
  /-- YARD_FREE (R318): A host write of YARD_FREE frees a buffer. -/
  | yardFree (who : Who) (h : Word32)
  /-- YARD_XFER (R318): A host write of YARD_XFER gives a buffer to YARD_XFER_OWNER. -/
  | yardXfer (who : Who) (h : Word32)
  /-- YARD_LOW_WATER_WRITE (R317): A write of LOW_WATER may set or clear a pool's LOW state. -/
  | yardLowWaterWrite (who : Who) (n : Nat) (v : Word32)
  /-- HOST_BAR2_ACCESS (R321): A host window access is checked against the covering buffer and performed or refused. -/
  | hostBar2Access (f off n : Nat) (data : Option (List Byte))
  /-- RING_ENABLE (R325): A write of RING_CTRL.EN = 1 binds and enables a ring, or fails with ERR. -/
  | ringEnable (who : Who) (n : Nat) (v : Word32)
  /-- RING_DISABLE (R325): A write of EN = 0 empties the ring and returns its store. -/
  | ringDisable (who : Who) (n : Nat) (v : Word32)
  /-- RING_RESET (R330): A write of RING_CTRL.RESET discards a ring's entries and restarts its indices. -/
  | ringReset (who : Who) (n : Nat) (v : Word32)
  /-- RING_REFILL (R326): The ring engine refills a head register from the store. -/
  | ringRefill (n : Nat)
  /-- HOST_PUSH_SOP_EOP (R328): A host 32-byte write at slot offset 0x00 pushes an entry marked SOP and EOP. -/
  | hostPushSopEop (f n : Nat) (data : List Byte)
  /-- HOST_PUSH_SOP (R328): A host 32-byte write at slot offset 0x20 pushes an entry marked SOP. -/
  | hostPushSop (f n : Nat) (data : List Byte)
  /-- HOST_PUSH_MID (R328): A host 32-byte write at slot offset 0x40 pushes an unmarked entry. -/
  | hostPushMid (f n : Nat) (data : List Byte)
  /-- HOST_PUSH_EOP (R328): A host 32-byte write at slot offset 0x60 pushes an entry marked EOP. -/
  | hostPushEop (f n : Nat) (data : List Byte)
  /-- HOST_POP (R329): A host read at slot offset 0x80 pops the oldest deliverable entry or begins a bounded wait. -/
  | hostPop (f n size : Nat)
  /-- HOST_POP_TIMEOUT (R329): A waiting host pop reaches HOST_STALL_NS and returns the empty token. -/
  | hostPopTimeout (n : Nat)
  /-- HOST_RING_STATUS_READ (R328): A host read at slot offset 0xA0 returns the entry count and clears the reader's RESET bit. -/
  | hostRingStatusRead (f n : Nat)
  /-- DMA_DESC_FETCH (R337): A channel fetches and checks the next descriptor and starts its bursts. -/
  | dmaDescFetch (ch : Nat)
  /-- DMA_DESC_COMPLETE (R341): A descriptor's bursts complete and the channel reads its link, continuing, parking or ending. -/
  | dmaDescComplete (ch : Nat) (host : List Byte)
  /-- DMA_DBELL (R341): A write of DMA_CHn_DBELL rereads a parked link or sets PEND. -/
  | dmaDbell (who : Who) (c : Nat)
  /-- SW_FRAME_RX (R350): A frame fully arrives at a switch input and is admitted, marked or dropped at each destination. -/
  | swFrameRx (p : Nat) (data : List Byte) (fcsOk : Bool)
  /-- PFC_REPEAT (R353): Every 160 µs while paused the PFC frame is repeated. -/
  | pfcRepeat (p c : Nat)
  /-- PFC_RX (R355): A PFC frame received from the peer pauses or resumes classes of the port. -/
  | pfcRx (p enable : Nat) (quanta : List Nat)
  /-- EGRESS_FRAME_START (R377): A port starts the head frame of the highest eligible class, dropping aged frames. -/
  | egressFrameStart (p : Nat)
  /-- SW_LINK_DOWN (R359): A switch output port loses its link and enters HOLD or DOWN. -/
  | swLinkDown (p : Nat)
  /-- HOLD_EXPIRE (R359): The hold timer expires, the port enters DOWN and its queues are flushed. -/
  | holdExpire (p : Nat)
  /-- SW_LINK_UP (R359): A port's link returns and the port enters UP. -/
  | swLinkUp (p : Nat)
  /-- ETH_PORT_CFG_WRITE (R362): A write of ETH_PORTp_CFG sets a port mode or is refused. -/
  | ethPortCfgWrite (who : Who) (p : Nat) (v : Word32)
  /-- ETH_TIME_STEP (R365): A write of ETH_TIME_STEP adds a signed value to device time. -/
  | ethTimeStep (who : Who) (v : Word)
  /-- ETH_TIME_RATE (R364): A write of ETH_TIME_RATE trims the rate of device time. -/
  | ethTimeRate (who : Who) (v : Word32)
  /-- TOP_TIME_READ_LO (R2): A 32-bit read of TOP_TIME offset 0x008 returns the low half and latches the high half. -/
  | topTimeReadLo (who : Who)
  /-- RX_DELIVER (R367): A frame leaving switch port RX is matched against the flow table and delivered to its ring. -/
  | rxDeliver (c : Nat)
  /-- NETTX_PACKET (R372): A NETTX takes a packet from its source ring and sends it into the switch. -/
  | nettxPacket (t : Nat)
  /-- ETH_IP_CFG_WRITE (R376): A write of ETH_IPn_CFG sets a Mortar IP sender or is refused. -/
  | ethIpCfgWrite (who : Who) (n : Nat) (v : Word32)
  /-- ETH_QHWM_READ (R380): A read of ETH_QHWMp_c returns and clears the high-water marks. -/
  | ethQhwmRead (who : Who) (p c : Nat)
  /-- GATE_CHANGE (R382): A write of GATE_CTRL.CHANGE fixes the start instant of the administrative list or sets ERR. -/
  | gateChange (who : Who) (p : Nat) (v : Word32)
  /-- GATE_LIST_START (R382): At the start instant the administrative list becomes operational. -/
  | gateListStart (p : Nat)
  /-- GATE_ENTRY_ADVANCE (R381): An entry's interval ends and the gate list moves to its next entry. -/
  | gateEntryAdvance (p : Nat)
  /-- BOND_SYNC_RX (R389): A SYNC frame is answered, or a response feeds the follower's servo. -/
  | bondSyncRx (n : Nat) (f : List Byte)
  /-- BOND_SCHED_GO (R392): A write of BOND_SCHED_CTRL.GO sends a SCHED frame with a new sequence number. -/
  | bondSchedGo (who : Who) (v : Word32)
  /-- BOND_SCHED_RX (R393): A received SCHED frame replaces a pin's trigger sequence if newer. -/
  | bondSchedRx (n : Nat) (f : List Byte)
  /-- BOND_MSG_RX (R395): A received MSG word or doorbell is delivered and acknowledged, or an ACK or NAK ends a proxy send. -/
  | bondMsgRx (n : Nat) (f : List Byte)
  /-- PROXY_RETRANSMIT (R394): A proxy without an answer after 20 µs retransmits or fails with no answer. -/
  | proxyRetransmit (k : Nat)
  /-- BOND_STREAM_RX (R396): A received STREAM frame's inner frame enters the switch at the Bond port. -/
  | bondStreamRx (n : Nat) (f : List Byte)
  /-- BOND_LINK_DOWN (R397): A Bond port loses its link, affecting streams, time, schedules and proxies. -/
  | bondLinkDown (n : Nat)
  /-- MSIX_TIMER_EXPIRE (R404): A vector's moderation timer expires and the vector becomes due. -/
  | msixTimerExpire (f v : Nat)
  /-- D3HOT_ENTRY (R405): A function enters D3hot and holds its messages. -/
  | d3hotEntry (f : Nat)
  /-- D0_ENTRY (R405): A function returns to D0 and each due vector sends one message when unmasked. -/
  | d0Entry (f : Nat)
  /-- FLR_INITIATE (R89): An FLR or function disable starts stopping, cancelling and discarding the function's work. -/
  | flrInitiate (f : Nat)
  /-- FLR_COMPLETE (R407): The function's work has ended, buffers are returned, the summary record written and FLR_BUSY clears. -/
  | flrComplete (f : Nat)
  /-- IDE_TLP_FAIL (R402): A TLP failing IDE integrity is dropped and the stream becomes Insecure. -/
  | ideTlpFail (n : Nat)
  /-- GET_VERSION (R402): The SPDM responder answers GET_VERSION. -/
  | getVersion (req : List Byte)
  /-- GET_CAPABILITIES (R402): The SPDM responder answers GET_CAPABILITIES. -/
  | getCapabilities (req : List Byte)
  /-- NEGOTIATE_ALGORITHMS (R402): The SPDM responder answers NEGOTIATE_ALGORITHMS. -/
  | negotiateAlgorithms (req : List Byte) (offered : Bool)
  /-- GET_DIGESTS (R402): The SPDM responder answers GET_DIGESTS. -/
  | getDigests (req : List Byte)
  /-- GET_CERTIFICATE (R434): The SPDM responder returns the slot 0 certificate chain. -/
  | getCertificate (req : List Byte) (slot off len : Nat)
  /-- CHALLENGE (R434): The SPDM responder answers CHALLENGE signed with AK. -/
  | challenge (req : List Byte) (slot : Nat)
  /-- GET_MEASUREMENTS (R435): The SPDM responder returns the measurement blocks signed with AK. -/
  | getMeasurements (req : List Byte) (index : Nat) (sign : Bool)
  /-- KEY_EXCHANGE (R402): The SPDM responder answers KEY_EXCHANGE. -/
  | keyExchange (req : List Byte) (slot : Nat)
  /-- FINISH (R402): The SPDM responder answers FINISH. -/
  | finish (req : List Byte) (good : Bool)
  /-- QP_READ (R409): A QP read returns one word of the QP map within its cycle. -/
  | qpRead (a : Nat)
  /-- QP_DOORBELL_WRITE (R409): A QP write at 0x800–0x83F sets doorbell bits or is refused for secure channels. -/
  | qpDoorbellWrite (a : Nat) (v : Word32) (clash : Bool)
  /-- QP_TRIGGER_WRITE (R409): A QP write at 0x900–0x90F stores QP_TRIGk and raises QP trigger k. -/
  | qpTriggerWrite (a : Nat) (v : Word32) (clash : Bool)
  /-- INTC_EVENT (R413): An interrupt source input event makes the source pending and delivers it to its target. -/
  | intcEvent (n : Nat)
  /-- INTC_CLAIM (R417): A read of a claim register returns and activates the highest deliverable source. -/
  | intcClaim (who : Who) (r : Nat)
  /-- INTC_COMPLETE (R418): A write of a completion register ends a source's active state and resamples a level input. -/
  | intcComplete (who : Who) (r : Nat) (v : Word32)
  /-- INTC_PEND_SET (R415): A write of INTC_PEND_SETw acts as one event for each set bit. -/
  | intcPendSet (who : Who) (w : Nat) (v : Word32)
  /-- INTC_PEND_CLR (R415): A write of INTC_PEND_CLRw clears pending bits. -/
  | intcPendClr (who : Who) (w : Nat) (v : Word32)
  /-- INTC_EN_SET (R415): A write of INTC_EN_SETw enables sources, delivering any pending. -/
  | intcEnSet (who : Who) (w : Nat) (v : Word32)
  /-- INTC_EN_CLR (R415): A write of INTC_EN_CLRw disables sources other than 517. -/
  | intcEnClr (who : Who) (w : Nat) (v : Word32)
  /-- MBX_SEND_WRITE (R423): A write of MBX_CHc_SEND stores a word or sets SEND_DROP. -/
  | mbxSendWrite (who : Who) (c : Nat) (v : Word32)
  /-- MBX_RECV_READ (R423): A 64-bit read of MBX_CHc_RECV takes the word of a full channel. -/
  | mbxRecvRead (who : Who) (c : Nat)
  /-- MBX_DB_SET (R424): A write of MBX_CHc_DB_SET sets doorbell bits. -/
  | mbxDbSet (who : Who) (c : Nat) (v : Word32)
  /-- MBX_DB_CLR (R424): A write of MBX_CHc_DB_CLR clears doorbell bits. -/
  | mbxDbClr (who : Who) (c : Nat) (v : Word32)
  /-- MBX_CROSS_TIMEOUT (R426): Both channels of a pair stay full past the timeout and the cross bit and interrupts assert. -/
  | mbxCrossTimeout (k : Nat)
  /-- MBX_CROSS_CLEAR (R426): A write clearing a cross bit restarts its timer when both channels are still full. -/
  | mbxCrossClear (who : Who) (v : Word32)
  /-- CLIP_NEW (R437): KEYOP CLIP_NEW draws a clip key into a free slot bound to a clip identifier. -/
  | clipNew (t : Nat)
  /-- WRAP (R446): KEYOP WRAP writes a wrapped-key record of a slot's key to a recipient. -/
  | wrap (t : Nat)
  /-- ENROL (R445): KEYOP ENROL verifies and stores a recipient record. -/
  | enrol (t : Nat) (good : SigOk)
  /-- DESTROY (R437): KEYOP DESTROY erases a clip-key slot, at once or when its clip closes. -/
  | destroy (t : Nat)
  /-- IMPORT (R447): KEYOP IMPORT unwraps a record addressed to this device into a free slot. -/
  | keyImport (t : Nat) (good : ImportOk)
  /-- REGION (R437): KEYOP REGION loads a fresh key and programs a DRAM region. -/
  | region (t : Nat)
  /-- SIGN (R449): SEAL SIGN digests input and writes a signed statement. -/
  | sign (t : Nat)
  /-- OPEN_RECORD (R449): SEAL OPEN_RECORD checks and decrypts a clip record. -/
  | openRecord (t : Nat)
  /-- KS_ARB_COMMIT (R433): A write of KS_ARB_COMMIT raises an anti-rollback counter to its run value. -/
  | ksArbCommit (who : Who) (n : Nat) (good : Bool)
  /-- TAMPER_EVENT (R451): A tamper input or detector trips, starting the ABS wipe, key zeroising, emergency close and an F4 event. -/
  | tamperEvent (src : Nat)
  /-- LC_REQUEST_GO (R454): A write of KS_LC_CTRL.GO checks a life-cycle request and starts its wipe and fuse blowing. -/
  | lcRequestGo (who : Who) (sigOk : SigOk)
  /-- PLUMB_EVENT (R460): A fault event opens or merges a Plumb record and performs its reactions. -/
  | plumbEvent (n detail : Nat)
  /-- PLUMB_REC_CLOSE (R462): A write of PLUMB_REC_CLOSE closes a non-F4 record and frees its slot. -/
  | plumbRecClose (who : Who) (n : Nat)
  /-- PLUMB_SRC_CLEAR (R464): A write of PLUMB_SRCn_STAT.CLEAR resets RAISE and the count. -/
  | plumbSrcClear (who : Who) (n : Nat)
  /-- WDOG_KICK (R465): A write of PLUMB_WDOG_KICK restarts the watchdog or counts a bad kick. -/
  | wdogKick (who : Who) (v : Word32)
  /-- POR (R473): Every supply rising resets everything except fuses. -/
  | por (ordered : Bool)
  /-- COLD_RESET (R473): RESET_N low or a life-cycle change resets everything outside the AON and safety domains. -/
  | coldReset (low : Bool)
  /-- CRP_RESET_CTRL_WARM (R473): A keyed write of CRP_RESET_CTRL.WARM requests a warm reset. -/
  | crpResetCtrlWarm (who : Who) (v : Word32)
  /-- ZERO_DONE (R474): Zeroing of on-chip memories ends and ZERO_DONE lets other masters run. -/
  | zeroDone (xtal : Bool)
  /-- BOOT_STAGE_ADVANCE (R479): A boot stage's work ends and the boot moves to the next stage or stops. -/
  | bootStageAdvance (x : BootIn)
  /-- PWR_REQ_ACTIVE (R481): A write of CRP_PWR_CTRL.REQ = 0 returns the device to Active. -/
  | pwrReqActive (who : Who)
  /-- PWR_REQ_STANDBY (R481): A write of REQ = 1 stops trusses starting work on the way to Standby. -/
  | pwrReqStandby (who : Who)
  /-- PWR_REQ_SLEEP (R482): A write of REQ = 2 requests Sleep, refused or starting the save. -/
  | pwrReqSleep (who : Who)
  /-- SDI_PLL_UPDATE (R470): Every 1 ms each SDI serialiser's frequency word is updated toward device-time alignment. -/
  | sdiPllUpdate (n : Nat)
  /-- PERF_FREEZE (R485): A write of PERF_CTRL.FREEZE stops or restarts every counter on one cycle. -/
  | perfFreeze (who : Who) (on : Bool)
  /-- PERF_CLEAR (R485): A write of PERF_CTRL.CLEAR zeroes every counter on one cycle. -/
  | perfClear (who : Who)
  /-- REGISTER_WRITE (R12): A write to a register without a row of its own sets its writable fields under the grant. -/
  | registerWrite (who : Who) (off n : Nat) (v : Word)
  /-- CSI_HS_SYNC (R270): A high-speed sync sequence arrives at a CSI-2 port, setting LOCK when valid and clearing it when it fails. -/
  | csiHsSync (n : Nat) (valid : Bool)
  /-- MAGW_CLOSE_FLUSH_DONE (R283): The trailer FUA write and the Flush of every member complete, and the CLOSE writes its final record and frees the slot. -/
  | magwCloseFlushDone (clip nvme : Nat)
  /-- PFC_PAUSE_EXPIRE (R355): The pause time of a received PFC frame runs out and the paused class may send again. -/
  | pfcPauseExpire (p c : Nat)
  /-- WO_LAST_PF_FLR_READ (R91): A read of WO_LAST_PF_FLR returns LOST and clears it. -/
  | woLastPfFlrRead (who : Who)
  /-- HEARTBEAT (R402): The SPDM responder answers HEARTBEAT. -/
  | heartbeat (req : List Byte)
  /-- KEY_UPDATE (R402): The SPDM responder answers KEY_UPDATE. -/
  | keyUpdate (req : List Byte) (op tag : Nat)
  /-- END_SESSION (R402): The SPDM responder answers END_SESSION and ends the session. -/
  | endSession (req : List Byte)
  /-- FABRIC_TIMEOUT (R458): A fabric request without response for 1 ms raises an F3 event. -/
  | fabricTimeout (r : Nat)
  /-- SLEEP_WAKE (R483): A wake source in Sleep raises SLEEP_N and starts the exit. -/
  | sleepWake (src : Nat)
  /-- SLEEP_EXIT_DONE (R483): The exit ends with state restored, or a failed save or rail ends in a cold reset. -/
  | sleepExitDone (ok : Bool)
  /-- TEMP_UPDATE (R510): Every 1 ms TOP_TEMP takes the hottest on-die sensor reading. -/
  | tempUpdate (v : BitVec 16)
  /-- DOE_DISCOVERY (R402): The DOE mailbox answers a DOE discovery request listing its protocols. -/
  | doeDiscovery (index : Nat)
  /-- IDE_KM (R402): An IDE_KM message within a secure SPDM session programs or activates the keys of an IDE stream. -/
  | ideKm (obj stream key : Nat)
  /-- TAP_INSTRUCTION (R509): An instruction loaded into the JTAG TAP acts, or selects BYPASS according to RESET_N and the life-cycle state. -/
  | tapInstruction (op : TapOp)
  /-- MAG_EMERG_N_FALL (R285): MAG_EMERG_N falling starts emergency close of every open clip. -/
  | magEmergNFall
  /-- SHAPER_TICK (R378): Every 1 µs each queue's token bucket is refilled and capped. -/
  | shaperTick
  /-- QUEUE_SAMPLE (R380): Every INTERVAL_US a depth record per queue is pushed or taken by the high-water marks. -/
  | queueSample
  /-- SYNC_REQUEST_SEND (R389): Sixteen times a second a follower sends a SYNC request to its parent. -/
  | syncRequestSend
  /-- BOND_HOLDOVER_TIMEOUT (R390): A follower with no valid response for 1 s enters HOLDOVER. -/
  | bondHoldoverTimeout
  /-- BOND_SCHED_REPEAT (R392): A repeat copy of a SCHED frame is sent 10 µs after the last. -/
  | bondSchedRepeat
  /-- LINK_L0_ENTRY (R405): The host link reaches L0 and held due vectors send their messages. -/
  | linkL0Entry
  /-- VF_ENABLE_CLEAR (R398): Clearing VF Enable acts as an FLR of every VF. -/
  | vfEnableClear
  /-- HOST_PERST_ASSERT (R476): HOST_PERST_N falls, acting as a PF FLR or as D3cold entry. -/
  | hostPerstAssert
  /-- HOST_PERST_RELEASE (R476): HOST_PERST_N rises and link training starts. -/
  | hostPerstRelease
  /-- QP_READ_TIME_LO (R409): A QP read of address 0x001 returns TOP_TIME[31:0] and latches the high half. -/
  | qpReadTimeLo
  /-- LC_REQUEST_DONE (R455): The life-cycle wipe and fuse blowing end and Keystone issues a cold reset. -/
  | lcRequestDone
  /-- WDOG_EXPIRE (R465): The watchdog count reaches zero, raising the warning or, unkicked a second time, the expire event. -/
  | wdogExpire
  /-- WARM_RESET (R473): A Plumb chip reset or software request resets everything outside the QP, safety and AON domains. -/
  | warmReset
  /-- STANDBY_ENTER (R481): Once no truss holds work the engine domains are gated and the state becomes Standby. -/
  | standbyEnter
  /-- SLEEP_ENTER (R482): The save ends, DRAM enters self-refresh and SLEEP_N falls. -/
  | sleepEnter
  /-- AON_SUPPLY_LOSS (R502): VDD_AON falling below 0.70 V resets the AON and safety domains, latching a glitch when RESET_N is high. -/
  | aonSupplyLoss
  /-- PERF_DUMP (R487): At each dump period all counters are snapshotted and pushed or counted lost. -/
  | perfDump
  /-- PERF_SAMPLE (R488): A sampling counter wraps, reloads and pushes a sample record. -/
  | perfSample
  /-- PERF_BW_WINDOW (R491): At a window boundary the byte totals move into the bandwidth registers. -/
  | perfBwWindow
  /-- AON_SUPPLY_RETURN (R502): VDD_AON comes back into range, restoring latched F4 records into Plumb and acting as a tamper event if the fall was latched as a glitch. -/
  | aonSupplyReturn
  /-- LINK_L1_ENTRY (R405): The host link enters ASPM L1, so due vectors must wait for L1 exit. -/
  | linkL1Entry
  /-- PME_TURN_OFF (R482): The host sends PME_Turn_Off and the device completes the handshake that Sleep entry requires. -/
  | pmeTurnOff
  /-- VF_ENABLE_SET (R398): Setting VF Enable brings NumVFs VFs into being and freezes NumVFs. -/
  | vfEnableSet
  deriving DecidableEq, Repr

end Sys2Proof
end

