-- ==== Sys2Proof/Decode.lean ====
section
/-! DEFINITION. The words of the block. The table gives no row any bits, so no table word spells a command; a Holt instruction has a word
of its own (R18), which `holtEncode` forms and `holtDecode` reads. -/

namespace Sys2Proof

/-- The command a word spells by the table's bits: none, since no row of the table has bits. -/
def decodeTableWord (_nbits _w : Nat) : Option Instr := none

/-- The instruction word of an opcode and its fields (R18). -/
def holtWord (op : Nat) (w : HoltWord) : Word :=
  BitVec.ofNat 64 (op * 2 ^ 56 + w.hd.toNat * 2 ^ 51 + w.ha.toNat * 2 ^ 46 + w.hb.toNat * 2 ^ 41 + w.mod.toNat * 2 ^ 37 + w.imm37.toNat)

/-- The word of an instruction that has both forms, given its even opcode (R20). -/
def pairWord (op : Nat) (w : HoltWord) : Word := holtWord (op + if w.imm then 1 else 0) w

/-- The opcode of a word (R18). -/
def opcodeOf (word : Word) : Nat := word.toNat / 2 ^ 56

/-- The operand fields of a word (R18). -/
def holtFields (word : Word) : HoltWord :=
  let n := word.toNat
  { imm := opcodeOf word % 2 == 1, hd := BitVec.ofNat 5 (n / 2 ^ 51), ha := BitVec.ofNat 5 (n / 2 ^ 46), hb := BitVec.ofNat 5 (n / 2 ^ 41)
    mod := BitVec.ofNat 4 (n / 2 ^ 37), imm37 := BitVec.ofNat 37 n }

/-- The opcodes that have both forms: the instruction by its even opcode (R27–R45). -/
def pairDecode (c : Nat) (w : HoltWord) : Nat → Option Instr
  | 0x00 => some (.add c w)
  | 0x02 => some (.sub c w)
  | 0x04 => some (.and c w)
  | 0x06 => some (.or c w)
  | 0x08 => some (.xor c w)
  | 0x0A => some (.shl c w)
  | 0x0C => some (.shr c w)
  | 0x0E => some (.sar c w)
  | 0x10 => some (.mul c w)
  | 0x12 => some (.mulh c w)
  | 0x14 => some (.min c w)
  | 0x16 => some (.max c w)
  | 0x18 => some (.cmp c w)
  | 0x1A => some (.sel c w)
  | 0x20 => some (.b c w)
  | 0x22 => some (.bcond c w)
  | 0x24 => some (.call c w)
  | 0x28 => some (.switch c w)
  | 0x30 => some (.ld c w)
  | 0x32 => some (.st c w)
  | 0x34 => some (.ldseg c w)
  | 0x40 => some (.aadd c w)
  | 0x42 => some (.aswap c w)
  | 0x44 => some (.acas c w)
  | 0x50 => some (.push c w)
  | 0x52 => some (.pop c w)
  | 0x54 => some (.popnb c w)
  | 0x56 => some (.peek c w)
  | 0x58 => some (.rlen c w)
  | 0x60 => some (.balloc c w)
  | 0x64 => some (.bxfer c w)
  | 0x68 => some (.waitt c w)
  | 0x6A => some (.waitd c w)
  | 0x70 => some (.enc c w)
  | 0x72 => some (.encr c w)
  | 0x74 => some (.dec c w)
  | 0x76 => some (.vfy c w)
  | 0x78 => some (.ana c w)
  | 0x7A => some (.pix c w)
  | 0x7C => some (.comp c w)
  | 0x7E => some (.dma c w)
  | 0x80 => some (.seal c w)
  | 0x82 => some (.magw c w)
  | 0x84 => some (.nettx c w)
  | 0x86 => some (.ingest c w)
  | 0x88 => some (.keyop c w)
  | 0x90 => some (.mbxsend c w)
  | 0x92 => some (.mbxrecv c w)
  | 0x94 => some (.dbell c w)
  | 0x96 => some (.irq c w)
  | 0x9C => some (.csrr c w)
  | 0x9E => some (.csrw c w)
  | 0x6E => some (if w.mod = 1 then .tkpoll c w else .tkwait c w)
  | _ => none

/-- The opcodes that have one form (R20, R27–R45). -/
def singleDecode (c : Nat) (w : HoltWord) : Nat → Option Instr
  | 0x1C => some (.mov c w)
  | 0x1D => some (.movi c w)
  | 0x1F => some (.movhi c w)
  | 0x26 => some (.ret c w)
  | 0x62 => some (.bfree c w)
  | 0x66 => some (.bstat c w)
  | 0x6C => some (.fence c w)
  | 0x6D => some (.evt c w)
  | 0x98 => some (.yield c w)
  | 0x9A => some (.halt c w)
  | _ => none

/-- The command that context c issues when it fetches a word; an opcode that is not assigned raises an illegal instruction (R20). -/
def holtDecode (c : Nat) (word : Word) : Instr :=
  let w := holtFields word
  let op := opcodeOf word
  match singleDecode c w op with
  | some i => i
  | none => (pairDecode c w (op / 2 * 2)).getD (.illegalInstruction c word)

/-- The word of a Holt instruction (R18), by the opcodes of R27–R45; none for a command that is no instruction. -/
def holtEncode : Instr → Option Word
  | .add _ w => some (pairWord 0x00 w)
  | .sub _ w => some (pairWord 0x02 w)
  | .and _ w => some (pairWord 0x04 w)
  | .or _ w => some (pairWord 0x06 w)
  | .xor _ w => some (pairWord 0x08 w)
  | .shl _ w => some (pairWord 0x0A w)
  | .shr _ w => some (pairWord 0x0C w)
  | .sar _ w => some (pairWord 0x0E w)
  | .mul _ w => some (pairWord 0x10 w)
  | .mulh _ w => some (pairWord 0x12 w)
  | .min _ w => some (pairWord 0x14 w)
  | .max _ w => some (pairWord 0x16 w)
  | .cmp _ w => some (pairWord 0x18 w)
  | .sel _ w => some (pairWord 0x1A w)
  | .b _ w => some (pairWord 0x20 w)
  | .bcond _ w => some (pairWord 0x22 w)
  | .call _ w => some (pairWord 0x24 w)
  | .switch _ w => some (pairWord 0x28 w)
  | .ld _ w => some (pairWord 0x30 w)
  | .st _ w => some (pairWord 0x32 w)
  | .ldseg _ w => some (pairWord 0x34 w)
  | .aadd _ w => some (pairWord 0x40 w)
  | .aswap _ w => some (pairWord 0x42 w)
  | .acas _ w => some (pairWord 0x44 w)
  | .push _ w => some (pairWord 0x50 w)
  | .pop _ w => some (pairWord 0x52 w)
  | .popnb _ w => some (pairWord 0x54 w)
  | .peek _ w => some (pairWord 0x56 w)
  | .rlen _ w => some (pairWord 0x58 w)
  | .balloc _ w => some (pairWord 0x60 w)
  | .bxfer _ w => some (pairWord 0x64 w)
  | .waitt _ w => some (pairWord 0x68 w)
  | .waitd _ w => some (pairWord 0x6A w)
  | .enc _ w => some (pairWord 0x70 w)
  | .encr _ w => some (pairWord 0x72 w)
  | .dec _ w => some (pairWord 0x74 w)
  | .vfy _ w => some (pairWord 0x76 w)
  | .ana _ w => some (pairWord 0x78 w)
  | .pix _ w => some (pairWord 0x7A w)
  | .comp _ w => some (pairWord 0x7C w)
  | .dma _ w => some (pairWord 0x7E w)
  | .seal _ w => some (pairWord 0x80 w)
  | .magw _ w => some (pairWord 0x82 w)
  | .nettx _ w => some (pairWord 0x84 w)
  | .ingest _ w => some (pairWord 0x86 w)
  | .keyop _ w => some (pairWord 0x88 w)
  | .mbxsend _ w => some (pairWord 0x90 w)
  | .mbxrecv _ w => some (pairWord 0x92 w)
  | .dbell _ w => some (pairWord 0x94 w)
  | .irq _ w => some (pairWord 0x96 w)
  | .csrr _ w => some (pairWord 0x9C w)
  | .csrw _ w => some (pairWord 0x9E w)
  | .tkwait _ w => some (pairWord 0x6E w)
  | .tkpoll _ w => some (pairWord 0x6E w)
  | .mov _ w => some (holtWord 0x1C w)
  | .movi _ w => some (holtWord 0x1D w)
  | .movhi _ w => some (holtWord 0x1F w)
  | .ret _ w => some (holtWord 0x26 w)
  | .bfree _ w => some (holtWord 0x62 w)
  | .bstat _ w => some (holtWord 0x66 w)
  | .fence _ w => some (holtWord 0x6C w)
  | .evt _ w => some (holtWord 0x6D w)
  | .yield _ w => some (holtWord 0x98 w)
  | .halt _ w => some (holtWord 0x9A w)
  | .illegalInstruction _ word => some word
  | _ => none

end Sys2Proof
end

