-- ==== Sys2Proof/Config.lean ====
section
/-! DEFINITION. What the spec leaves open: every constant here has no body, so nothing can be proved of a value of
it. A free value takes the model's own counter `Device.draw`, which every command advances, as its first argument. The functions of the
coding standards, which the spec names and does not restate, take what the standard computes them from. -/

namespace Sys2Proof

/-- Rows of samples of one plane. -/
abbrev Samples := List (List Nat)

/-- A rectangle of luma samples of the coded picture. -/
structure Block where
  x : Nat
  y : Nat
  w : Nat
  h : Nat
  deriving DecidableEq, Repr

/-- A vector of a prediction block (R143): reference list, index in it, the display position of that reference, and the vector in quarter
luma samples. -/
structure Mv where
  list : Nat
  ref : Nat
  disp : Int
  x : Int
  y : Int
  deriving DecidableEq, Repr

/-- A prediction block of a CU: its intra mode, or its vectors and, under affine motion (R148), its control-point vectors in sixteenths. -/
structure Part where
  blk : Block
  mode : Option Nat
  mvs : List Mv
  affine : List (Int × Int)
  deriving DecidableEq, Repr

/-- How a CU is coded: its prediction blocks, its chroma mode (R101), its AMVR precision (R147), the merge candidate it takes, and whether it is
coded by the lossless method of R105. -/
structure CuRec where
  blk : Block
  parts : List Part
  chroma : Nat
  amvr : Nat
  merge : Option Nat
  lossless : Bool
  deriving DecidableEq, Repr

/-- What governs the coding of a CU (R102): codec, the tools it may use, depth, block QP, RDOQ, dependent quantisation, sign data hiding, the
denominator of the dead-zone offset when neither applies, and the scaling record. -/
structure CodeSet where
  codec : Nat
  tools : List Tool
  depth : Nat
  qp : Int
  rdoq : Bool
  dependent : Bool
  signHiding : Bool
  deadZone : Option Nat
  scaling : List Byte
  deriving DecidableEq, Repr

/-- What coding a CU gives: bits, whether it is skipped, the entropy coder's state after it, the bytes it emits, and its reconstruction. -/
structure CodeOut where
  bits : Nat
  skip : Bool
  entropy : Nat
  bytes : List Byte
  recon : List Samples
  deriving DecidableEq, Repr, Inhabited

/-- What a sequence signals in its parameter sets or sequence header (R92–R108, R157). -/
structure SeqSyntax where
  profile : Nat
  level : Nat
  tier : Nat
  chroma : Nat
  depth : Nat
  width : Nat
  height : Nat
  codedWidth : Nat
  codedHeight : Nat
  cropRight : Nat
  cropBottom : Nat
  ctuLog : Nat
  minCbLog : Nat
  identityMatrix : Bool
  tools : List Tool
  transquantBypass : Bool
  minTsQp : Option Nat
  losslessSegment : Option Nat
  uniformTiles : Bool
  tileCols : List Nat
  tileRows : List Nat
  acrossTiles : Bool
  deblockingOff : Bool
  filtersOff : Bool
  wpp : Bool
  numRef : Nat
  hrd : Option (Nat × Nat × Nat × Bool)
  deriving DecidableEq, Repr

/-- Kinds of picture (R97). -/
inductive PicKind
  | idr | cra | keyFrame | trailing
  deriving DecidableEq, Repr

/-- What a slice header or frame header signals (R97, R98, R104, R117, R126). -/
structure PicSyntax where
  kind : PicKind
  type : Nat
  order : Int
  pic : Nat
  refs : List (List Int)
  qp : Int
  dependentRow : Option Nat
  entryPoints : List Nat
  noEndUpdate : Bool
  regularFilter : Bool
  highPrecision : Bool
  deltaRes : Nat
  endSeq : Bool
  deriving DecidableEq, Repr

/-- SEIs and metadata whose payload a standard defines (R112, R113, R157). -/
inductive SeiSyntax
  | timeCode (time : Nat)
  | bufferingPeriod (hrd : Option (Nat × Nat × Nat × Bool))
  | pictureTiming (pic : Nat)
  | pictureHash (kind : Nat) (planes : List (List Byte))
  deriving DecidableEq, Repr

end Sys2Proof

namespace Sys2Proof.Config

/-- A DRAM byte that nothing has written since its allocation, wipe or reset (R302, R303, R315); arguments: the
draw counter and the device address. -/
opaque freeByte : Nat → Nat → Byte

/-- Any other value the spec leaves open; arguments: the draw counter and a number that tells the values one
command draws apart. Used for DRBG output, keys, jitter and reset values marked random (R302, R433, R437). -/
opaque freeNat : Nat → Nat → Nat

/-- SHA-384 of a byte sequence, as a number: FIPS 180-4, which the manual does not restate (R4). -/
opaque sha384 : List Byte → Nat

/-- AES-256 in XTS or GCM, as one uninterpreted function of a key, a nonce or tweak, and the data (R4). -/
opaque aes256 : Nat → Nat → List Byte → List Byte

/-- The 128-bit tag of AES-256-GCM over associated data and ciphertext under a key and nonce (R4). -/
opaque gcmTag : Nat → Nat → List Byte → List Byte → Nat

/-- A hybrid signature (ECDSA P-384 then ML-DSA-65) by a key over a message (R4, R434, R449). -/
opaque signBytes : Nat → List Byte → List Byte

/-- The clip key that a wrapped-key record carries to the holder of an exchange key (R446, R447). -/
opaque unwrapKey : Nat → List Byte → Nat

/-- The public half of a key held by the device (R430). -/
opaque publicOf : Nat → List Byte

/-- A fused value set at manufacture and not stated by the spec: unit identity, repair columns, key
fuses (R310, R430, R433); argument: a field index. -/
opaque fused : Nat → Nat

/-- A 24-bit micro-word of the base image, and a 192-bit nano-word: private to Queleivo (R202, R204); argument: the address. -/
opaque microBase : Nat → Nat

/-- See `microBase`. -/
opaque nanoBase : Nat → Nat

/-- Whether a weight of the built-in SCALE filter that lies within the error of double precision of a rounding boundary falls on its upper side (R225);
arguments: input size, output size, phase, tap. -/
opaque sincUp : Nat → Nat → Nat → Nat → Bool

/-! The coding standards. -/

/-- λ from the block QP (R101, R143), of the full costs (0) or of the search costs (1), in 1/256. -/
opaque lambda : Nat → Nat → Int → Nat

/-- The measure D of a reconstruction against its source (R101). -/
opaque distortion : List Samples → List Samples → Nat

/-- The prediction of plane k of a CU, from the reconstruction around it and the planes of its reference lists (R101, R147). -/
opaque predict : Nat → Nat → CuRec → List Samples → List (List (List Samples)) → Samples

/-- The most probable intra modes of a block, from the CUs coded before it (R101). -/
opaque mostProbable : Nat → Block → List CuRec → List Nat

/-- Bits R(mvd) of a vector of a block, from the CUs coded before it (R143). -/
opaque mvdBits : Nat → Block → List CuRec → Mv → Nat

/-- The range of a vector component, in whole samples (R143). -/
opaque mvRange : Nat → Nat

/-- The merge candidates of a block in order, as vectors: merge indices, NEARESTMV, P_Skip or B_Skip (R95, R163). -/
opaque mergeList : Nat → Block → List CuRec → List (List Mv)

/-- Inherited and constructed affine merge candidates of a block, as control-point vectors (R148). -/
opaque affineMerge : Block → List CuRec → List (List (Int × Int))

/-- A gradient step of affine refinement at 1/16 sample (R148). -/
opaque affineStep : CuRec → List Samples → List (List (List Samples)) → List (Int × Int)

/-- A CU coded in full: from the entropy coder's state, the CU, the reconstruction around it, the reference lists and the source (R101,
R102, R104). -/
opaque codeCu : CodeSet → Nat → CuRec → List Samples → List (List (List Samples)) → List Samples → CodeOut

/-- The entropy coder's state where a standard initialises it: codec, picture type, QP (R104). -/
opaque entropyInit : Nat → Nat → Int → Nat

/-- The state at the start of a WPP row, from the states after the CTUs of the row above (R104, R126). -/
opaque wppInit : Nat → Nat → Int → List Nat → Nat

/-- The bytes that end a tile, slice or row (R104, R118). -/
opaque entropyEnd : Nat → Nat → List Byte

/-- In-loop filters over a rectangle of a picture, or over the edge between two rectangles: codec, whether deblocking runs, whether the other
filters run, the QP (R103, R108). -/
opaque filterTile : Nat → Bool → Bool → Block → List Samples → List Samples

/-- See `filterTile`. -/
opaque filterEdge : Nat → Bool → Bool → Block → Block → List Samples → List Samples

/-- Parameter sets of a sequence, or its sequence header OBU (R117). -/
opaque paramUnits : Nat → SeqSyntax → List (List Byte)

/-- A slice segment header's NAL unit up to its data, or a frame header's OBU (R117). -/
opaque headUnit : Nat → SeqSyntax → PicSyntax → List Byte

/-- An SEI or metadata unit (R112, R113, R157). -/
opaque seiUnit : Nat → SeiSyntax → List Byte

/-- An AV1 temporal delimiter (R117). -/
opaque temporalUnit : List Byte

/-- The hash of a plane by a decoded picture hash SEI's method, 1 MD5, 2 CRC, 3 checksum, at a depth (R112, R189). -/
opaque planeHash : Nat → Nat → Samples → List Byte

end Sys2Proof.Config
end

