-- ==== Sys2Proof/Machine/Bits.lean ====
section
/-! DEFINITION. Bit fields, sign extension and little-endian byte order (R5), sparse tables and sorted sets. -/

namespace Sys2Proof.Machine

/-- The number in bits [hi:lo] of n. -/
def bitsOf (n hi lo : Nat) : Nat := n / 2 ^ lo % 2 ^ (hi + 1 - lo)

/-- Bit i of n. -/
def bitOf (n i : Nat) : Bool := n.testBit i

/-- The value 1 or 0 of a flag. -/
def ofFlag (b : Bool) : Nat := if b then 1 else 0

/-- n with bits [hi:lo] replaced by v. -/
def setBits (n hi lo v : Nat) : Nat :=
  n - bitsOf n hi lo * 2 ^ lo + v % 2 ^ (hi + 1 - lo) * 2 ^ lo

/-- A signed number from an unsigned one of w bits. -/
def signedOf (w n : Nat) : Int :=
  if 2 ^ (w - 1) ≤ n % 2 ^ w then (n % 2 ^ w : Int) - 2 ^ w else (n % 2 ^ w : Int)

/-- The number of a little-endian byte list (R5). -/
def leNat : List Byte → Nat
  | [] => 0
  | b :: r => b.toNat + 256 * leNat r

/-- n bytes, little-endian, of a number (R5). -/
def leBytes : Nat → Nat → List Byte
  | 0, _ => []
  | n + 1, v => BitVec.ofNat 8 v :: leBytes n (v / 256)

/-- The field of size n at byte offset o of a record (R5, Notation). -/
def fieldAt (r : List Byte) (o n : Nat) : Nat := leNat ((r.drop o).take n)

/-- True when the n bytes at offset o are all 0: a reserved field (R6). -/
def zeroAt (r : List Byte) (o n : Nat) : Bool := ((r.drop o).take n).all (· == 0)

/-- A sparse table: keys rising, one entry a key. -/
abbrev Table (α : Type) := List (Nat × α)

/-- The entry of a key, or the default value. -/
def tget {α : Type} (dflt : α) (k : Nat) : Table α → α
  | [] => dflt
  | (a, v) :: r => if a = k then v else tget dflt k r

/-- The entry of a key, if there is one. -/
def tfind {α : Type} (k : Nat) : Table α → Option α
  | [] => none
  | (a, v) :: r => if a = k then some v else tfind k r

/-- Insert or replace an entry, keeping keys rising. -/
def tput {α : Type} (k : Nat) (v : α) : Table α → Table α
  | [] => [(k, v)]
  | (a, w) :: r => if k < a then (k, v) :: (a, w) :: r else if a = k then (k, v) :: r else (a, w) :: tput k v r

/-- Remove every entry of a key. -/
def tdel {α : Type} (k : Nat) : Table α → Table α
  | [] => []
  | (a, w) :: r => if a = k then tdel k r else (a, w) :: tdel k r

/-- Write an entry; writing the default value removes it, so equal tables are equal lists. -/
def tset {α : Type} [DecidableEq α] (dflt : α) (k : Nat) (v : α) (t : Table α) : Table α :=
  if v = dflt then tdel k t else tput k v t

/-- Change the entry of a key. -/
def tmod {α : Type} [DecidableEq α] (dflt : α) (k : Nat) (f : α → α) (t : Table α) : Table α :=
  tset dflt k (f (tget dflt k t)) t

/-- The canonical form of a table: keys strictly rising, no entry equal to the default. -/
def twf {α : Type} [DecidableEq α] (dflt : α) : Table α → Bool
  | [] => true
  | [(_, v)] => v ≠ dflt
  | (a, v) :: (b, w) :: r => decide (a < b) && decide (v ≠ dflt) && twf dflt ((b, w) :: r)

/-- Insert a number into a rising list. -/
def sadd (k : Nat) : List Nat → List Nat
  | [] => [k]
  | a :: r => if k < a then k :: a :: r else if a = k then a :: r else a :: sadd k r

/-- Remove a number from a list. -/
def sdel (k : Nat) (l : List Nat) : List Nat := l.filter (· ≠ k)

/-- The numbers lo, lo + 1, …, lo + n − 1. -/
def upto (lo : Nat) : Nat → List Nat
  | 0 => []
  | n + 1 => lo :: upto (lo + 1) n

/-- The first element of a list with a property, with those before and after it. -/
def splitFirst {α : Type} (p : α → Bool) : List α → Option (List α × α × List α)
  | [] => none
  | a :: r =>
    if p a then some ([], a, r)
    else match splitFirst p r with
      | none => none
      | some (b, x, c) => some (a :: b, x, c)

/-- The status of the first failing check of an ordered list of (passes, status) pairs (R77). -/
def firstFail : List (Bool × Nat) → Option Nat
  | [] => none
  | (ok, st) :: r => if ok then firstFail r else some st

/-- A count that stops at m. -/
def satAdd (m a b : Nat) : Nat := min m (a + b)

/-- Replace bits of n by bits of v where the mask is set. -/
def maskMerge (mask n v : Nat) : Nat := n - (n &&& mask) + (v &&& mask)

end Sys2Proof.Machine
end

