-- ==== Sys2Proof/Machine/State.lean ====
section
/-! DEFINITION. The state of the QD-4960 as plain data: every register, buffer, queue and mode the spec gives the device,
the fuses, and the queue of commands that wait. Tables are sparse with a default entry (Machine/Bits.lean); control
registers that only hold their value are in `regs`, keyed by their offset from 0x0F00_0000_0000. -/

namespace Sys2Proof.Machine

/-- Thread states of R55. -/
inductive TState
  | empty | loading | loaded | ready | waiting | stopped | draining
  deriving DecidableEq, Repr

/-- The types of work order, R73. -/
inductive WoKind
  | enc | encr | dec | vfy | ana | pix | comp | dma | seal | magw | nettx | ingest | keyop
  deriving DecidableEq, Repr

/-- A segment descriptor (R23): word 0 holds VALID, CLASS, rights and BASE, word 1 holds LIMIT. -/
structure SegDesc where
  lo : Word
  hi : Word
  deriving DecidableEq, Repr

/-- The wait record of a long instruction or of a stalled dispatch, fixed at first issue (R69, R44). -/
inductive WaitRec
  | pop (ring hd ha : Nat)
  | popReset (ha : Nat)
  | waitt (target : Word) (hd : Nat)
  | waitd (ch : Nat) (mask : Word32) (hd : Nat)
  | tkwait (ticket : Nat) (hd : Nat)
  | dispatch (kind : WoKind) (hd : Nat) (addr : Word) (word : Word)
  deriving DecidableEq, Repr

/-- What a load has installed and START installs afresh (R57, R58, R63). -/
structure Image where
  handle : Nat
  entry : Word
  segs : List (Nat × SegDesc)
  deriving DecidableEq, Repr

/-- A load in progress (R60): its image buffer. -/
structure LoadRec where
  handle : Nat
  deriving DecidableEq, Repr

/-- A stream context, R56. Registers h1 to h31 are a table with default 0; h0 is never stored (R21). `segHi` holds the staged SEGn_HI
values, `segFresh` the slots whose staged value is later than what last installed their descriptor (R26). -/
structure HoltCtx where
  st : TState
  h : Table Word
  pc : Word
  segs : Table SegDesc
  segHi : Table Word
  segFresh : List Nat
  prio : Nat
  prioMax : Nat
  ownerRing : Nat
  tkLimit : Nat
  instret : Nat
  func : Nat
  isSealed : Bool
  image : Option Image
  load : Option LoadRec
  loadStatus : Nat
  cmdErr : Bool
  wait : Option WaitRec
  deriving DecidableEq, Repr

/-- A context right after reset (R56, R26). -/
def HoltCtx.reset : HoltCtx :=
  { st := .empty, h := [], pc := 0, segs := [], segHi := [], segFresh := [], prio := 0, prioMax := 0, ownerRing := 0,
    tkLimit := 64, instret := 0, func := 0, isSealed := false, image := none, load := none, loadStatus := 0,
    cmdErr := false, wait := none }

/-- A thread record held by its core until the owner ring takes it (R50). -/
structure ThreadRec where
  ctx : Nat
  func : Nat
  ring : Nat
  status : Nat
  time : Nat
  operand : Word
  pc : Word
  cause : Nat
  detail : Nat
  deriving DecidableEq, Repr

/-- One of a core's 128 ticket slots: the last ticket issued in it (R41, R44). -/
structure Ticket where
  value : Nat
  ctx : Nat
  ended : Bool
  status : Nat
  deriving DecidableEq, Repr

/-- Where a work order stands. -/
inductive WoPhase
  | dispatched | queued | running | suspended | ending
  deriving DecidableEq, Repr

/-- Why running work is to stop at its abort boundary (R84, R85). -/
inductive AbortReq
  | cancel | deadline | function
  deriving DecidableEq, Repr

/-- A work order between its dispatch and its end (R72, R81). `low` is the lowest unit that its work has used so far (R80). -/
structure WorkOrder where
  ticket : Nat
  kind : WoKind
  ctx : Nat
  func : Nat
  raw : List Byte
  phase : WoPhase
  seq : Nat
  effPrio : Nat
  unit : Nat
  low : Nat
  surfIn : List Byte
  surfOut : List Byte
  extra : List (Nat × List Byte)
  holds : List Nat
  abort : Option AbortReq
  counted : Bool
  result : List Byte
  flags : Nat
  progress : Nat
  deriving DecidableEq, Repr

/-- A completion, interim or summary record that its unit has produced and that waits for ring space (R66). -/
structure RecWait where
  ticket : Nat
  ring : Nat
  func : Nat
  data : List Byte
  final : Bool
  deriving DecidableEq, Repr

/-- States of a buffer, R314. -/
inductive BufState
  | free | owned | held | ring
  deriving DecidableEq, Repr

/-- A Yard buffer context (R314); POOL is the pool whose index range holds the buffer. -/
structure Buf where
  st : BufState
  owner : Nat
  gen : Nat
  epoch : Nat
  holds : Nat
  wipe : Bool
  deriving DecidableEq, Repr

/-- A buffer never allocated since reset: generation and epoch advance to 1 at its first allocation (R313, R314). -/
def Buf.reset : Buf := { st := .free, owner := 0, gen := 0, epoch := 0, holds := 0, wipe := false }

/-- Yard host registers of one function (R320). -/
structure YardHost where
  size : Nat
  xferOwner : Nat
  op : Nat
  status : Nat
  deriving DecidableEq, Repr

/-- The Yard (R312–R322). -/
structure Yard where
  en : Bool
  err : Bool
  bufs : Table Buf
  low : List Nat
  hosts : Table YardHost
  winCount : Nat
  winWrite : Bool
  winHolt : Bool
  winWho : Nat
  winAddr : Nat
  deriving DecidableEq, Repr

/-- A ring entry: 32 bytes and its packet marks (R327). -/
structure Entry where
  data : List Byte
  sop : Bool
  eop : Bool
  deriving DecidableEq, Repr

/-- A ring (R323–R332). `head` and `tail` count the entries held in the head and tail registers (R326); the rest lie in
the store. The indices are kept twice (R330); `noticeP` and `noticeC` are the RING_RESET notices owed to
a Holt producer and consumer (R37), `resetP` and `resetC` the RESET bits of offset 0xA0 (R328), `token` the reset
token owed to a host consumer (R330). -/
structure Ring where
  producer : Nat
  consumer : Nat
  en : Bool
  irqEn : Bool
  sizeLog2 : Nat
  cut : Nat
  vec : Nat
  store : Nat
  err : Bool
  drop : Nat
  entries : List Entry
  head : Nat
  tail : Nat
  rd : Nat
  wr : Nat
  rd2 : Nat
  wr2 : Nat
  noticeP : Bool
  noticeC : Bool
  resetP : Bool
  resetC : Bool
  token : Bool
  lastSop : Bool
  lastEop : Bool
  hostWait : List Nat
  deriving DecidableEq, Repr

/-- A ring right after reset. -/
def Ring.reset : Ring :=
  { producer := 0, consumer := 0, en := false, irqEn := false, sizeLog2 := 4, cut := 0, vec := 0, store := 0,
    err := false, drop := 0, entries := [], head := 0, tail := 0, rd := 0, wr := 0, rd2 := 0, wr2 := 0, noticeP := false,
    noticeC := false, resetP := false, resetC := false, token := false, lastSop := false, lastEop := false,
    hostWait := [] }

/-- An entry of a DRAM controller's error log (R300). -/
structure DmcEntry where
  time : Nat
  addr : Nat
  type : Nat
  channel : Nat
  requester : Nat
  flags : Nat
  syndrome : Nat
  location : Nat
  count : Nat
  deriving DecidableEq, Repr

/-- One DRAM controller (R298–R306): counters and log. -/
structure Dmc where
  ready : Bool
  failA : Bool
  failB : Bool
  corr : Nat
  uncorr : Nat
  forced : Nat
  log : List DmcEntry
  head : Nat
  ovf : Bool
  deriving DecidableEq, Repr

/-- A DRAM controller right after reset. -/
def Dmc.reset : Dmc :=
  { ready := false, failA := false, failB := false, corr := 0, uncorr := 0, forced := 0, log := [], head := 0,
    ovf := false }

/-- An access queued at a DRAM channel (R293, R294): `at_` is its arrival, from which R295 takes the port's urgency. -/
structure DramReq where
  seq : Nat
  requester : Nat
  addr : Nat
  write : Bool
  data : List Byte
  size : Nat
  at_ : Nat
  deriving DecidableEq, Repr

/-- An access held at an Ashlar bank until an owner change ends (R308). -/
structure AshReq where
  requester : Nat
  ch : Nat
  addr : Nat
  op : AshOp
  deriving DecidableEq, Repr

/-- A DRAM channel's queues and service state (R294, R297, R306); `wait` holds requests that no queue has room for. -/
structure Chan where
  wait : List DramReq
  reads : List DramReq
  writes : List DramReq
  drain : Bool
  open_ : Table Nat
  hits : Table Nat
  postponed : Nat
  owed : Table Nat
  ahead : Nat
  powerDown : Bool
  lastUse : Nat
  checkDue : Option Nat
  checkedAt : Nat
  fails : Nat
  retryAt : Option Nat
  mr4 : Nat
  deriving DecidableEq, Repr

/-- A DRAM channel right after reset. -/
def Chan.reset : Chan :=
  { wait := [], reads := [], writes := [], drain := false, open_ := [], hits := [], postponed := 0, owed := [], ahead := 0,
    powerDown := false, lastUse := 0, checkDue := none, checkedAt := 0, fails := 0, retryAt := none, mr4 := 0 }

/-- The owner register of an Ashlar bank and an owner change in progress (R308). -/
structure Bank where
  owner : Nat
  pending : Bool
  wiping : Bool
  wipeNext : Bool
  err : Bool
  held : List AshReq
  deriving DecidableEq, Repr

/-- Memory contents and the marks ECC and MAC keep beside them. `cells` holds the bytes written; `badBlocks` the
64-byte DRAM blocks that read as uncorrectable (R298, R299), `syndromes` the syndrome found when a block was marked (R300), `badUnits` the 256-byte sealed units whose MAC does not
match (R305), `badWords` the uncorrectable 64-bit Ashlar words (R307), `zeroised` the key slots that a tamper event has
zeroised (R451), `saved` the DRAM ranges that the save of Sleep has filled with bytes no rule lays out (R482). -/
structure Memory where
  cells : List Host.Cell
  badBlocks : List Nat
  syndromes : Table Nat
  zeroised : List Nat
  saved : List (Nat × Nat)
  badUnits : List Nat
  badWords : List Nat
  dmcs : Table Dmc
  chans : Table Chan
  banks : Table Bank
  keys : Table Nat
  regions : Table (Nat × Nat)
  served : List (Nat × Nat × List Byte)
  reqSeq : Nat
  absWiping : Bool
  absWiped : Bool
  violBank : Nat
  violReq : Nat
  viol : Nat
  scrubAt : Table Nat
  deriving DecidableEq, Repr

/-- States of a DMA channel (R341). -/
inductive DmaState
  | idle | run | parked
  deriving DecidableEq, Repr

/-- A DMA channel (R334–R345); `prev` is the descriptor completed last. -/
structure DmaChan where
  st : DmaState
  pend : Bool
  ticket : Nat
  base : Nat
  limit : Nat
  ashlar : Bool
  desc : Nat
  fetched : Bool
  prev : Nat
  done : Nat
  deriving DecidableEq, Repr

/-- A DMA channel right after reset. -/
def DmaChan.reset : DmaChan :=
  { st := .idle, pend := false, ticket := 0xFFFFFFFF, base := 0, limit := 0, ashlar := false, desc := 0,
    fetched := false, prev := 0, done := 0 }

/-- The interrupt controller (R413–R421). `active` maps a source to the number of the register it was claimed
through: a target 0 to 9, or 16 plus a function for the host pages. `deliv` holds the sources found deliverable by the last
command, so that an entry into the deliverable state raises one host event (R416). `latch` holds what a command
adds to pending. -/
structure Intc where
  latch : List Nat
  en : List Nat
  active : Table Nat
  deliv : List Nat
  cfg : Table Nat
  noCause : Nat
  emptyClaims : Nat
  deriving DecidableEq, Repr

/-- A mailbox channel (R422). -/
structure Mbox where
  word : Word32
  full : Bool
  drop : Bool
  db : Word32
  dbEn : Word32
  deriving DecidableEq, Repr

/-- An empty mailbox channel. -/
def Mbox.reset : Mbox := { word := 0, full := false, drop := false, db := 0, dbEn := 0 }

/-- The mailboxes: channels, cross bits and, for a pair whose channels are both full, since when (R426). -/
structure Mboxes where
  chans : Table Mbox
  cross : Nat
  since : Table Nat
  deriving DecidableEq, Repr

/-- A Plumb record (R462). -/
structure PlumbRec where
  firstTime : Nat
  lastTime : Nat
  source : Nat
  cls : Nat
  merged : Bool
  raised : Bool
  count : Nat
  detail : Nat
  int : Bool
  nmi : Bool
  fault : Bool
  deriving DecidableEq, Repr

/-- Escalation by counting of one source (R464). -/
structure Esc where
  count : Nat
  start : Nat
  raise : Nat
  deriving DecidableEq, Repr

/-- Plumb (R457–R465). `ovfInt` holds the classes whose INT an unrecorded event holds with OVF (R460). `chip` is
the source of a chip reset that waits for the emergency close (R463). -/
structure Plumb where
  recs : Table PlumbRec
  cfg : Table Nat
  esc : Table Esc
  ovf : Bool
  ovfInt : List Nat
  ovfNmi : Bool
  ovfFault : Bool
  chip : Option Nat
  causeChip : Bool
  causeSource : Nat
  wdEn : Bool
  wdBad : Nat
  wdMs : Nat
  wdAt : Nat
  wdSecond : Bool
  wdStopped : Bool
  deriving DecidableEq, Repr

/-- One MSI-X vector (R403, R404): table entry, count of events not yet signalled, moderation timer and PBA bit. -/
structure Vec where
  addr : Nat
  data : Nat
  masked : Bool
  count : Nat
  timer : Option Nat
  due : Bool
  deriving DecidableEq, Repr

/-- A vector right after reset: masked, as MSI-X tables reset. -/
def Vec.reset : Vec := { addr := 0, data := 0, masked := true, count := 0, timer := none, due := false }

/-- Power states of a function (R405). -/
inductive DState
  | d0 | d3hot | d3cold
  deriving DecidableEq, Repr

/-- One PCIe function (R398–R407). -/
structure Func where
  enabled : Bool
  msixEn : Bool
  d : DState
  pmeSent : Bool
  wake : Bool
  flr : Bool
  flrPf : Bool
  cancelled : Nat
  discarded : Nat
  threads : Nat
  buffers : Nat
  latchTime : Nat
  deriving DecidableEq, Repr

/-- A function right after reset. -/
def Func.reset : Func :=
  { enabled := false, msixEn := false, d := .d0, pmeSent := false, wake := false, flr := false, flrPf := false,
    cancelled := 0, discarded := 0, threads := 0, buffers := 0, latchTime := 0 }

/-- States of the host link (R405, R476). -/
inductive HLink
  | down | l0 | l1 | exiting
  deriving DecidableEq, Repr

/-- One IDE stream (R402). -/
structure Ide where
  open_ : Bool
  secure : Bool
  key : Nat
  deriving DecidableEq, Repr

/-- The state of the SPDM responder (R402). -/
structure Spdm where
  version : Bool
  caps : Bool
  algs : Bool
  handshake : Bool
  session : Bool
  key : Nat
  transcript : List Byte
  deriving DecidableEq, Repr

/-- The host port (R398–R407). -/
structure HostPort where
  link : HLink
  perst : Bool
  numVfs : Nat
  vfEnable : Bool
  pmeOff : Bool
  funcs : Table Func
  vecs : Table Vec
  ide : Table Ide
  spdm : Spdm
  deriving DecidableEq, Repr
/-- A frame stored in the cell buffer (R349): its bytes without FCS, input port, class and the destinations asked for. `leg2`
is the second ST 2022-7 port with the bytes sent there, its own header in front of the payload (R357); `ticket` is the
NETTX that sent it. -/
structure Frame where
  data : List Byte
  leg2 : Option (Nat × List Byte)
  port : Nat
  cls : Nat
  ports : Nat
  ticket : Option Nat
  stamp : Bool
  oneStep : Bool
  tag : Nat
  rxTime : Nat
  deriving DecidableEq, Repr

/-- A frame's place in a queue: which frame, when it was admitted, its CE mark, and whether an FLR has reset the ring it is for (R350,
R352, R360). -/
structure QEnt where
  frame : Nat
  time : Nat
  ce : Bool
  dead : Bool
  deriving DecidableEq, Repr

/-- States of a switch output port (R359). -/
inductive PortState
  | up | hold | down
  deriving DecidableEq, Repr

/-- A switch port (R353, R355, R359 and its drop counters). `repeatAt` holds when each paused class's PFC frame is next due,
`paused` until when the peer has paused each class. -/
structure SwPort where
  st : PortState
  holdAt : Nat
  xoff : Nat
  repeatAt : Table Nat
  paused : Table Nat
  admits : Nat
  aged : Nat
  down : Nat
  rx : Nat
  deriving DecidableEq, Repr

/-- A switch port right after reset: DOWN (R359, SW_PORTp_STAT). -/
def SwPort.reset : SwPort :=
  { st := .down, holdAt := 0, xoff := 0, repeatAt := [], paused := [], admits := 0, aged := 0, down := 0, rx := 0 }

/-- The stream switch (R346–R361): stored frames by number, and queues keyed by port × 8 + class. -/
structure Switch where
  frames : Table Frame
  nextId : Nat
  queues : Table (List QEnt)
  ports : Table SwPort
  deriving DecidableEq, Repr

/-- A port's gate lists (R381–R383): the operational one with its cycle and start, and the one that an accepted CHANGE has taken
from the administrative entries. -/
structure Gate where
  oper : List (Nat × Nat)
  next : List (Nat × Nat)
  nextCycle : Nat
  cycle : Nat
  start : Nat
  entry : Nat
  startReg : Nat
  pending : Bool
  late : Bool
  err : Bool
  deriving DecidableEq, Repr

/-- A gate list right after reset: one operational entry, every gate open (GATE_STATUS.OPER_LEN 1, R381). -/
def Gate.reset : Gate :=
  { oper := [(1000000, 0xFF)], next := [], nextCycle := 1000000, cycle := 1000000, start := 0, entry := 0, startReg := 0, pending := false,
    late := false, err := false }

/-- An ST 2110-20 picture being received on a VIDEO flow (R369); `rows` counts the samples received of each row. -/
structure VideoRx where
  handle : Nat
  rtp : Nat
  rows : Table Nat
  legs : Nat
  time : Nat
  deriving DecidableEq, Repr

/-- The dynamic part of a receive flow (R367–R370). -/
structure Flow where
  dup : Nat
  drop : Nat
  pictures : Nat
  lastTs : Option Nat
  video : Option VideoRx
  deriving DecidableEq, Repr

/-- A flow right after reset. -/
def Flow.reset : Flow := { dup := 0, drop := 0, pictures := 0, lastTs := none, video := none }

/-- The merge state of an ST 2022-7 group or of one ungrouped RTP flow (R370): highest extended sequence number and those
seen among the last 4,096. -/
structure Merge where
  started : Bool
  high : Nat
  seen : List Nat
  deriving DecidableEq, Repr

/-- A running NETTX (R371–R375): destinations that took or missed frames since its previous record, whether any ever
missed, frames taken, next RTP sequence number, the partial packet read, and frames that wait under R354. -/
structure NetTx where
  ring : Nat
  part : List (List Byte)
  pend : List Frame
  delivered : Nat
  missed : Nat
  everMissed : Bool
  taken : Nat
  rtpSeq : Nat
  tmpl : List Byte
  deriving DecidableEq, Repr

/-- An Ethernet port's status (ETH_PORTp_STAT). -/
structure EthPort where
  link : Bool
  mode : Nat
  cfgErr : Bool
  fecUncorr : Nat
  downs : Nat
  deriving DecidableEq, Repr

/-- An Ethernet port right after reset. -/
def EthPort.reset : EthPort := { link := false, mode := 0, cfgErr := false, fecUncorr := 0, downs := 0 }

/-- Ethernet ports, egress scheduling and receive flows (R362–R383). Tokens and high-water marks are keyed by
port × 8 + class. -/
structure Eth where
  ports : Table EthPort
  tokens : Table Int
  hwm : Table (Nat × Nat)
  gates : Table Gate
  flows : Table Flow
  merges : Table Merge
  nettx : Table NetTx
  tickAt : Nat
  sampleAt : Nat
  deriving DecidableEq, Repr

/-- States of the Bond servo (R390). -/
inductive BondState
  | off | acquire | locked | holdover
  deriving DecidableEq, Repr

/-- A Bond port's status (BOND_PORTn_STAT) and its sequence count (R385). -/
structure BondPort where
  link : Bool
  downs : Nat
  bad : Nat
  fwdDrop : Nat
  oversize : Nat
  seq : Nat
  deriving DecidableEq, Repr

/-- A Bond port right after reset. -/
def BondPort.reset : BondPort := { link := false, downs := 0, bad := 0, fwdDrop := 0, oversize := 0, seq := 0 }

/-- A message waiting for its answer on a proxy channel (R394): the frame's sequence number and port, whether it is a word, and
when it is next sent again. -/
structure ProxyMsg where
  seq : Nat
  port : Nat
  word : Bool
  dest : Nat
  body : List Byte
  at_ : Nat
  tries : Nat
  deriving DecidableEq, Repr

/-- A proxy channel (R394): messages without an answer yet, ERR and REASON. -/
structure Proxy where
  msgs : List ProxyMsg
  err : Bool
  reason : Nat
  deriving DecidableEq, Repr

/-- A proxy channel right after reset. -/
def Proxy.reset : Proxy := { msgs := [], err := false, reason := 0 }

/-- A MSG frame already answered (R395): where it came from, its number, the answer and when. -/
structure Answered where
  port : Nat
  src : Nat
  seq : Nat
  kind : Nat
  value : Nat
  at_ : Nat
  deriving DecidableEq, Repr

/-- A schedule last applied for a SYNC_OUT pin (R393). -/
structure SchedRx where
  valid : Bool
  late : Bool
  sseq : Nat
  deriving DecidableEq, Repr

/-- A pin for which nothing has been applied. -/
def SchedRx.reset : SchedRx := { valid := false, late := false, sseq := 0 }

/-- Repeat copies of a SCHED frame still to be sent (R392). -/
structure SchedRep where
  body : List Byte
  left : Nat
  at_ : Nat
  bcast : Bool
  dest : Nat
  deriving DecidableEq, Repr

/-- The trigger sequence of a SYNC_OUT pin (R269, R393): origin and period in force, the device time of the next pulse, until
when the pin is asserted, and the sequence that takes over: its first instant, origin and period. -/
structure Trig where
  base : Nat
  period : Nat
  width : Nat
  ticket : Nat
  due : Nat
  low : Option Nat
  next : Option (Nat × Nat × Nat)
  deriving DecidableEq, Repr

/-- Bond (R384–R397). `exch` holds the last 8 completed exchanges as (θ, d), newest first; `asked` the T1
of requests without a response; `reps` the copies of SCHED frames still due; `rx` what was applied for each pin. -/
structure Bond where
  ports : Table BondPort
  st : BondState
  extErr : Bool
  exch : List (Int × Nat)
  good : Nat
  offset : Int
  delay : Nat
  lastValid : Nat
  reqAt : Nat
  asked : List Nat
  rate : Int
  proxies : Table Proxy
  answered : List Answered
  sseqs : Table Nat
  reps : List SchedRep
  rx : Table SchedRx
  bondFilled : List Nat
  deriving DecidableEq, Repr
/-- A clip-key slot (R429, R437, R438). -/
structure ClipSlot where
  key : Nat
  keyId : Nat
  clipId : List Byte
  func : Nat
  imported : Bool
  opened : Bool
  destroy : Bool
  deriving DecidableEq, Repr

/-- A recipient entry (R445). -/
structure Recip where
  id : List Byte
  notAfter : Nat
  ec : List Byte
  kem : List Byte
  deriving DecidableEq, Repr

/-- A life-cycle request in progress (R454, R455). -/
structure LcReq where
  target : Nat
  maker : Nat
  wiped : Bool
  blowing : Bool
  deriving DecidableEq, Repr

/-- Keystone (R427–R455), outside its fuses. `record` says that the device key record matched at boot (R430), `boot` holds bytes 0 to 63 of
the boot configuration block (R478). -/
structure Keystone where
  slots : Table ClipSlot
  recips : Table Recip
  record : Bool
  devFpr : List Byte
  fwMeas : Nat
  chain : Nat
  nonce : Nat
  req : Option LcReq
  lcStatus : Nat
  run : Table Nat
  sealFail : Nat
  tamper : Nat
  latched : Bool
  lock : Bool
  tamperEn : Nat
  bootOk : Bool
  copy : Nat
  stopped : Bool
  signing : Option (Nat × Nat)
  boot : List Byte
  deriving DecidableEq, Repr

/-- The fuses (R428, R310): no reset changes them (R473). -/
structure Fuses where
  lcA : Nat
  lcB : Nat
  makerSet : Bool
  makerHash : Nat
  arb0 : Nat
  arb1 : Nat
  arb2 : Nat
  arb3 : Nat
  dusSet : Bool
  dusKill : Bool
  deriving DecidableEq, Repr

/-- Power states, with the transitions between them (R480–R483). -/
inductive Pwr
  | active | enterStandby | standby | saving | sleep | waking
  deriving DecidableEq, Repr

/-- How the xSPI interface reads (R477, R506): single mode at a clock in MHz, or octal DDR with its dummy cycles. -/
inductive Xspi
  | single (mhz : Nat)
  | octal (mhz dummy : Nat)
  deriving DecidableEq, Repr

/-- What warm and cold resets and boot report (R473–R483), and the power state. `header` is the boot header as read, `xspi` the read mode,
`xspiLow` the instant until which XSPI_RESET_N is held low (R506). `aonDown` says VDD_AON is below its
threshold, `glitch` that its fall was latched with RESET_N high (R502). -/
structure Crp where
  rootLock : Bool
  xtalOk : Bool
  cause : Nat
  stage : Nat
  zeroDone : Bool
  fail : Nat
  stageAt : Nat
  upAt : Nat
  pwr : Pwr
  coarse : Bool
  refuse : Nat
  req : Nat
  saveOk : Bool
  sleepAt : Nat
  aonDown : Bool
  glitch : Bool
  latchF4 : List (Nat × PlumbRec)
  resetHeld : Bool
  pending : Bool
  header : List Byte
  xspi : Xspi
  xspiLow : Option Nat
  deriving DecidableEq, Repr

/-- A sample waiting to be pushed (R488, R489): counter, flags, time, WHERE0 and WHERE1. -/
structure PerfSample where
  counter : Nat
  flags : Nat
  time : Nat
  where0 : Nat
  where1 : Nat
  deriving DecidableEq, Repr

/-- The performance monitor (R484–R491). `dumpAt` is the device time of the next dump, `winAt` that of the end of the present
bandwidth window. -/
structure Perf where
  cnt : Table Nat
  samples : List PerfSample
  dumps : Nat
  dumpLost : Nat
  sampleLost : Nat
  dumpAt : Nat
  rd : Table Nat
  wr : Table Nat
  lastRd : Table Nat
  lastWr : Table Nat
  short : Bool
  winAt : Nat
  deriving DecidableEq, Repr

/-- The test access port (R509). -/
structure Tap where
  bypass : Bool
  ir : Nat
  deriving DecidableEq, Repr

/-- What leaves the device. -/
inductive Out
  | hostData (func : Nat) (bytes : List Byte) (poison : Bool)
  | msix (func vec addr data : Nat)
  | pme (func : Nat)
  | linkExit
  | pmeAck
  | frame (port : Nat) (bytes : List Byte)
  | pfc (port cls quanta : Nat)
  | bond (port : Nat) (bytes : List Byte)
  | qp (word : Nat)
  | pin (name : String) (level : Bool)
  | spdm (bytes : List Byte)
  | doe (bytes : List Byte)
  | ideKm (bytes : List Byte)
  | nvmeWrite (ctrl nsid lba : Nat) (data : List Byte) (fua : Bool)
  | nvmeFlush (ctrl nsid : Nat)
  | sdiFrame (out payloadId : Nat) (timecode : List Nat)
  | sdiLine (out line : Nat) (samples : List Nat)
  | hostWrite (func : Nat) (addr : Nat) (bytes : List Byte)
  | hostRead (func : Nat) (addr : Nat) (size : Nat)
  | tap (word : Nat)
  deriving DecidableEq, Repr
/-- A CSI-2 port's status (CSI_PORTn_STAT). -/
structure CsiPort where
  lock : Bool
  cfgErr : Bool
  ecc : Nat
  crc : Nat
  deriving DecidableEq, Repr

/-- A port right after reset. -/
def CsiPort.reset : CsiPort := { lock := false, cfgErr := false, ecc := 0, crc := 0 }

/-- A line-metadata check carried by a tag 0x02 item (R268): line number and the CRC-32C named for it. -/
structure LineCrc where
  line : Nat
  crc : Nat
  deriving DecidableEq, Repr

/-- The frame an INGEST is receiving (R260–R268). `rows` holds the rows written, `rowCrc` the CRC-32C of each
written row's payload as sent. -/
structure InFrame where
  number : Nat
  handle : Option Nat
  startAt : Nat
  firstFs : Nat
  stamp : Option Nat
  sensorFn : Nat
  joined : Nat
  ended : Nat
  rows : List Nat
  rowCrc : Table Nat
  bad : Nat
  checks : List LineCrc
  metaLen : Nat
  metaLost : Nat
  progress : Nat
  deriving DecidableEq, Repr

/-- A running INGEST (R258–R270): its gang, counters, frame in progress and the latest arrival record (R409). -/
structure IngestRun where
  ticket : Nat
  mask : Nat
  gang : Nat
  vc : Nat
  started : Bool
  nextNum : Nat
  frames : Nat
  dropped : Nat
  frame : Option InFrame
  progPhys : Option Nat
  deriving DecidableEq, Repr

/-- The QP's words 0x010 to 0x01F for one gang (R409). -/
structure QpArrival where
  frame : Nat
  stamp : Nat
  deriving DecidableEq, Repr

/-- Ingest (R254–R270). -/
structure Ingest where
  ports : Table CsiPort
  runs : List IngestRun
  trigs : Table Trig
  dropped : Nat
  overrun : Nat
  arrivals : Table QpArrival
  deriving DecidableEq, Repr

/-- The state of a record of a clip (R284, R441): a seal whose signature is awaited, NVMe writes running, written, void. -/
inductive RecState
  | reserved | flight | written | void
  deriving DecidableEq, Repr

/-- A record of an open clip, in SEQ order (R279–R284). `final` is its last block without TAG and LINK, `sent` the LINK that was
written with it. -/
structure ClipRec where
  final : List Byte
  sent : Option Nat
  seq : Nat
  cba : Nat
  blocks : Nat
  kind : Nat
  ticket : Option Nat
  header : List Byte
  tag : Nat
  st : RecState
  status : Nat
  nvme : Nat
  deriving DecidableEq, Repr

/-- A member of a clip (R277). -/
structure Member where
  port : Nat
  ctrl : Nat
  nsid : Nat
  base : Nat
  len : Nat
  deriving DecidableEq, Repr

/-- An open clip (R277–R286, R440–R443). `recs` holds the records after the last seal; `finalDone` says that the final seal of a
CLOSE has been reserved, `flushing` that its trailer and flushes are on their way. -/
structure Clip where
  func : Nat
  ctx : Nat
  members : List Member
  unit : Nat
  cap : Nat
  clipId : List Byte
  keySlot : Nat
  keyId : Nat
  key : Nat
  openTime : Nat
  link : Nat
  linked : Nat
  nextSeq : Nat
  nextCba : Nat
  recs : List ClipRec
  lastSeal : Option Nat
  interval : Nat
  nextSeal : Nat
  sealFailed : Bool
  overflowNext : Nat
  closing : Option Nat
  finalDone : Bool
  flushing : Bool
  voids : Nat
  completes : Nat
  deriving DecidableEq, Repr

/-- A running emergency close (R285, R286). -/
structure EmergRun where
  reason : Nat
  clips : List Nat
  startAt : Nat
  deriving DecidableEq, Repr

/-- An NVMe command of the magazine engine (R272): a Write of blocks from an LBA on, or a Flush, for the clip and record `owner`. -/
structure NvmeCmd where
  owner : Nat × Option Nat
  ctrl : Nat
  nsid : Nat
  flush : Bool
  lba : Nat
  data : List Byte
  fua : Bool
  deriving DecidableEq, Repr

/-- The I/O queue pair of a controller (R272, R273): the tail of its submission queue, the completion entries written so far, the
commands in the queue by their identifiers, and those that wait for a place in it. -/
structure NvmeQueue where
  tail : Nat
  done : Nat
  active : List (Nat × NvmeCmd)
  wait : List NvmeCmd
  deriving DecidableEq, Repr

/-- A queue pair right after its controller was initialised. -/
def NvmeQueue.reset : NvmeQueue := { tail := 0, done := 0, active := [], wait := [] }

/-- A root port's status (MAG_RPn_STAT): the controllers found on links A and B as masks of their numbers, those ready for I/O, the
size in blocks of each usable namespace, keyed by controller × 2^32 + NSID, and each controller's MDTS in blocks. -/
structure RootPort where
  upA : Bool
  upB : Bool
  genA : Nat
  genB : Nat
  onA : Nat
  onB : Nat
  ready : Nat
  nsBlocks : Table Nat
  mdts : Table Nat
  deriving DecidableEq, Repr

/-- A root port right after reset: no link. -/
def RootPort.reset : RootPort :=
  { upA := false, upB := false, genA := 0, genB := 0, onA := 0, onB := 0, ready := 0, nsBlocks := [], mdts := [] }

/-- The magazine engine (R271–R286). -/
structure Magazine where
  ports : Table RootPort
  queues : Table NvmeQueue
  clips : Table Clip
  emerg : List EmergRun
  done : Bool
  reason : Nat
  trailers : Nat
  deriving DecidableEq, Repr

/-- A layer of a frame program, as read at acceptance (R241), with the facts its pipe keeps and the context that issued its COMP. -/
structure Layer where
  index : Nat
  ctx : Nat
  surf : List Byte
  raw : List Byte
  waitPhys : Option Nat
  bufIdx : Nat
  deriving DecidableEq, Repr

/-- A frame program for one output (R241, R246). -/
structure FrameProg where
  ticket : Nat
  ctx : Nat
  func : Nat
  head : List Byte
  layers : List Layer
  wbSurf : List Byte
  wbBuf : Option Nat
  wbProg : Option Nat
  deriving DecidableEq, Repr

/-- A Mortar output (R239, R246–R251). `shown` is what each layer index shows, `prev` the program that resumes after an
abort, with its waiting layers, which `resume` asks for; `waiting` the layers of the program in force not yet ready; `held` the buffers the output holds
(R249). `line` is the next line to compose, `lines` the composed lines of the last started group of four, `wbCount` the count
last put in the writeback progress word. -/
structure MortarOut where
  queue : List FrameProg
  prog : Option FrameProg
  prev : List (FrameProg × List Nat)
  resume : Bool
  shown : Table Layer
  waiting : List Nat
  held : List Nat
  blank : Bool
  repeats : Nat
  underrun : Nat
  frames : Nat
  wbStop : Bool
  wbCount : Nat
  line : Nat
  lines : List (List (List Nat))
  deriving DecidableEq, Repr

/-- An output right after reset: no program, black (R239). -/
def MortarOut.reset : MortarOut :=
  { queue := [], prog := none, prev := [], resume := false, shown := [], waiting := [], held := [], blank := false,
    repeats := 0, underrun := 0, frames := 0, wbStop := false, wbCount := 0, line := 0, lines := [] }

/-- What a COMP has done so far (R246, R252). -/
structure CompRun where
  ticket : Nat
  start : Nat
  frame : Nat
  lowest : Nat
  repeatMask : Nat
  done : Nat
  mask : Nat
  deriving DecidableEq, Repr

/-- Mortar (R239–R253). -/
structure Mortar where
  outs : Table MortarOut
  comps : List CompRun
  dressErr : Nat
  wbLate : Nat
  deriving DecidableEq, Repr

/-- An SDI output, or an IP sender as outputs 4 and 5: the configuration in force since the last frame boundary (R287,
R376), CFG_ERR, the device time of the last Mortar boundary (R289), when the next frame begins and its error against its aligned
instant, the frequency trim and the realignments (R470, R471); and for a sender its RTP sequence number, the timestamp of its
frame and packets that wait (R376, R354). -/
structure SdiOut where
  cfg : Nat
  cfgErr : Bool
  bound : Nat
  due : Nat
  err : Int
  trim : Int
  realign : Nat
  seq : Nat
  stamp : Nat
  pend : List Frame
  deriving DecidableEq, Repr

/-- A disabled output. -/
def SdiOut.reset : SdiOut :=
  { cfg := 0, cfgErr := false, bound := 0, due := 0, err := 0, trim := 0, realign := 0, seq := 0, stamp := 0, pend := [] }

/-- An engine (R176, R177, R214): the work order it runs, those suspended on it (latest first), and its HOLD bit. -/
structure Engine where
  cur : Option Nat
  susp : List Nat
  hold : Bool
  deriving DecidableEq, Repr

/-- An idle engine. -/
def Engine.reset : Engine := { cur := none, susp := [], hold := false }

/-- A row-level rate budget (R160–R165), of a tile or of a whole ENCR: bits planned for each CTU row, rows finished, bits
spent and planned so far, Q_base, the cap C_t or H_t, and whether it is exhausted or has turned to minimal form. -/
structure Budget where
  plan : List Nat
  row : Nat
  spent : Nat
  planned : Nat
  q : Int
  cap : Option Int
  spentUp : Bool
  minimal : Bool
  deriving DecidableEq, Repr

/-- A budget without a plan or a cap. -/
def Budget.reset : Budget :=
  { plan := [], row := 0, spent := 0, planned := 0, q := 0, cap := none, spentUp := false, minimal := false }

/-- What the CUs of the CTU in progress have given so far (R141, R169). `pos` and `next` say how much of it is covered. -/
structure CtuAcc where
  bits : Nat
  err : Nat
  cus : Nat
  recoded : Nat
  qp : Int
  intra : Bool
  skip : Bool
  sad : Option Nat
  cost : Nat
  mvx : Int
  mvy : Int
  ref : Nat
  deriving DecidableEq, Repr

/-- Nothing of a CTU coded yet. -/
def CtuAcc.reset : CtuAcc :=
  { bits := 0, err := 0, cus := 0, recoded := 0, qp := 0, intra := false, skip := false, sad := none, cost := 0,
    mvx := 0, mvy := 0, ref := 0xFF }

/-- A CU as an engine has decided it (R101, R167–R169): how it is coded, bits, largest error, whether it was recoded, whether it is
skipped, the SAD of its inter prediction, the SATD of its best rough intra mode, its QP, the entropy coder's state after it, its bytes, its
reconstruction. -/
structure CuOut where
  cu : CuRec
  bits : Nat
  err : Nat
  recoded : Bool
  skip : Bool
  sad : Option Nat
  cost : Nat
  qp : Int
  entropy : Nat
  bytes : List Byte
  recon : List (List (List Nat))
  deriving DecidableEq, Repr

/-- A tile, or a CTU row of an ENCR: whether it may be coded, CTUs committed, the CTU in progress with the CUs decided and not yet committed
and the bytes of those that are; the entropy coder's state, that at the start of the CTU, and those after its first two CTUs (R104, R126, R163);
its bytes staged, the zeros they end with, and those that wait for their place in a ring's stream. -/
structure TileRun where
  started : Bool
  ctu : Nat
  acc : CtuAcc
  plan : List CuOut
  held : List Byte
  entropy : Nat
  atCtu : Nat
  sync : List Nat
  bytes : Nat
  zeros : Nat
  late : List Byte
  deriving DecidableEq, Repr

/-- A tile not yet begun. -/
def TileRun.reset : TileRun :=
  { started := false, ctu := 0, acc := CtuAcc.reset, plan := [], held := [], entropy := 0, atCtu := 0, sync := [], bytes := 0, zeros := 0,
    late := [] }

/-- A reference picture of an encoded stream (R98): its slot, its count in coding order, its display position, FRAME, whether it is a key
picture and whether an anchor, and how its CUs were coded. -/
structure RefPic where
  slot : Nat
  pic : Nat
  disp : Nat
  frame : Nat
  isKey : Bool
  anchor : Bool
  cus : List CuRec
  deriving DecidableEq, Repr

/-- A picture being coded or verified (R96, R109, R155–R169). `cursor` is the tile whose bytes go to the ring now, `part` the
bytes of the unit being pushed and `open_` says that its SOP entry has been made; `queue` holds ring entries without room. `lists` are
the reference lists, `cus` and `recon` the CUs committed and the reconstruction so far, `head` what the picture's header signals, `opened`
says that the prefix has been pushed. `bad` counts tiles whose hashes did not match. -/
structure EncRun where
  ticket : Nat
  key : Nat
  type : Nat
  pic : Nat
  disp : Nat
  lists : List (List RefPic)
  cus : List CuRec
  recon : List (List (List Nat))
  head : PicSyntax
  opened : Bool
  target : Option Nat
  limit : Option Int
  start : Nat
  fieldUsed : Bool
  fieldMiss : Bool
  roi : List Byte
  budgets : Table Budget
  tiles : Table TileRun
  maxErr : Nat
  recoded : Nat
  fault : Bool
  qpSum : Int
  qpCount : Nat
  classes : List Nat
  header : Nat
  suffix : Nat
  cursor : Nat
  part : List Byte
  open_ : Bool
  units : Nat
  queue : List Entry
  pushed : Nat
  coded : Bool
  verify : Bool
  bad : Nat
  deriving DecidableEq, Repr

/-- A picture of a stream between its acceptance and the end of its place in the coding order (R97, R99): its display position in its
sequence, GOP_LEN, GOP_B and whether HIER applies, PIC_CTRL[1:0], its END_SEQ and INIT, and, once it has started, its position in the GOP and
its type. -/
structure EncPic where
  ticket : Nat
  disp : Nat
  gop : Nat × Nat × Bool
  ctrl : Nat
  endSeq : Bool
  init : Bool
  fixed : Option (Nat × Nat)
  coded : Bool
  deriving DecidableEq, Repr

/-- The last coded picture of a class (R158): class, QP_AVG, coded bits. -/
structure RateMemo where
  cls : Nat
  qp : Int
  bits : Nat
  deriving DecidableEq, Repr

/-- The state of an encoded stream that its state buffer holds (R96–R99, R156–R158). `pos` is the GOP position of the last
picture that left `pics`, `issued` the display positions given; `refs` lists the reference pictures, latest first; `order` lists coded
pictures without a final record, in coding order, and `held` those whose work is over. -/
structure EncStream where
  params : List Nat
  ended : Bool
  keyNext : Bool
  initNext : Bool
  issued : Nat
  pos : Nat
  pics : List EncPic
  busy : Option Nat
  count : Nat
  debt : Int
  full : Int
  fref : Int
  memos : List RateMemo
  refs : List RefPic
  order : List Nat
  held : List (Nat × Nat × Nat × List Byte)
  deriving DecidableEq, Repr

/-- A decoded picture slot (R185, R197, R198): ORDER of its picture, whether it is a reference, awaits output, may be output at
all, is concealed, predicts from a substitute; its hash flags and unapplied grain; the orders of missing pictures
it stands for; the output pictures decoded since; and its size. -/
structure DecSlot where
  order : Int
  ref : Bool
  awaiting : Bool
  shown : Bool
  concealed : Bool
  sub : Bool
  flags : Nat
  aliases : List Int
  late : Nat
  size : Nat × Nat
  deriving DecidableEq, Repr

/-- An AV1 reference frame (R197): the slot that holds or stands for it, none for mid-grey; its ORDER; whether it is a substitute. -/
structure AvFrame where
  slot : Option Nat
  order : Int
  sub : Bool
  deriving DecidableEq, Repr

/-- The decode state a DEC or VFY state buffer holds: slots, pictures decoded since INIT, the orders of missing pictures that mid-grey stands
for (R197), the AV1 frames by ref_frame_idx, and the size of the picture before. -/
structure DecStream where
  slots : Table DecSlot
  count : Nat
  grey : List Int
  frames : Table AvFrame
  size : Option (Nat × Nat)
  deriving DecidableEq, Repr

/-- No picture decoded. -/
def DecStream.reset : DecStream := { slots := [], count := 0, grey := [], frames := [], size := none }

/-- An entry of a picture's reference lists as it stands (R197): the slot it is read from, none for mid-grey, and whether that is a substitute. -/
structure RefUse where
  slot : Option Nat
  sub : Bool
  deriving DecidableEq, Repr

/-- A CTU of a picture being decoded: concealed or not, its vector in whole samples, its map byte (R195, R199). -/
structure DecCtuRec where
  concealed : Bool
  mvx : Int
  mvy : Int
  map : Nat
  deriving DecidableEq, Repr

/-- A picture being decoded (R181–R199). `head` is what its headers say, `refs` what its reference lists hold; `planes` the samples at the
stream's depth so far. -/
structure DecRun where
  ticket : Nat
  key : Nat
  head : DecHead
  slot : Nat
  refs : List RefUse
  bytes : Nat
  planes : List (List (List Nat))
  ctus : Table DecCtuRec
  stopped : Bool
  error : Bool
  maxErr : Nat
  firstBad : Nat
  badTiles : List Nat
  deriving DecidableEq, Repr

/-- The analysis state of an ANA stream (R131, R134): truss, offset and size of its region, analysis-plane size, finest level, SEQ, FRAME of
the previous picture, its pyramid levels, and the bytes the region began with. -/
structure AnaStream where
  truss : Nat
  off : Nat
  size : Nat
  wa : Nat
  ha : Nat
  level : Nat
  seq : Nat
  frame : Nat
  levels : List (List (List Nat))
  mark : List Byte
  deriving DecidableEq, Repr

/-- A running ANA: whether it runs as INIT (R134). -/
structure AnaRun where
  ticket : Nat
  asInit : Bool
  forced : Bool
  deriving DecidableEq, Repr

/-- What an engine's sequencer keeps of a work order, running or suspended (R202, R207–R209): its micro-address, and code and steps done of its long
engine instruction. -/
structure EngProg where
  addr : Nat
  routine : Nat
  steps : Nat
  deriving DecidableEq, Repr

/-- At the idle point, with no long instruction. -/
def EngProg.reset : EngProg := { addr := 0, routine := 0, steps := 0 }

/-- CE_MCHK of an engine (R210). -/
structure Mchk where
  valid : Bool
  nano : Bool
  addr : Nat
  count : Nat
  lanes : Nat
  deriving DecidableEq, Repr

/-- No failure recorded. -/
def Mchk.reset : Mchk := { valid := false, nano := false, addr := 0, count := 0, lanes := 0 }

/-- A truss's patch loader (R212–R216): BUSY, MASK and STATUS, whether the image is verified, the image read and its signature block. -/
structure Patch where
  busy : Bool
  ready : Bool
  mask : Nat
  status : Nat
  image : List Byte
  sig : List Byte
  deriving DecidableEq, Repr

/-- No load has run. -/
def Patch.reset : Patch := { busy := false, ready := false, mask := 0, status := 0, image := [], sig := [] }

/-- The retained patch of a truss (R216): PATCH_ID, the SHA-384 of its image (R435), and its entries, as (address, word). -/
structure Retained where
  id : Nat
  digest : Nat
  micro : List (Nat × Nat)
  nano : List (Nat × Nat)
  deriving DecidableEq, Repr

/-- Base image alone. -/
def Retained.reset : Retained := { id := 0, digest := 0, micro := [], nano := [] }

/-- The coding engines and analysis units: streams by state buffer handle, pictures under way, counters of
TRUSS_ANA_STAT, TRUSS_RC_STAT and TRUSS_DEC_STAT by truss, sequencers by engine · 2^32 + ticket, machine checks and patches. `store` is
the patch each engine runs, `keep` the last one each truss applied. -/
structure Codec where
  encs : Table EncStream
  runs : List EncRun
  decs : Table DecStream
  decRuns : List DecRun
  anas : List AnaStream
  anaRuns : List AnaRun
  anaDone : Table Nat
  fieldMiss : Table Nat
  preempts : Table Nat
  hrd : Table Nat
  exhausted : Table Nat
  refMissing : Table Nat
  bsErr : Table Nat
  vfyBad : Table Nat
  conceals : Table Nat
  progs : Table EngProg
  mchk : Table Mchk
  patches : Table Patch
  keep : Table Retained
  store : Table Retained
  deriving DecidableEq, Repr

/-- The codec right after reset. -/
def Codec.reset : Codec :=
  { encs := [], runs := [], decs := [], decRuns := [], anas := [], anaRuns := [], anaDone := [], fieldMiss := [],
    preempts := [], hrd := [], exhausted := [], refMissing := [], bsErr := [], vfyBad := [], conceals := [], progs := [],
    mchk := [], patches := [], keep := [], store := [] }
/-- What a check of a signature has found: algorithm 0 ECDSA, 1 ML-DSA or 2 the KEK and tag of a wrapped key, key, message, signature. The model keeps what was found, so
that the same bytes never verify once and fail the next time. -/
structure Verdict where
  alg : Nat
  key : Nat
  msg : List Byte
  sig : List Byte
  ok : Bool
  deriving DecidableEq, Repr

/-- The block: everything the spec gives the device but its fuses and the model's queue of commands. `posted` holds progress words under way
to the control registers (R32), as function, offset and value. -/
structure Device where
  draw : Nat
  regs : Table Nat
  time : Nat
  frac : Int
  up : Nat
  timeLatch : Table Nat
  qpLatch : Nat
  ctxs : Table HoltCtx
  threadRecs : List ThreadRec
  rotation : Table Nat
  lastIssue : Table Nat
  issues : Table Nat
  tickets : Table Ticket
  wos : List WorkOrder
  woSeq : Nat
  recs : List RecWait
  cancelMiss : Nat
  cancelDone : Nat
  pfLost : Nat
  pfCancelled : Nat
  yard : Yard
  rings : Table Ring
  ringResets : Nat
  ringLast : Nat
  ringLost : Nat
  mem : Memory
  dma : Table DmaChan
  intc : Intc
  mbox : Mboxes
  plumb : Plumb
  host : HostPort
  qpSecure : Bool
  qpRefused : Nat
  qpTrig : Table Nat
  sw : Switch
  eth : Eth
  bond : Bond
  ks : Keystone
  crp : Crp
  perf : Perf
  gpioIn : Nat
  temp : Nat
  tempValid : Bool
  tap : Tap
  ingest : Ingest
  mag : Magazine
  mortar : Mortar
  sdi : Table SdiOut
  pins : Nat
  codec : Codec
  engines : Table Engine
  out : List Out
  verdicts : List Verdict
  posted : List (Nat × Nat × Nat)
  deriving DecidableEq, Repr

/-- The state of the model: the device, its fuses, and the commands that wait, first in first out. -/
structure State where
  dev : Device
  fuses : Fuses
  pending : List Instr
  deriving DecidableEq, Repr

/-- Why the machine stops. -/
inductive Fault
  /-- Raised by POR when the supplies of step 1 of R501 rose in a broken order: the spec leaves the AON and safety
  domains undefined and gives no effect. Safe: the model stops where nothing is known. -/
  | aonUndefined
  deriving DecidableEq, Repr

/-- Why a command is not run. -/
inductive Refusal
  /-- The command has no meaning in the model yet. Safe: nothing is claimed of it. -/
  | notModelled (mnemonic : String)
  deriving DecidableEq, Repr
/-- The owner register of bank n right after reset (R13, ASHLAR_OWNERn). -/
def Bank.reset (n : Nat) : Bank :=
  { owner := if n < 24 then n / 2 else 0x10 + (n - 24), pending := false, wiping := false, wipeNext := false,
    err := false, held := [] }

/-- Memory right after reset: nothing written, no mark of an error (R474, R302). -/
def Memory.reset : Memory :=
  { cells := [], badBlocks := [], syndromes := [], zeroised := [], saved := [], badUnits := [], badWords := [], dmcs := [], chans := [], banks := [], keys := [],
    regions := [], served := [], reqSeq := 0, absWiping := false, absWiped := false, violBank := 0, violReq := 0,
    viol := 0, scrubAt := [] }

/-- The Yard right after reset (R312). -/
def Yard.reset : Yard :=
  { en := false, err := false, bufs := [], low := [], hosts := [], winCount := 0, winWrite := false,
    winHolt := false, winWho := 0, winAddr := 0 }

/-- The interrupt controller right after reset: only source 517 is enabled (R415). -/
def Intc.reset : Intc :=
  { latch := [], en := [517], active := [], deliv := [], cfg := [], noCause := 0, emptyClaims := 0 }

/-- The mailboxes right after reset. -/
def Mboxes.reset : Mboxes := { chans := [], cross := 0, since := [] }

/-- Plumb right after POR (R462). -/
def Plumb.reset : Plumb :=
  { recs := [], cfg := [], esc := [], ovf := false, ovfInt := [], ovfNmi := false, ovfFault := false, chip := none,
    causeChip := false, causeSource := 0, wdEn := false, wdBad := 0, wdMs := 1000, wdAt := 0, wdSecond := false,
    wdStopped := false }

/-- The SPDM responder right after reset: nothing negotiated. -/
def Spdm.reset : Spdm :=
  { version := false, caps := false, algs := false, handshake := false, session := false, key := 0,
    transcript := [] }

/-- The host port right after reset: the link is down. -/
def HostPort.reset : HostPort :=
  { link := .down, perst := true, numVfs := 0, vfEnable := false, pmeOff := false, funcs := [], vecs := [],
    ide := [], spdm := Spdm.reset }

/-- The stream switch right after reset: empty. -/
def Switch.reset : Switch := { frames := [], nextId := 0, queues := [], ports := [] }

/-- Ethernet right after reset. -/
def Eth.reset : Eth :=
  { ports := [], tokens := [], hwm := [], gates := [], flows := [], merges := [], nettx := [], tickAt := 0,
    sampleAt := 0 }

/-- Bond right after reset. -/
def Bond.reset : Bond :=
  { ports := [], st := .off, extErr := false, exch := [], good := 0, offset := 0, delay := 0, lastValid := 0,
    reqAt := 0, asked := [], rate := 0, proxies := [], answered := [], sseqs := [], reps := [], rx := [],
    bondFilled := [] }

/-- Keystone right after reset; the nonce is drawn at boot (R454, KS_LC_NONCE resets to a random value). -/
def Keystone.reset (draw : Nat) : Keystone :=
  { slots := [], recips := [], record := false, devFpr := [], fwMeas := 0, chain := 0,
    nonce := Config.freeNat draw 1, req := none, lcStatus := 0, run := [], sealFail := 0, tamper := 0,
    latched := false, lock := false, tamperEn := 0, bootOk := false, copy := 3, stopped := false, signing := none, boot := [] }

/-- Unprogrammed fuses: life-cycle state BLANK and counters 0 (R428, R452). -/
def Fuses.reset : Fuses :=
  { lcA := 0, lcB := 0, makerSet := false, makerHash := 0, arb0 := 0, arb1 := 0, arb2 := 0, arb3 := 0,
    dusSet := false, dusKill := false }

/-- The CRP block right after POR: cause POR (bit 31), stage ROM, Active. -/
def Crp.reset : Crp :=
  { rootLock := false, xtalOk := false, cause := 0x80000000, stage := 0,
    zeroDone := false, fail := 0, stageAt := 0, upAt := 0, pwr := .active, coarse := false, refuse := 0, req := 0,
    saveOk := false, sleepAt := 0, aonDown := false, glitch := false, latchF4 := [], resetHeld := false,
    pending := false, header := [], xspi := .single 25, xspiLow := none }

/-- The performance monitor right after reset (R485). -/
def Perf.reset : Perf :=
  { cnt := [], samples := [], dumps := 0, dumpLost := 0, sampleLost := 0, dumpAt := 0, rd := [], wr := [],
    lastRd := [], lastWr := [], short := false, winAt := 0 }

/-- Ingest right after reset. -/
def Ingest.reset : Ingest := { ports := [], runs := [], trigs := [], dropped := 0, overrun := 0, arrivals := [] }

/-- The magazine engine right after reset. -/
def Magazine.reset : Magazine := { ports := [], queues := [], clips := [], emerg := [], done := false, reason := 0, trailers := 0 }

/-- Mortar right after reset. -/
def Mortar.reset : Mortar := { outs := [], comps := [], dressErr := 0, wbLate := 0 }

/-- The device right after POR (R473, R474): every block at its reset value, device time 0 (R2). -/
def Device.reset : Device :=
  { draw := 0, regs := [], time := 0, frac := 0, up := 0, timeLatch := [], qpLatch := 0, ctxs := [],
    threadRecs := [], rotation := [], lastIssue := [], issues := [], tickets := [], wos := [], woSeq := 0,
    recs := [], cancelMiss := 0, cancelDone := 0, pfLost := 0, pfCancelled := 0, yard := Yard.reset, rings := [],
    ringResets := 0, ringLast := 0, ringLost := 0, mem := Memory.reset, dma := [], intc := Intc.reset,
    mbox := Mboxes.reset, plumb := Plumb.reset, host := HostPort.reset, qpSecure := false, qpRefused := 0,
    qpTrig := [], sw := Switch.reset, eth := Eth.reset, bond := Bond.reset, ks := Keystone.reset 0,
    crp := { Crp.reset with xspiLow := some 10000 }, perf := Perf.reset, gpioIn := 0, temp := 0, tempValid := false,
    tap := { bypass := true, ir := 0 }, ingest := Ingest.reset, mag := Magazine.reset, mortar := Mortar.reset,
    sdi := [], pins := 0, codec := Codec.reset, engines := [], out := [], verdicts := [], posted := [] }

/-- The machine right after reset: no command waits. -/
def State.reset : State := { dev := Device.reset, fuses := Fuses.reset, pending := [] }

end Sys2Proof.Machine
end

