-- ==== Sys2Proof/Machine/Ops.lean ====
section
/-! DEFINITION. Operations every family uses: configuration registers, performance counts, mailboxes, MSI-X events, the
interrupt controller, Plumb, emergency close, and how a command ends (`done`). -/

namespace Sys2Proof.Machine

/-- The value of a stored control register whose reset value is `rst`. -/
def reg (d : Device) (off rst : Nat) : Nat := tget rst off d.regs

/-- Store a control register whose reset value is `rst`. -/
def setReg (d : Device) (off rst v : Nat) : Device := { d with regs := tset rst off v d.regs }

/-- Add one to what leaves the device. -/
def emit (d : Device) (o : Out) : Device := { d with out := d.out ++ [o] }

/-- A free number of the present command, told apart by k. -/
def free (d : Device) (k : Nat) : Nat := Config.freeNat d.draw k

/-- The default offset of function f's own page (R399). -/
def ownPage (f : Nat) : Nat := 0xE10000 + f * 0x1000

/-- A stream context (R52). -/
def ctxAt (d : Device) (c : Nat) : HoltCtx := tget HoltCtx.reset c d.ctxs

/-- Change a stream context. -/
def setCtx (d : Device) (c : Nat) (x : HoltCtx) : Device := { d with ctxs := tset HoltCtx.reset c x d.ctxs }

/-- A PCIe function; the PF (0) is always enabled, a VF while VF Enable and NumVFs say so (R398). -/
def funcAt (d : Device) (f : Nat) : Func := tget Func.reset f d.host.funcs

/-- Change a PCIe function. -/
def setFunc (d : Device) (f : Nat) (x : Func) : Device :=
  { d with host := { d.host with funcs := tset Func.reset f x d.host.funcs } }

/-- Function f exists: the PF, or a VF brought into being by VF Enable (R398). -/
def funcOn (d : Device) (f : Nat) : Bool := f == 0 || (d.host.vfEnable && decide (f ≤ d.host.numVfs))

/-- Function f is being reset: new submissions are refused (R89 step 1). -/
def funcBusy (d : Device) (f : Nat) : Bool := (funcAt d f).flr

/-! Performance counts (R484, R485, R488–R490). -/

/-- The configuration word of counter k, PERF_CFGk. -/
def perfCfg (d : Device) (k : Nat) : Nat := reg d (0x501000 + 4 * k) 0

/-- Counter k counts the event (R484): enabled, the event named, its instance or ALL. -/
def perfMatches (cfg group event inst : Nat) : Bool :=
  bitOf cfg 31 && bitsOf cfg 23 8 == group * 256 + event && (bitOf cfg 29 || bitsOf cfg 7 0 == inst)

/-- Add n events to counter k; a sampling counter that passes 2^64 − 1 reloads and leaves a sample to push (R488). -/
def perfAdd (d : Device) (k n : Nat) (flags where0 where1 : Nat) : Device :=
  let old := tget 0 k d.perf.cnt
  let sum := old + n
  if sum < 2 ^ 64 then { d with perf := { d.perf with cnt := tset 0 k sum d.perf.cnt } }
  else if bitOf (perfCfg d k) 30 then
    let reload := reg d (0x503000 + 8 * k) 0 + 2 ^ 32 * reg d (0x503004 + 8 * k) 0
    { d with perf := { d.perf with
        cnt := tset 0 k ((reload + (sum - 2 ^ 64)) % 2 ^ 64) d.perf.cnt
        samples := d.perf.samples ++ [{ counter := k, flags := flags, time := d.time, where0 := where0,
                                        where1 := where1 }] } }
  else { d with perf := { d.perf with cnt := tset 0 k (sum % 2 ^ 64) d.perf.cnt } }

/-- Counters that hold a configuration word: keys of the register table in the PERF_CFG range. -/
def perfKeys (d : Device) : List Nat :=
  (d.regs.filter (fun e => decide (0x501000 ≤ e.1 ∧ e.1 < 0x501800))).map (fun e => (e.1 - 0x501000) / 4)

/-- n occurrences of an event of an instance of a group, where it happened, and on behalf of a sealed context or not
(R484, R489, R490). A frozen monitor counts nothing (R485). -/
def perfEvent (d : Device) (group event inst n : Nat) (isSealed : Bool) (where0 where1 : Nat) : Device :=
  if bitOf (reg d 0x500000 0) 30 then d
  else (perfKeys d).foldl (fun e k =>
    if perfMatches (perfCfg e k) group event inst then
      perfAdd e k n (ofFlag isSealed) (if isSealed then 0 else where0) where1
    else e) d

/-- Bytes a requester port read or wrote, for the bandwidth windows and group PORT (R484, R491). -/
def perfBytes (d : Device) (port : Nat) (write : Bool) (n : Nat) : Device :=
  let d := if bitOf (reg d 0x500018 1000) 31 then
      if write then { d with perf := { d.perf with wr := tmod 0 port (· + n) d.perf.wr } }
      else { d with perf := { d.perf with rd := tmod 0 port (· + n) d.perf.rd } }
    else d
  let d := perfEvent d 6 (if write then 1 else 0) port n false 0 0
  if write then d else perfEvent d 6 2 port 1 false 0 0

/-! Mailboxes (R422–R426). -/

/-- A mailbox channel. -/
def mboxAt (d : Device) (c : Nat) : Mbox := tget Mbox.reset c d.mbox.chans

/-- Change a mailbox channel. -/
def setMbox (d : Device) (c : Nat) (x : Mbox) : Device :=
  { d with mbox := { d.mbox with chans := tset Mbox.reset c x d.mbox.chans } }

/-- Set doorbell bits of a channel; bits already set stay set (R424). -/
def mboxRing (d : Device) (c : Nat) (bits : Word32) : Device :=
  let m := mboxAt d c
  setMbox d c { m with db := m.db ||| bits }

/-- Keep the cross timer of a channel's pair: it runs while both channels are full (R426). -/
def mboxPair (d : Device) (c : Nat) : Device :=
  let k := c / 2
  if (mboxAt d (2 * k)).full && (mboxAt d (2 * k + 1)).full then
    match tfind k d.mbox.since with
    | some _ => d
    | none => { d with mbox := { d.mbox with since := tput k d.up d.mbox.since } }
  else { d with mbox := { d.mbox with since := tdel k d.mbox.since } }

/-! MSI-X (R403–R406). -/

/-- Vector v of function f: key of the vector table. -/
def vecKey (f v : Nat) : Nat := f * 128 + v

/-- A vector. -/
def vecAt (d : Device) (f v : Nat) : Vec := tget Vec.reset (vecKey f v) d.host.vecs

/-- Change a vector. -/
def setVec (d : Device) (f v : Nat) (x : Vec) : Device :=
  { d with host := { d.host with vecs := tset Vec.reset (vecKey f v) x d.host.vecs } }

/-- Function f can receive a message: MSI-X enabled, in D0, link in L0, not in reset (R404). -/
def canSend (d : Device) (f : Nat) : Bool :=
  let x := funcAt d f
  funcOn d f && x.msixEn && x.d == .d0 && d.host.link == .l0 && !x.flr

/-- The device starts to leave L1 (R405). -/
def leaveL1 (d : Device) : Device :=
  if d.host.link = .l1 then emit { d with host := { d.host with link := .exiting } } .linkExit else d

/-- What a due vector does: send its message, or be held as R405 says for L1, D3hot and D3cold. -/
def vecTry (d : Device) (f v : Nat) : Device :=
  let x := vecAt d f v
  let fn := funcAt d f
  if !x.due then d
  else if canSend d f then
    if x.masked then d
    else emit (setVec d f v { x with due := false, count := 0, timer := none }) (.msix f v x.addr x.data)
  else if fn.flr || !funcOn d f then d
  else match fn.d with
    | .d0 => if x.masked then d else leaveL1 d
    | .d3hot => if fn.pmeSent then d else leaveL1 (emit (setFunc d f { fn with pmeSent := true }) (.pme f))
    | .d3cold => setFunc d f { fn with wake := true }

/-- HP_MODv of function f. -/
def modReg (d : Device) (f v : Nat) : Nat := reg d (ownPage f + 0x900 + 4 * v) 0

/-- One event on vector v of function f (R404). An event of a function being reset is discarded (R406). -/
def msixEvent (d : Device) (f v : Nat) : Device :=
  if funcBusy d f || !funcOn d f then d
  else
    let x := vecAt d f v
    let m := modReg d f v
    let us := bitsOf m 31 16
    let n := x.count + 1
    let x := { x with count := n, timer := match x.timer with | some t => some t | none => some (d.up + us * 1000) }
    let x := if us = 0 ∨ max 1 (bitsOf m 7 0) ≤ n then { x with due := true } else x
    vecTry (setVec d f v x) f v

/-! Emergency close (R285): which clips it closes, and the run that EMERGENCY_CLOSE_DONE ends. -/

/-- Open clip slots not already being closed. -/
def freshClips (d : Device) (p : Clip → Bool) : List Nat :=
  ((d.mag.clips.filter (fun e => p e.2)).map (·.1)).filter (fun k => !(d.mag.emerg.any (fun r => r.clips.contains k)))

/-- Start an emergency close of the clips with a property, for a reason (R284 REASON). A trigger that finds a close running
and no further clip joins it. -/
def startEmergency (d : Device) (reason : Nat) (p : Clip → Bool) : Device :=
  let ks := freshClips d p
  if d.mag.emerg ≠ [] ∧ ks = [] then d
  else { d with mag := { d.mag with emerg := d.mag.emerg ++ [{ reason := reason, clips := ks, startAt := d.up }] } }

/-! Plumb (R457–R464). -/

/-- Default class and reaction bits of a source (R458), as bits [31:24] of PLUMB_SRCn_CFG. The fixed word of an F4 source is
that of R459; source 446 has CHIP fixed at 1. -/
def plumbDefault (n : Nat) : Nat × Nat :=
  if n < 16 then (1, 0x10) else if n < 32 then (2, 0x10) else if n < 48 then (1, 0x10) else if n < 64 then (2, 0x10)
  else if n < 80 then (4, 0x19) else if n < 112 then (1, 0x10) else if n < 144 then (2, 0x10)
  else if n < 240 then (2, 0x14) else if n < 336 then (2, 0x10) else if n < 432 then (1, 0x10)
  else if n = 432 then (4, 0x19) else if n = 433 then (2, 0x14) else if n = 434 then (1, 0x10)
  else if n = 435 then (2, 0x10) else if n < 439 then (4, 0x19) else if n < 443 then (1, 0x10)
  else if n = 443 then (2, 0x14) else if n = 444 then (3, 0) else if n = 445 then (1, 0x10)
  else if n = 446 then (3, 0x02) else if n = 447 then (2, 0x10) else (0, 0)

/-- The reset value of PLUMB_SRCn_CFG; reserved sources read 0 (R458). -/
def plumbCfg0 (n : Nat) : Nat :=
  if 448 ≤ n then 0
  else let (c, r) := plumbDefault n; c * 2 ^ 29 + r * 2 ^ 24 + 1000

/-- Sources whose block reset is always performed (R458, R459). -/
def plumbBlkAlways (n : Nat) : Bool := (decide (144 ≤ n) && decide (n < 240)) || n == 433

/-- Sources that have a block reset (R458). -/
def plumbBlk (n : Nat) : Bool := plumbBlkAlways n || n == 443

/-- PLUMB_SRCn_CFG. -/
def plumbCfg (d : Device) (n : Nat) : Nat := tget (plumbCfg0 n) n d.plumb.cfg

/-- The escalation count of a source. -/
def escAt (d : Device) (n : Nat) : Esc := tget { count := 0, start := 0, raise := 0 } n d.plumb.esc

/-- Minimum reactions of a class (R457): NMI, CHIP, FAULT. -/
def classMin (c : Nat) : Bool × Bool × Bool :=
  if c = 3 then (true, true, true) else if c = 4 then (true, false, true) else (false, false, false)

/-- Count an event of a source (R464): the new count and whether this event completed it. -/
def escStep (d : Device) (n : Nat) : Esc × Bool :=
  let cfg := plumbCfg d n
  let e := escAt d n
  let escN := bitsOf cfg 23 16
  let w := max 1 (bitsOf cfg 15 0) * 1000000
  if escN = 0 then (e, false)
  else
    let e := if e.count = 0 ∨ e.start + w < d.up then { e with count := 1, start := d.up } else { e with count := e.count + 1 }
    if escN ≤ e.count then ({ e with count := 0, raise := min 3 (e.raise + 1) }, true) else (e, false)

/-- The effective class of an event of a source with a raise (R464): capped at F3, F4 only by default class. -/
def effClass (base raise : Nat) : Nat := if base = 4 then 4 else min 3 (base + raise)

/-- The open record of a source: its slot. -/
def openSlot (d : Device) (n : Nat) : Option Nat :=
  (d.plumb.recs.find? (fun e => e.2.source = n)).map (·.1)

/-- The lowest free slot below a bound. -/
def freeSlot (t : Table PlumbRec) (bound : Nat) : Option Nat :=
  (upto 0 bound).find? (fun i => (tfind i t).isNone)

/-- Chip reset reaction (R463): emergency close of every open clip, then a warm reset; later requests join. -/
def chipAsk (d : Device) (n : Nat) : Device :=
  { d with plumb := { d.plumb with chip := match d.plumb.chip with | some s => some s | none => some n } }

/-- The emergency close of an event of class F3 or F4, or of the watchdog (R457, R463, R284 REASON). -/
def plumbClose (d : Device) (n cls : Nat) (chip : Bool) : Device :=
  if n = 446 then startEmergency d 4 (fun _ => true)
  else if n = 438 then startEmergency d 6 (fun _ => true)
  else if cls = 4 then startEmergency d 3 (fun _ => true)
  else if cls = 3 ∨ chip then startEmergency d 2 (fun _ => true)
  else d

/-- One fault event of a source (R459–R464): counting, record or merge, and the reactions of its effective class. -/
def plumbEvent (d : Device) (n detail : Nat) : Device :=
  if 448 ≤ n then d
  else
    let cfg := plumbCfg d n
    let (e, hit) := escStep d n
    let d := { d with plumb := { d.plumb with esc := tset { count := 0, start := 0, raise := 0 } n e d.plumb.esc } }
    let cls := effClass (bitsOf cfg 31 29) e.raise
    let (mNmi, mChip, mFault) := classMin cls
    let int := bitOf cfg 28
    let nmi := bitOf cfg 27 || mNmi
    let chip := bitOf cfg 25 || mChip
    let fault := bitOf cfg 24 || mFault
    let raised := decide (0 < e.raise) || hit
    let p := d.plumb
    let p := match openSlot d n with
      | some i =>
        let r := tget { firstTime := 0, lastTime := 0, source := n, cls := 0, merged := false, raised := false,
                        count := 0, detail := 0, int := false, nmi := false, fault := false } i p.recs
        let up := decide (r.cls < cls)
        let r := { r with
          count := satAdd 0xFFFFFFFF r.count 1, merged := true, lastTime := d.time, detail := detail,
          cls := max r.cls cls, raised := r.raised || raised,
          int := r.int || (up && int), nmi := r.nmi || (up && nmi), fault := r.fault || (up && fault) }
        { p with recs := tput i r p.recs }
      | none =>
        match freeSlot p.recs (if cls < 3 then 56 else 64) with
        | some i =>
          let r : PlumbRec :=
            { firstTime := d.time, lastTime := d.time, source := n, cls := cls, merged := false,
              raised := raised, count := 1, detail := detail, int := int, nmi := nmi, fault := fault }
          { p with recs := tput i r p.recs }
        | none =>
          { p with ovf := true, ovfInt := if int then sadd cls p.ovfInt else p.ovfInt,
                   ovfNmi := p.ovfNmi || nmi, ovfFault := p.ovfFault || fault }
    let d := { d with plumb := p }
    let d := plumbClose d n cls chip
    if chip then chipAsk d n else d

/-- An F4 record is latched (R457, R462). -/
def f4Latched (d : Device) : Bool := d.plumb.recs.any (fun e => e.2.cls = 4)

/-- FAULT_N is asserted (R463). -/
def faultN (d : Device) : Bool :=
  d.plumb.recs.any (fun e => e.2.fault || e.2.cls = 4) || (d.plumb.ovf && d.plumb.ovfFault)

/-! The interrupt controller (R413–R421). -/

/-- A source of the table of R413; every other number is reserved. -/
def intcValid (n : Nat) : Bool :=
  decide (n < 92) || (decide (96 ≤ n) && decide (n < 130)) || (decide (256 ≤ n) && decide (n < 518))

/-- A level source (R413). -/
def intcLevel (n : Nat) : Bool :=
  n == 129 || (decide (256 ≤ n) && decide (n < 320)) || (decide (384 ≤ n) && decide (n < 518))

/-- The reset value of INTC_SRCn_CFG: TARGET 15, LEVEL as the source's kind; source 517 has PRIO 15 (R414). -/
def intcCfg0 (n : Nat) : Nat :=
  if !intcValid n then 0
  else ofFlag (intcLevel n) * 2 ^ 31 + (if n = 517 then 15 * 2 ^ 24 else 0) + 15 * 2 ^ 20

/-- INTC_SRCn_CFG. -/
def intcCfg (d : Device) (n : Nat) : Nat := tget (intcCfg0 n) n d.intc.cfg

/-- PRIO of a source. -/
def intcPrio (d : Device) (n : Nat) : Nat := bitsOf (intcCfg d n) 27 24

/-- TARGET of a source. -/
def intcTarget (d : Device) (n : Nat) : Nat := bitsOf (intcCfg d n) 23 20

/-- FUNC of a source. -/
def intcFunc (d : Device) (n : Nat) : Nat := bitsOf (intcCfg d n) 19 16

/-- The source belongs to a function whose FLR runs, so its events are lost (R420). -/
def intcLost (d : Device) (n : Nat) : Bool := intcTarget d n == 10 && funcBusy d (intcFunc d n)

/-- The level input of a source is asserted (R413, R424, R426, R463). -/
def intcInput (d : Device) (n : Nat) : Bool :=
  if n = 129 then d.mag.done
  else if n < 256 then false
  else if n < 320 then (mboxAt d (n - 256)).full
  else if n < 384 then false
  else if n < 448 then let m := mboxAt d (n - 384); m.db &&& m.dbEn != 0
  else if n < 480 then bitOf d.mbox.cross (n - 448)
  else if n < 512 then bitOf d.mbox.cross (n - 480)
  else if n < 517 then
    d.plumb.recs.any (fun e => e.2.cls = n - 512 && e.2.int) || (d.plumb.ovf && d.plumb.ovfInt.contains (n - 512))
  else if n = 517 then
    d.plumb.recs.any (fun e => e.2.nmi || e.2.cls = 4) || (d.plumb.ovf && d.plumb.ovfNmi)
  else false

/-- Active: claimed and not yet completed (R417, R418). -/
def intcActive (d : Device) (n : Nat) : Bool := (tfind n d.intc.active).isSome

/-- Pending (R413, R415): latched by an event or by software, or a level input asserted while not active. -/
def intcPending (d : Device) (n : Nat) : Bool :=
  intcValid n && !intcLost d n &&
    (d.intc.latch.contains n || (intcLevel n && intcInput d n && !intcActive d n))

/-- Deliverable: pending, enabled and not active (R416). -/
def intcDeliverable (d : Device) (n : Nat) : Bool :=
  intcPending d n && d.intc.en.contains n && !intcActive d n

/-- Level sources whose input may be asserted now: those of mailboxes that hold something, of crossed pairs, of Plumb, and
129. -/
def intcCandidates (d : Device) : List Nat :=
  d.intc.latch ++ [129] ++ d.mbox.chans.flatMap (fun e => [256 + e.1, 384 + e.1])
    ++ (if d.mbox.cross = 0 then [] else (upto 0 32).flatMap (fun k => [448 + k, 480 + k])) ++ upto 512 6

/-- One event of an edge source (R413): it becomes pending, unless its function is being reset (R420). -/
def intcEvent (d : Device) (n : Nat) : Device :=
  if intcValid n && !intcLevel n && !intcLost d n then { d with intc := { d.intc with latch := sadd n d.intc.latch } }
  else d

/-- The mailbox channel that carries core m's interrupts, MASON_CFG.IRQ_CH (R68). -/
def irqChannel (d : Device) (m : Nat) : Nat := bitsOf (reg d (0x3000000 + m * 0x100000) 1) 13 8

/-- What delivery does for one deliverable source (R416): a doorbell bit of a Mason core's channel, or one event on a vector
when the source has just become deliverable. -/
def intcDeliver (old : List Nat) (d : Device) (n : Nat) : Device :=
  let t := intcTarget d n
  if t < 8 then mboxRing d (irqChannel d t) (BitVec.ofNat 32 (2 ^ intcPrio d n))
  else if t = 10 ∧ !old.contains n then msixEvent d (intcFunc d n) (bitsOf (intcCfg d n) 6 0)
  else d

/-- One round of delivery over the sources that are deliverable now. -/
def intcRound (d : Device) : Device :=
  let now := (intcCandidates d).filter (intcDeliverable d)
  let d' := now.foldl (intcDeliver d.intc.deliv) d
  { d' with intc := { d'.intc with deliv := now } }

/-- Delivery after a command (R416): two rounds, so that a doorbell bit just set can itself be a source's input. -/
def settle (d : Device) : Device := intcRound (intcRound d)

/-- FULL of a channel goes from 1 to 0: one event of "MBOX c empty" (R423), and its pair's cross timer stops. -/
def mboxEmptied (d : Device) (c : Nat) (byBond : Bool) : Device :=
  let d := mboxPair d c
  if byBond then d else intcEvent d (320 + c)

/-- Send a word on a channel (R423): false when the channel is full and nothing was sent. -/
def mboxSend (d : Device) (c : Nat) (w : Word32) : Device × Bool :=
  let m := mboxAt d c
  if m.full then (d, false)
  else (mboxPair (setMbox d c { m with word := w, full := true, db := m.db ||| 0x80000000#32 }) c, true)

/-- Receive from a channel (R423): the word of a full channel, whose FULL clears. A word that Bond delivered raises no empty
event (R395). -/
def mboxRecv (d : Device) (c : Nat) : Device × Option Word32 :=
  let m := mboxAt d c
  if m.full then
    let byBond := d.bond.bondFilled.contains c
    let d := setMbox d c { m with word := 0, full := false }
    let d := { d with bond := { d.bond with bondFilled := sdel c d.bond.bondFilled } }
    (mboxEmptied d c byBond, some m.word)
  else (d, none)

/-! Ending a command. -/

/-- The state after a command whose effect on the device is d: interrupts are delivered (R416) and the draw counter of
free values advances. -/
def after (s : State) (d : Device) : State := { s with dev := { settle d with draw := s.dev.draw + 1 } }

/-- A command whose effect on the device is d completes. -/
def done (s : State) (d : Device) : Host.Outcome State Fault Refusal := .next (after s d)

end Sys2Proof.Machine
end

