-- ==== Sys2Proof/Machine/Mem.lean ====
section
/-! DEFINITION. Device memory: the address map (R8, R9), the DRAM address split (R292), error logs and marks (R298–R305),
Ashlar banks (R307, R308) and the byte reads and writes that every family shares. -/

namespace Sys2Proof.Machine

/-- The ranges of R8. -/
inductive Region
  | dram | ashlar (bank : Nat) | abs | ce | ctl | unmapped
  deriving DecidableEq, Repr

/-- Usable DRAM in bytes: MEM_CAP.USABLE_MIB × 2^20 (R291). -/
def usableBytes (d : Device) : Nat := 2 ^ 20 * bitsOf (reg d 0x4010004 0) 17 0

/-- The range an address lies in (R8, R9). -/
def regionOf (d : Device) (a : Nat) : Region :=
  if a < usableBytes d then .dram
  else if 0x080000000000 ≤ a ∧ a < 0x080008000000 then .ashlar ((a - 0x080000000000) / 0x400000)
  else if 0x080010000000 ≤ a ∧ a < 0x080010200000 then .abs
  else if 0x081000000000 ≤ a ∧ a < 0x081006000000 then .ce
  else if 0x0F0000000000 ≤ a ∧ a < 0x0F0010000000 then .ctl
  else .unmapped

/-- On-chip memory, which reset zeroes (R474); DRAM is never zeroed by a reset. -/
def onChip (a : Nat) : Bool := decide (0x080000000000 ≤ a)

/-- What an address that nothing has written reads as: 0 on chip (R474); in DRAM there is no stated value. -/
def unlisted (a : Nat) : Option Byte := if onChip a then some 0 else none

/-- The byte at an address, if the spec gives it one. -/
def cellAt (a : Nat) (m : List Host.Cell) : Option Byte :=
  match tfind a m with
  | some b => some b
  | none => unlisted a

/-- Write one byte, keeping the canonical form: a byte equal to what an unlisted address reads as is not listed. -/
def setCell (a : Nat) (b : Byte) (m : List Host.Cell) : List Host.Cell :=
  if unlisted a = some b then tdel a m else tput a b m

/-- Write bytes from an address on. -/
def setCells (a : Nat) : List Byte → List Host.Cell → List Host.Cell
  | [], m => m
  | b :: r, m => setCells (a + 1) r (setCell a b m)

/-- The canonical form of memory: addresses strictly rising, no entry equal to what an unlisted address reads as. -/
def memWf : List Host.Cell → Bool
  | [] => true
  | [(a, b)] => unlisted a ≠ some b
  | (a, b) :: (c, e) :: r => decide (a < c) && decide (unlisted a ≠ some b) && memWf ((c, e) :: r)

/-- The memory's cells are in their canonical form. -/
def Memory.wf (m : Memory) : Bool := memWf m.cells

/-- Change the cells of the device's memory. -/
def withCells (d : Device) (c : List Host.Cell) : Device := { d with mem := { d.mem with cells := c } }

/-- Forget every byte written from lo up to (not including) hi: a wipe by key rotation or by zeroing (R303, R474). -/
def dropCells (lo hi : Nat) (m : List Host.Cell) : List Host.Cell :=
  m.filter (fun e => !(decide (lo ≤ e.1) && decide (e.1 < hi)))

/-- Wipe an address range. -/
def wipeRange (d : Device) (lo hi : Nat) : Device :=
  { d with mem := { d.mem with
      cells := dropCells lo hi d.mem.cells
      saved := d.mem.saved.filter (fun r => decide (r.2 ≤ lo) || decide (hi ≤ r.1))
      badUnits := d.mem.badUnits.filter (fun u => !(decide (lo ≤ u) && decide (u < hi))) } }

/-! The split of a DRAM address (R292). -/

/-- MEM_CFG. -/
def memCfg (d : Device) : Nat := reg d 0x4010000 0x03014018

/-- log2 of the interleave grain: 8, 10, 12, 14 or 16 (MEM_CFG.GRAIN). -/
def grainLog (d : Device) : Nat := 8 + 2 * bitsOf (memCfg d) 18 16

/-- The channel of a DRAM address. -/
def chanOf (d : Device) (a : Nat) : Nat := a / 2 ^ grainLog d % 32

/-- The channel-local address. -/
def localOf (d : Device) (a : Nat) : Nat :=
  a / 2 ^ (grainLog d + 5) * 2 ^ grainLog d + a % 2 ^ grainLog d

/-- Rank, row and bank of a channel-local address: (rank, row, bank). -/
def rowOf (d : Device) (l : Nat) : Nat × Nat × Nat :=
  let two := bitOf (memCfg d) 25
  let row := if two then l / 2 ^ 16 else l / 2 ^ 15
  (if two then ofFlag (bitOf l 15) else 0, row, (bitsOf l 14 11) ^^^ (row % 16))

/-- LOCATION of a log entry (R300). -/
def locationOf (d : Device) (a : Nat) : Nat :=
  let (rank, row, bank) := rowOf d (localOf d a)
  rank * 2 ^ 21 + bank * 2 ^ 17 + row % 2 ^ 17

/-- A DRAM controller. -/
def dmcAt (d : Device) (n : Nat) : Dmc := tget Dmc.reset n d.mem.dmcs

/-- Change a DRAM controller. -/
def setDmc (d : Device) (n : Nat) (x : Dmc) : Device :=
  { d with mem := { d.mem with dmcs := tset Dmc.reset n x d.mem.dmcs } }

/-- Log an error on a block (R300): merged with an entry of the same type and block, else appended, else OVF. -/
def dmcLog (d : Device) (type addr requester flags syndrome : Nat) : Device :=
  let n := chanOf d addr / 2
  let x := dmcAt d n
  match splitFirst (fun e => e.type = type && e.addr = addr) x.log with
  | some (pre, e, post) => setDmc d n { x with log := pre ++ { e with count := satAdd 0xFFFFFFFF e.count 1 } :: post }
  | none =>
    if x.log.length < 16 then
      let e : DmcEntry :=
        { time := d.time, addr := addr, type := type, channel := chanOf d addr, requester := requester,
          flags := flags, syndrome := syndrome, location := locationOf d addr, count := 1 }
      setDmc d n { x with log := x.log ++ [e] }
    else setDmc d n { x with ovf := true }

/-- Mark a block uncorrectable and keep the syndrome that a later log entry shows (R298, R300). -/
def markBlock (d : Device) (block syndrome : Nat) : Device :=
  { d with mem := { d.mem with badBlocks := sadd block d.mem.badBlocks, syndromes := tset 0 block syndrome d.mem.syndromes } }

/-- A corrected single-bit error (R298): counted, logged, F1 event; the data is right. -/
def dmcCorrected (d : Device) (block requester flags syndrome : Nat) : Device :=
  let n := chanOf d block / 2
  let x := dmcAt d n
  let d := setDmc d n { x with corr := (x.corr + 1) % 256 }
  plumbEvent (dmcLog d 1 block requester flags syndrome) n block

/-- An uncorrectable access (R298): counted, logged as type 2, F2 event. -/
def dmcUncorrectable (d : Device) (block requester flags syndrome : Nat) : Device :=
  let n := chanOf d block / 2
  let x := dmcAt d n
  let d := setDmc d n { x with uncorr := (x.uncorr + 1) % 256 }
  plumbEvent (dmcLog d 2 block requester flags syndrome) (16 + n) block

/-- An access that fails on the link, the retry too (R299): type 3, and a read ends as uncorrectable. -/
def dmcLink (d : Device) (block requester flags : Nat) (write : Bool) : Device :=
  let n := chanOf d block / 2
  let d := dmcLog d 3 block requester flags 0
  if write then d
  else plumbEvent (setDmc d n { dmcAt d n with uncorr := ((dmcAt d n).uncorr + 1) % 256 }) (16 + n) block

/-- A MAC mismatch on a sealed unit (R305): type 4 and the F4 event. -/
def dmcMac (d : Device) (unit requester flags : Nat) : Device :=
  let n := chanOf d unit / 2
  plumbEvent (dmcLog d 4 unit requester flags 0) (64 + n) unit

/-- An access into the MAC area of a sealed region (R304): type 5 and an F1 event of the controller. -/
def dmcMacArea (d : Device) (block requester flags : Nat) : Device :=
  let n := chanOf d block / 2
  plumbEvent (dmcLog d 5 block requester flags 0) n block

/-! Regions (R302–R305). -/

/-- MEM_REGn_BASE and MEM_REGn_LIMIT. -/
def regionRegs (d : Device) (n : Nat) : Nat × Nat :=
  (reg d (0x4010400 + 8 * n) (if n = 0 then 0x80000000 else 0), reg d (0x4010404 + 8 * n) 0)

/-- Region n (1 to 63) is enabled and covers an address. -/
def regionCovers (d : Device) (n a : Nat) : Bool :=
  let (b, l) := regionRegs d n
  bitOf b 31 && decide (bitsOf b 17 0 * 2 ^ 20 ≤ a) && decide (a < (bitsOf l 17 0 + 1) * 2 ^ 20)

/-- The enabled region, 1 to 63, that covers an address, or 0 (R302). -/
def regionFor (d : Device) (a : Nat) : Nat := ((upto 1 63).find? (fun n => regionCovers d n a)).getD 0

/-- The address lies in a sealed region (R304). -/
def isSealedAddr (d : Device) (a : Nat) : Bool :=
  let n := regionFor d a
  n != 0 && bitOf (regionRegs d n).1 30

/-- The address lies in the MAC area, the last 1/32, of a sealed region (R304). -/
def inMacArea (d : Device) (a : Nat) : Bool :=
  let n := regionFor d a
  let (b, l) := regionRegs d n
  let lo := bitsOf b 17 0 * 2 ^ 20
  let size := (bitsOf l 17 0 + 1) * 2 ^ 20 - lo
  n != 0 && bitOf b 30 && decide (lo + size / 32 * 31 ≤ a)

/-- The key slot of an address: that of its region, 0 outside the regions (R302). -/
def regionSlot (d : Device) (a : Nat) : Nat :=
  let n := regionFor d a
  if n = 0 then 0 else bitsOf (regionRegs d n).2 29 24

/-- The key of a DRAM address has been zeroised by a tamper event (R451). -/
def keyGone (d : Device) (a : Nat) : Bool := !d.mem.zeroised.isEmpty && !onChip a && d.mem.zeroised.contains (regionSlot d a)

/-- The byte a read returns: the written one, 0 on chip, or a free value (R302, R303, R315), as every byte under a zeroised key (R451). -/
def byteAt (d : Device) (a : Nat) : Byte :=
  if keyGone d a then Config.freeByte d.draw a
  else match cellAt a d.mem.cells with
    | some b => b
    | none => Config.freeByte d.draw a

/-- n bytes from an address. -/
def bytesAt (d : Device) (a : Nat) : Nat → List Byte
  | 0 => []
  | n + 1 => byteAt d a :: bytesAt d (a + 1) n

/-- Some byte of the 256-byte unit at u has been written since its last wipe, by an access or by a save of Sleep. -/
def unitWritten (d : Device) (u : Nat) : Bool :=
  d.mem.cells.any (fun e => decide (u ≤ e.1) && decide (e.1 < u + 256)) ||
    d.mem.saved.any (fun r => decide (r.1 ≤ u) && decide (u < r.2))

/-! Accesses. -/

/-- Who makes an access: a requester number (R296) and, for requesters 38 and 39, the DMA channel (64 for none). -/
structure Req where
  id : Nat
  ch : Nat
  deriving DecidableEq, Repr

/-- A requester that is not a DMA channel. -/
def reqOf (n : Nat) : Req := { id := n, ch := 64 }

/-- Bank n's owner register. -/
def bankAt (d : Device) (n : Nat) : Bank := tget (Bank.reset n) n d.mem.banks

/-- Change a bank's owner register. -/
def setBank (d : Device) (n : Nat) (b : Bank) : Device :=
  { d with mem := { d.mem with banks := tset (Bank.reset n) n b d.mem.banks } }

/-- The requesters an owner code admits (R308). -/
def ownerAdmits (code : Nat) (r : Req) : Bool :=
  if code < 12 then r.id == 2 * code || r.id == 2 * code + 1
  else if 0x10 ≤ code ∧ code < 0x18 then r.id == 24 + (code - 0x10)
  else if code = 0x20 then r.id == 36 || r.id == 37
  else if 0x40 ≤ code ∧ code < 0x80 then
    r.ch == code - 0x40 && r.id == (if code - 0x40 < 32 then 38 else 39)
  else false

/-- The outcome of an access: performed, refused with an error response, or held until an owner change ends (R308). -/
inductive MemRes
  | ok | err | held
  deriving DecidableEq, Repr

/-- An ownership violation on a bank (32 stands for ABS): counted, logged, and the F1 event of R13. -/
def ashlarViolation (d : Device) (bank requester : Nat) : Device :=
  let d := { d with mem := { d.mem with violBank := bank, violReq := requester, viol := (d.mem.viol + 1) % 65536 } }
  plumbEvent d 440 (bank * 64 + requester)

/-- Aligned starts of the blocks of size k that n bytes from a touch. -/
def blocksOf (k a n : Nat) : List Nat := (upto (a / k) ((a + max n 1 - 1) / k + 1 - a / k)).map (· * k)

/-- DRAM side of an access: MAC area, uncorrectable blocks, MAC mismatches (R298, R304, R305). A full aligned write clears a
block's mark; a full 256-byte unit write clears a unit's. -/
def dramCheck (d : Device) (r : Req) (write : Bool) (a n : Nat) : Device × MemRes :=
  let fl := ofFlag write
  match (blocksOf 64 a n).find? (fun b => inMacArea d b) with
  | some b => (dmcMacArea d b r.id fl, .err)
  | none =>
    let whole := fun k b => write && decide (a ≤ b) && decide (b + k ≤ a + n)
    match (blocksOf 64 a n).find? (fun b => d.mem.badBlocks.contains b && !whole 64 b) with
    | some b => (dmcUncorrectable d b r.id fl (tget 0 b d.mem.syndromes), .err)
    | none =>
      match (blocksOf 256 a n).find? (fun u => isSealedAddr d u && !write &&
          (d.mem.badUnits.contains u || !unitWritten d u || keyGone d u)) with
      | some u => (dmcMac d u r.id fl, .err)
      | none =>
        if write then
          ({ d with mem := { d.mem with
               badBlocks := d.mem.badBlocks.filter (fun b => !whole 64 b || !(blocksOf 64 a n).contains b)
               badUnits := d.mem.badUnits.filter (fun u => !whole 256 u || !(blocksOf 256 a n).contains u) } }, .ok)
        else (d, .ok)

/-- Ashlar side of an access: ownership, an owner change in progress, uncorrectable words (R307, R308). -/
def ashlarCheck (d : Device) (r : Req) (bank : Nat) (write : Bool) (a n : Nat) : Device × MemRes :=
  let b := bankAt d bank
  if !ownerAdmits b.owner r then (ashlarViolation d bank r.id, .err)
  else if b.pending || b.wiping then (d, .held)
  else
    let whole := fun w => write && decide (a ≤ w) && decide (w + 8 ≤ a + n)
    match (blocksOf 8 a n).find? (fun w => d.mem.badWords.contains w && !whole w) with
    | some w => (plumbEvent d (112 + bank) (w % 0x400000), .err)
    | none =>
      (if write then
        { d with mem := { d.mem with
            badWords := d.mem.badWords.filter (fun w => !whole w || !(blocksOf 8 a n).contains w) } }
       else d, .ok)

/-- ABS serves only Keystone (32) and sealed contexts; while it is wiped, reads and writes fail (R311). -/
def absCheck (d : Device) (r : Req) (isSealed : Bool) : Device × MemRes :=
  if d.mem.absWiping then (d, .err)
  else if r.id == 32 || isSealed then (d, .ok)
  else (ashlarViolation d 32 r.id, .err)

/-- The Ashlar banks that n bytes from a touch. -/
def banksOf (a n : Nat) : List Nat := (blocksOf 0x400000 (a - 0x080000000000) n).map (· / 0x400000)

/-- An access of n bytes to Ashlar banks, each checked for its part; nothing is changed by an access that one of them refuses. -/
def ashlarSpan (d : Device) (r : Req) (write : Bool) (a n : Nat) : List Nat → Device × MemRes
  | [] => (d, .ok)
  | b :: rest =>
    let lo := max a (0x080000000000 + b * 0x400000)
    let hi := min (a + n) (0x080000400000 + b * 0x400000)
    match ashlarCheck d r b write lo (hi - lo) with
    | (e, .ok) =>
      (match ashlarSpan e r write a n rest with
       | (f, .ok) => (f, .ok)
       | (f, res) => ({ f with mem := { f.mem with badWords := d.mem.badWords } }, res))
    | x => x

/-- Whether an access of n bytes that starts in one range and ends in another is performed. -/
def memAdmit (d : Device) (r : Req) (isSealed write : Bool) (a n : Nat) (first last : Region) : Device × MemRes :=
  match first with
  | .dram => if a + n ≤ usableBytes d then dramCheck d r write a n else (d, .err)
  | .ashlar _ =>
    (match last with
     | .ashlar _ => ashlarSpan d r write a n (banksOf a n)
     | _ => (d, .err))
  | .abs => if last = .abs then absCheck d r isSealed else (d, .err)
  | .ce => if last = .ce then (d, .ok) else (d, .err)
  | .ctl => (d, .err)
  | .unmapped => (d, .err)

/-- Whether an access of n bytes is performed, with the events it raises (R9, R13, R298–R308). Control registers are not
memory: a unit's access to them receives an error response here. The only unit accesses that R32 admits are those to progress words, which
`progressPut` and `progressGet` make; what else a unit reaches by address lies in buffers or is wider than 8 bytes. -/
def memCheck (d : Device) (r : Req) (isSealed write : Bool) (a n : Nat) : Device × MemRes :=
  memAdmit d r isSealed write a n (regionOf d a) (regionOf d (a + n - 1))

/-- Read n bytes as a requester. -/
def memRead (d : Device) (r : Req) (isSealed : Bool) (a n : Nat) : Device × MemRes × List Byte :=
  let (d, res) := memCheck d r isSealed false a n
  if res = .ok then (perfBytes d r.id false n, .ok, bytesAt d a n) else (d, res, [])

/-- Write bytes as a requester. -/
def memWrite (d : Device) (r : Req) (isSealed : Bool) (a : Nat) (bs : List Byte) : Device × MemRes :=
  let (d, res) := memCheck d r isSealed true a bs.length
  if res = .ok then (withCells (perfBytes d r.id true bs.length) (setCells a bs d.mem.cells), .ok) else (d, res)

end Sys2Proof.Machine
end

