-- ==== Sys2Proof/Machine/Yard.lean ====
section
/-! DEFINITION. The buffer Yard (R312–R322): pools, handles, allocation, free, transfer, holds and low water. -/

namespace Sys2Proof.Machine

/-- YARD_POOLn_CFG; LOG2 resets to 12. -/
def poolCfg (d : Device) (n : Nat) : Nat := reg d (0x600100 + 16 * n) (12 * 2 ^ 25)

/-- Pool n is enabled. -/
def poolEn (d : Device) (n : Nat) : Bool := bitOf (poolCfg d n) 31

/-- Buffers of pool n. -/
def poolCount (d : Device) (n : Nat) : Nat := bitsOf (poolCfg d n) 20 0

/-- log2 of pool n's buffer size. -/
def poolLog (d : Device) (n : Nat) : Nat := bitsOf (poolCfg d n) 29 25

/-- Device address of pool n's first buffer. -/
def poolBase (d : Device) (n : Nat) : Nat := bitsOf (reg d (0x600104 + 16 * n) 0) 25 0 * 4096

/-- LOW_WATER of pool n. -/
def poolLow (d : Device) (n : Nat) : Nat := bitsOf (reg d (0x60010C + 16 * n) 0) 20 0

/-- First global index of pool n (R313). -/
def poolFirst (d : Device) (n : Nat) : Nat :=
  ((upto 0 n).filter (poolEn d)).foldl (fun s k => s + poolCount d k) 0

/-- Number of buffers of all enabled pools (R312). -/
def yardTotal (d : Device) : Nat := poolFirst d 16

/-- The pool that holds a buffer index. -/
def poolOf (d : Device) (i : Nat) : Nat :=
  ((upto 0 16).find? (fun n => poolEn d n && decide (poolFirst d n ≤ i) &&
    decide (i < poolFirst d n + poolCount d n))).getD 0

/-- Size in bytes of a buffer. -/
def bufSize (d : Device) (i : Nat) : Nat := 2 ^ poolLog d (poolOf d i)

/-- Device address of a buffer. -/
def bufBase (d : Device) (i : Nat) : Nat :=
  poolBase d (poolOf d i) + (i - poolFirst d (poolOf d i)) * bufSize d i

/-- A buffer context. -/
def bufAt (d : Device) (i : Nat) : Buf := tget Buf.reset i d.yard.bufs

/-- Change a buffer context. -/
def setBuf (d : Device) (i : Nat) (b : Buf) : Device :=
  { d with yard := { d.yard with bufs := tset Buf.reset i b d.yard.bufs } }

/-- The index a handle names (R313). -/
def handleIdx (h : Nat) : Nat := h % 2 ^ 20

/-- The generation a handle carries (R313). -/
def handleGen (h : Nat) : Nat := h / 2 ^ 20 % 4096

/-- The handle of buffer i at a generation. -/
def mkHandle (i gen : Nat) : Nat := gen * 2 ^ 20 + i

/-- The generation check of R318 step 1; generation 0 never names a buffer (R313). -/
def handleCurrent (d : Device) (h : Nat) : Bool :=
  decide (handleIdx h < yardTotal d) && handleGen h != 0 && (bufAt d (handleIdx h)).gen == handleGen h

/-- Owner code of a stream context and of a host function (R39). -/
def ctxOwner (c : Nat) : Nat := c

/-- Owner code of a host function (R39). -/
def funcOwner (f : Nat) : Nat := 0x8000 + f

/-- The owner values R39 allows. -/
def ownerOk (o : Nat) : Bool := decide (o < 512) || (decide (0x8000 ≤ o) && decide (o < 0x8010))

/-- The generation check, then the owner check (R14): 0, 0x43 or 0x42. -/
def handleStatus (d : Device) (owner h : Nat) : Nat :=
  if !handleCurrent d h then 0x43
  else
    let b := bufAt d (handleIdx h)
    if b.st = .owned ∧ b.owner = owner then 0 else 0x42

/-- The buffer context word of R314. -/
def bufWord (d : Device) (i : Nat) : Nat :=
  let b := bufAt d i
  let st := match b.st with | .free => 0 | .owned => 1 | .held => 2 | .ring => 3
  b.epoch * 2 ^ 40 + poolOf d i * 2 ^ 36 + st * 2 ^ 34 + b.owner * 2 ^ 16 + b.gen

/-- Buffers of pool n that are not free. -/
def poolUsed (d : Device) (n : Nat) : Nat :=
  let lo := poolFirst d n
  (d.yard.bufs.filter (fun e => decide (lo ≤ e.1) && decide (e.1 < lo + poolCount d n) && e.2.st != .free)).length

/-- Buffers in pool n's free bitmap, YARD_POOLn_STAT.FREE. -/
def poolFree (d : Device) (n : Nat) : Nat := if poolEn d n then poolCount d n - poolUsed d n else 0

/-- Keep LOW of pool n (R317): set with its interrupt when the free count lies below LOW_WATER, cleared otherwise. -/
def lowUpdate (d : Device) (n : Nat) : Device :=
  if d.yard.en && poolEn d n && decide (poolFree d n < poolLow d n) then
    if d.yard.low.contains n then d
    else intcEvent { d with yard := { d.yard with low := sadd n d.yard.low } } (96 + n)
  else { d with yard := { d.yard with low := sdel n d.yard.low } }

/-- The lowest index from lo on, of count, whose buffer is free; the table's keys rise. -/
def firstFree (lo count : Nat) : Table Buf → Option Nat
  | [] => if 0 < count then some lo else none
  | (k, b) :: r =>
    if count = 0 then none
    else if k < lo then firstFree lo count r
    else if lo < k then some lo
    else if b.st = .free then some lo
    else firstFree (lo + 1) (count - 1) r

/-- The next wipe epoch (R314). -/
def nextEpoch (e : Nat) : Nat := if 0xFFFFFF ≤ e then 1 else e + 1

/-- The next generation (R313). -/
def nextGen (g : Nat) : Nat := if 4095 ≤ g then 1 else g + 1

/-- Take buffer i for an owner (R315 step 4): the generation and the epoch advance, and its contents are wiped (R303). -/
def takeBuf (d : Device) (i owner : Nat) : Device :=
  let b := bufAt d i
  let d := setBuf d i { b with st := .owned, owner := owner, gen := nextGen b.gen, epoch := nextEpoch b.epoch, wipe := false }
  lowUpdate (wipeRange d (bufBase d i) (bufBase d i + bufSize d i)) (poolOf d i)

/-- A free buffer of one of the given pools, in their order. -/
def findIn (d : Device) : List Nat → Option Nat
  | [] => none
  | n :: r =>
    match firstFree (poolFirst d n) (poolCount d n) d.yard.bufs with
    | some i => some i
    | none => findIn d r

/-- Enabled pools of buffer size 2^l, in increasing number. -/
def poolsOfLog (d : Device) (l : Nat) : List Nat := (upto 0 16).filter (fun n => poolEn d n && poolLog d n == l)

/-- The buffer an allocation of s bytes takes (R315 steps 1–3). -/
def pickBuf (d : Device) (s : Nat) : Option Nat :=
  let s := max s 1
  if !d.yard.en then none
  else
    match (upto 12 19).find? (fun l => decide (s ≤ 2 ^ l) && (poolsOfLog d l) ≠ []) with
    | none => none
    | some l =>
      match findIn d (poolsOfLog d l) with
      | some i => some i
      | none =>
        match poolsOfLog d l with
        | n :: _ => if bitOf (poolCfg d n) 30 then findIn d ((upto (l + 1) (30 - l)).flatMap (poolsOfLog d)) else none
        | [] => none

/-- Allocate s bytes for an owner (R315): the handle, or none for 0x40 POOL_EMPTY. -/
def yardAlloc (d : Device) (owner s : Nat) : Device × Option Nat :=
  match pickBuf d s with
  | none => (d, none)
  | some i =>
    let d := takeBuf d i owner
    (d, some (mkHandle i (bufAt d i).gen))

/-- A buffer returns to its pool (R319); a wipe by key rotation advances its epoch. Memory that no allocated buffer covers is read under
epoch 0, so what was written in the buffer cannot be read any more (R303). -/
def returnBuf (d : Device) (i : Nat) (wipe : Bool) : Device :=
  let b := bufAt d i
  let d := setBuf d i { b with st := .free, wipe := false, epoch := if wipe then nextEpoch b.epoch else b.epoch }
  lowUpdate (wipeRange d (bufBase d i) (bufBase d i + bufSize d i)) (poolOf d i)

/-- Free buffer i: to its pool, or HELD while accepted work or Mortar holds it (R318, R319). -/
def releaseBuf (d : Device) (i : Nat) (wipe : Bool) : Device :=
  let b := bufAt d i
  if b.holds = 0 then returnBuf d i wipe
  else setBuf d i { b with st := .held, wipe := wipe || b.wipe }

/-- Hold a buffer for accepted work (R15). -/
def holdBuf (d : Device) (i : Nat) : Device :=
  let b := bufAt d i
  setBuf d i { b with holds := b.holds + 1 }

/-- Work that held a buffer ends (R319): a HELD buffer with no holder left returns to its pool. -/
def unholdBuf (d : Device) (i : Nat) : Device :=
  let b := bufAt d i
  let d := setBuf d i { b with holds := b.holds - 1 }
  if b.st = .held ∧ b.holds ≤ 1 then returnBuf d i b.wipe else d

/-- Release holds on several buffers. -/
def unholdAll (d : Device) (l : List Nat) : Device := l.foldl unholdBuf d

/-- The Plumb F1 event of a Yard refusal (R13, R318): source 439 with the handle or the refused address. -/
def yardEvent (d : Device) (detail : Nat) : Device := plumbEvent d 439 detail

/-- A load ends without success (R60): EMPTY, the status, the buffer released from its hold, load done. -/
def loadFail (d : Device) (c status : Nat) : Device :=
  let x := ctxAt d c
  let d := match x.load with | some l => unholdBuf d (handleIdx l.handle) | none => d
  intcEvent (setCtx d c { x with st := .empty, load := none, loadStatus := status }) (72 + c / 64)

/-- Contexts whose load reads a buffer. -/
def loadersOf (d : Device) (i : Nat) : List Nat :=
  (d.ctxs.map (·.1)).filter (fun c => match (ctxAt d c).load with | some l => handleIdx l.handle == i | none => false)

/-- Step 2 of R60 fails for every load of a buffer at the moment its owner frees or transfers it. -/
def loseLoads (d : Device) (h : Nat) : Device :=
  (loadersOf d (handleIdx h)).foldl (fun d c => loadFail (yardEvent d h) c 0x42) d

/-- Free a buffer for a requester (R318): status 0x00, 0x41, 0x42 or 0x43. -/
def yardFree (d : Device) (owner h : Nat) : Device × Nat :=
  let i := handleIdx h
  let b := bufAt d i
  if !handleCurrent d h then (yardEvent d h, 0x43)
  else if b.st = .free ∨ b.st = .held then (yardEvent d h, 0x41)
  else if b.st ≠ .owned ∨ b.owner ≠ owner then (yardEvent d h, 0x42)
  else (loseLoads (releaseBuf d i false) h, 0)

/-- Transfer a buffer to another owner (R318). -/
def yardXfer (d : Device) (owner h dest : Nat) : Device × Nat :=
  let i := handleIdx h
  let b := bufAt d i
  if !handleCurrent d h then (yardEvent d h, 0x43)
  else if b.st ≠ .owned ∨ b.owner ≠ owner then (yardEvent d h, 0x42)
  else if !ownerOk dest then (yardEvent d h, 0x42)
  else if dest = owner then (d, 0)
  else (loseLoads (setBuf d i { b with owner := dest }) h, 0)

/-- The allocated buffer that covers a DRAM address, if any (R16). -/
def bufCovering (d : Device) (a : Nat) : Option Nat :=
  match (upto 0 16).find? (fun n => poolEn d n && decide (poolBase d n ≤ a) &&
      decide (a < poolBase d n + poolCount d n * 2 ^ poolLog d n)) with
  | some n => if d.yard.en then some (poolFirst d n + (a - poolBase d n) / 2 ^ poolLog d n) else none
  | none => none

/-- The window check of R321 for an owner code. -/
def windowOk (d : Device) (owner a : Nat) : Bool :=
  match bufCovering d a with
  | some i => let b := bufAt d i; b.st == .owned && b.owner == owner
  | none => false

/-- The window check on every buffer that n bytes from a touch (R8, R321): a buffer is 4 KiB or more, so the first and the last byte
tell. -/
def windowCovers (d : Device) (owner a n : Nat) : Bool := windowOk d owner a && windowOk d owner (a + n - 1)

/-- A refused window access (R322, R13): counted, logged, and its F1 event. -/
def windowRefused (d : Device) (write holt : Bool) (who a : Nat) : Device :=
  let d := { d with yard := { d.yard with
    winCount := (d.yard.winCount + 1) % 65536, winWrite := write, winHolt := holt, winWho := who, winAddr := a } }
  yardEvent d a

/-- Two enabled pools overlap. -/
def poolsOverlap (d : Device) (a b : Nat) : Bool :=
  let lo := fun n => poolBase d n
  let hi := fun n => poolBase d n + poolCount d n * 2 ^ poolLog d n
  decide (lo a < hi b) && decide (lo b < hi a)

/-- The checks of R312 on the enabled pools. -/
def yardChecks (d : Device) : Bool :=
  let ps := (upto 0 16).filter (poolEn d)
  ps.all (fun n => decide (1 ≤ poolCount d n) && decide (12 ≤ poolLog d n) && decide (poolLog d n ≤ 30) &&
      decide (poolBase d n % 2 ^ poolLog d n = 0) &&
      decide (poolBase d n + poolCount d n * 2 ^ poolLog d n ≤ usableBytes d) &&
      ps.all (fun m => m == n || !poolsOverlap d n m)) &&
    decide (yardTotal d ≤ 1048576)

/-- A write of YARD_CTRL.EN = 1 (R312): enable after the checks, or ERR. -/
def yardEnable (d : Device) : Device :=
  if d.yard.en then d
  else if yardChecks d then
    (upto 0 16).foldl lowUpdate { d with yard := { d.yard with en := true } }
  else { d with yard := { d.yard with err := true } }

/-- Yard host registers of a function. -/
def yardHost (d : Device) (f : Nat) : YardHost :=
  tget { size := 0, xferOwner := 0, op := 0, status := 0 } f d.yard.hosts

/-- Change the Yard host registers of a function. -/
def setYardHost (d : Device) (f : Nat) (x : YardHost) : Device :=
  { d with yard := { d.yard with hosts := tset { size := 0, xferOwner := 0, op := 0, status := 0 } f x d.yard.hosts } }

/-- Record the outcome of function f's last Yard request (R320). -/
def yardOutcome (d : Device) (f op st : Nat) : Device := setYardHost d f { yardHost d f with op := op, status := st }

/-- A read of YARD_ALLOC by function f (R320): the handle, or 0. -/
def hostAlloc (d : Device) (f : Nat) : Device × Nat :=
  match yardAlloc d (funcOwner f) (yardHost d f).size with
  | (d, some h) => (yardOutcome d f 1 0, h)
  | (d, none) => (yardOutcome d f 1 0x40, 0)

/-- A write of YARD_FREE by function f (R320). -/
def hostFree (d : Device) (f h : Nat) : Device :=
  let (d, st) := yardFree d (funcOwner f) h
  yardOutcome d f 2 st

/-- A write of YARD_XFER by function f (R320). -/
def hostXfer (d : Device) (f h : Nat) : Device :=
  let (d, st) := yardXfer d (funcOwner f) h (yardHost d f).xferOwner
  yardOutcome d f 3 st

end Sys2Proof.Machine
end

