-- ==== Sys2Proof/Machine/Wo.lean ====
section
/-! DEFINITION. Tickets (R41, R44, R65), the fields of a work order (R72), its end by a record or by discard (R81, R85,
R90), and a context that becomes EMPTY (R64). -/

namespace Sys2Proof.Machine

/-- A list made exactly n bytes long: cut, or filled with zeros. -/
def padTo (n : Nat) (l : List Byte) : List Byte := (l ++ List.replicate n 0).take n

/-! Tickets. -/

/-- A ticket slot's entry holds an outstanding ticket. -/
def tkOpen (e : Nat × Ticket) : Bool := !e.2.ended

/-- TK_COUNT of a context (R26, R44). -/
def tkCount (d : Device) (c : Nat) : Nat := (d.tickets.filter (fun e => tkOpen e && e.2.ctx == c)).length

/-- MASON_STAT.TK_USED of a core (R62). -/
def tkUsed (d : Device) (m : Nat) : Nat := (d.tickets.filter (fun e => tkOpen e && e.1 / 128 == m)).length

/-- The slot entry that holds a ticket value. -/
def tkFind (d : Device) (v : Nat) : Option (Nat × Ticket) := d.tickets.find? (fun e => e.2.value == v)

/-- The ticket result of R41 for a context. -/
def tkResult (d : Device) (c v : Nat) : Nat :=
  match tkFind d v with
  | some (_, t) => if t.ctx = c then (if t.ended then 256 + t.status % 256 else 0) else 512
  | none => 512

/-- A slot of core m that holds no outstanding ticket, searched from a free place on (R65: software learns nothing from
it). -/
def pickSlot (d : Device) (m : Nat) : Nat :=
  ((upto 0 128).map (fun i => m * 128 + (free d 10 + i) % 128)).find? (fun k =>
    match tfind k d.tickets with | some t => t.ended | none => true) |>.getD (m * 128)

/-- A ticket value below 0xFFFF_F000 that no slot holds (R43, R65, R87). -/
def pickValue (d : Device) : Nat :=
  ((upto 0 1025).map (fun i => (free d 11 + i) % 0xFFFFF000)).find? (fun v => (tkFind d v).isNone) |>.getD
    (free d 11 % 0xFFFFF000)

/-- Issue a ticket to context c (R43). -/
def issueTicket (d : Device) (c : Nat) : Device × Nat :=
  let v := pickValue d
  ({ d with tickets := tput (pickSlot d (c / 64)) { value := v, ctx := c, ended := false, status := 0 } d.tickets }, v)

/-! Contexts that become EMPTY. -/

/-- MT_ASSIGN of context c. -/
def mtAssign (d : Device) (c : Nat) : Nat := reg d (0x3001000 + c / 64 * 0x100000 + c % 64 * 0x40) 7

/-- MT_ASSIGN.FUNC of context c. -/
def assignFunc (d : Device) (c : Nat) : Nat := bitsOf (mtAssign d c) 19 16

/-- Some output of Mortar still shows or repeats buffer i from a COMP of context c, or writes it back (R64, R249). -/
def shownOf (d : Device) (c i : Nat) : Bool :=
  d.mortar.outs.any (fun e =>
    let o := e.2
    let layer := fun (l : Layer) => l.ctx == c && l.bufIdx == i
    let prog := fun (p : FrameProg) => p.layers.any layer || (p.ctx == c && p.wbBuf == some i)
    o.held.contains i && (o.shown.any (fun l => layer l.2) || o.prog.toList.any prog || o.prev.any (fun e => prog e.1)))

/-- One buffer of a context that becomes EMPTY (R64): one that Mortar shows from its COMP becomes HELD; of a sealed context they are freed
and wiped; otherwise they pass to the function of MT_ASSIGN.FUNC. `wipe` says that the context is sealed or its function is being reset
(R89). -/
def leaveBuf (isSealed wipe : Bool) (c f : Nat) (d : Device) (i : Nat) : Device :=
  if isSealed ∨ shownOf d c i then releaseBuf d i wipe
  else setBuf d i { bufAt d i with owner := funcOwner f }

/-- Indices of the buffers a party owns. -/
def ownedBufs (d : Device) (owner : Nat) : List Nat :=
  (d.yard.bufs.filter (fun e => e.2.st == .owned && e.2.owner == owner)).map (·.1)

/-- A context that was loaded enters EMPTY (R64). Under an FLR of its function the buffers returned to their pools are counted (R91). -/
def contextEmpty (d : Device) (c : Nat) : Device :=
  let x := ctxAt d c
  let l := ownedBufs d (ctxOwner c)
  let busy := funcBusy d x.func
  let n := (l.filter (fun i => x.isSealed && (bufAt d i).holds == 0)).length
  let d := l.foldl (leaveBuf x.isSealed (x.isSealed || busy) c (assignFunc d c)) d
  let d := if busy then setFunc d x.func { funcAt d x.func with buffers := (funcAt d x.func).buffers + n } else d
  setCtx d c { x with st := .empty, isSealed := false, prio := 0, prioMax := 0, tkLimit := 0, image := none, wait := none }

/-- A ticket ends with a status (R44, R90); a DRAINING context whose last ticket ends becomes EMPTY (R55). -/
def endTicket (d : Device) (v status : Nat) : Device :=
  match d.tickets.find? (fun e => tkOpen e && e.2.value == v) with
  | none => d
  | some (k, t) =>
    let d := { d with tickets := tput k { t with ended := true, status := status } d.tickets }
    if (ctxAt d t.ctx).st = .draining ∧ tkCount d t.ctx = 0 then contextEmpty d t.ctx else d

/-! Work orders. -/

/-- The code of a type (R73). -/
def kindCode : WoKind → Nat
  | .enc => 1 | .encr => 2 | .dec => 3 | .vfy => 4 | .ana => 5 | .pix => 6 | .comp => 7 | .dma => 8 | .seal => 9
  | .magw => 10 | .nettx => 11 | .ingest => 12 | .keyop => 13

/-- An outstanding work order. -/
def woAt (d : Device) (t : Nat) : Option WorkOrder := d.wos.find? (fun w => w.ticket == t)

/-- Change the work order of a ticket. -/
def modWo (d : Device) (t : Nat) (f : WorkOrder → WorkOrder) : Device :=
  { d with wos := d.wos.map (fun w => if w.ticket = t then f w else w) }

/-- Take the work order of a ticket away. -/
def dropWo (d : Device) (t : Nat) : Device := { d with wos := d.wos.filter (fun w => w.ticket ≠ t) }

/-- The field of size n at offset o of a work order (R72). -/
def woField (w : WorkOrder) (o n : Nat) : Nat := fieldAt w.raw o n

/-- DL_MODE. -/
def woDlMode (w : WorkOrder) : Nat := woField w 3 1

/-- COMP_RING. -/
def woRing (w : WorkOrder) : Nat := woField w 4 2

/-- FLAGS bit 0: NO_INTERIM. -/
def woNoInterim (w : WorkOrder) : Bool := bitOf (woField w 6 2) 0

/-- FLAGS bit 1: NO_CANCEL. -/
def woNoCancel (w : WorkOrder) : Bool := bitOf (woField w 6 2) 1

/-- DEADLINE. -/
def woDeadline (w : WorkOrder) : Nat := woField w 8 8

/-- HANDLEi. -/
def woHandle (w : WorkOrder) (i : Nat) : Nat := woField w (24 + 4 * i) 4

/-- A record of R79 with TIME still 0; COMPLETION_RECORD_WRITE fills it. -/
def recBytes (ticket status func unit flags : Nat) (result : List Byte) : List Byte :=
  leBytes 4 ticket ++ leBytes 1 status ++ leBytes 1 func ++ leBytes 1 unit ++ leBytes 1 flags ++ leBytes 8 0 ++
    padTo 16 result

/-- A record with its TIME field written. -/
def stampRec (r : List Byte) (time : Nat) : List Byte := r.take 8 ++ leBytes 8 time ++ r.drop 16

/-- A record with its phase bit, bit 7 of byte 7, written (R326). -/
def phaseRec (r : List Byte) (phase : Bool) : List Byte :=
  r.take 7 ++ leBytes 1 (fieldAt r 7 1 % 128 + 128 * ofFlag phase) ++ r.drop 8

/-- Free the holds of ended work, end its ticket, and forget it (R15, R44, R81). -/
def endWork (d : Device) (t status : Nat) : Device :=
  match woAt d t with
  | some w => endTicket (unholdAll (dropWo d t) w.holds) t status
  | none => endTicket d t status

/-- Count a discarded record of function f (R91). -/
def countDiscard (d : Device) (f : Nat) : Device :=
  let x := funcAt d f
  setFunc d f { x with discarded := x.discarded + 1 }

/-- End a work order by discard (R90): its final record counts as discarded, its ticket reports 0x11. -/
def discardWo (d : Device) (w : WorkOrder) : Device :=
  let d := countDiscard d w.func
  let x := funcAt d w.func
  endWork (setFunc d w.func { x with cancelled := x.cancelled + ofFlag w.counted }) w.ticket 0x11

/-- The status of an abort (R85). -/
def abortStatus : AbortReq → Nat
  | .function => 0x11
  | .cancel => 0x10
  | .deadline => 0x12

/-- Of the status that ends a work order and an abort that waits for its boundary, the one that ranks first (R85): the abort ranks before
every error. -/
def rankStatus (w : WorkOrder) (status : Nat) : Nat :=
  match w.abort with
  | some a => if 0x20 ≤ status then abortStatus a else status
  | none => status

/-- A unit ends a work order with a status, flags and a result (R81, R85): its final record waits for its ring. Under
an FLR of its function the record is discarded instead (R90). -/
def finishWo (d : Device) (t status flags : Nat) (result : List Byte) : Device :=
  match woAt d t with
  | none => d
  | some w =>
    if w.phase = .ending then d
    else if funcBusy d w.func then discardWo d w
    else
      let status := rankStatus w status
      let d := modWo d t (fun w => { w with phase := .ending })
      { d with
        cancelDone := if status = 0x10 then satAdd 0xFFFF d.cancelDone 1 else d.cancelDone
        recs := d.recs ++ [{ ticket := t, ring := woRing w, func := w.func, final := true,
                             data := recBytes t status w.func w.low (flags % 32) result }] }

/-- A unit produces an interim record of a standing work order (R17), unless NO_INTERIM. -/
def interimWo (d : Device) (t status flags : Nat) (result : List Byte) : Device :=
  match woAt d t with
  | none => d
  | some w =>
    if w.phase = .ending ∨ woNoInterim w then d
    else if funcBusy d w.func then countDiscard d w.func
    else { d with recs := d.recs ++ [{ ticket := t, ring := woRing w, func := w.func, final := false,
                                       data := recBytes t status w.func w.unit (flags % 32 ||| 2) result }] }

/-- A work order that has been accepted and not yet ended. -/
def woLive (w : WorkOrder) : Bool := w.phase == .queued || w.phase == .running || w.phase == .suspended

/-- The order of R75 within a unit's queue: effective priority, then earliest deadline, then acceptance. -/
def woBefore (a b : WorkOrder) : Bool :=
  let key := fun w => if woDeadline w = 0 then 2 ^ 64 else woDeadline w
  if a.effPrio ≠ b.effPrio then decide (b.effPrio < a.effPrio)
  else if key a ≠ key b then decide (key a < key b)
  else decide (a.seq < b.seq)

/-- No queued work order with a property goes before w (R75). -/
def woFirst (d : Device) (p : WorkOrder → Bool) (w : WorkOrder) : Bool :=
  d.wos.all (fun v => !(v.phase == .queued && p v && v.ticket != w.ticket && woBefore v w))

/-- A read made for a unit on behalf of a context's work: a unit's requester never names a sealed context, so ABS stays
closed to it (R13). -/
def unitRead (d : Device) (req a n : Nat) : Device × Option (List Byte) :=
  match memRead d (reqOf req) false a n with
  | (d, .ok, bs) => (d, some bs)
  | (d, _, _) => (d, none)

/-- A write made for a unit: true when it was performed. -/
def unitWrite (d : Device) (req a : Nat) (bs : List Byte) : Device × Bool :=
  match memWrite d (reqOf req) false a bs with
  | (d, .ok) => (d, true)
  | (d, _) => (d, false)

/-- Bytes of a buffer held by accepted work. -/
def bufRead (d : Device) (req h off n : Nat) : Device × Option (List Byte) :=
  let i := handleIdx h
  if off + n ≤ bufSize d i then unitRead d req (bufBase d i + off) n else (d, none)

/-- Write bytes into a buffer held by accepted work. -/
def bufWrite (d : Device) (req h off : Nat) (bs : List Byte) : Device × Bool :=
  let i := handleIdx h
  if off + bs.length ≤ bufSize d i then unitWrite d req (bufBase d i + off) bs else (d, false)

end Sys2Proof.Machine
end

