-- ==== Sys2Proof/Machine/Surface.lean ====
section
/-! DEFINITION. Surfaces (R82, R83) and the dressed format (R231–R238): where samples lie, reading and writing planes. -/

namespace Sys2Proof.Machine

/-- A plane of a surface: samples in a row, rows, byte offset in the buffer, pitch. -/
structure Plane where
  w : Nat
  h : Nat
  off : Nat
  pitch : Nat
  deriving DecidableEq, Repr

/-- Samples of a plane, row by row. -/
abbrev Rows := List (List Nat)

/-- A sample of a plane. -/
def px (r : Rows) (x y : Nat) : Nat := ((r[y]?.getD [])[x]?).getD 0

/-- A sample of a plane: beyond its edges the last column and row repeat (R100). -/
def padPx (r : Rows) (x y : Nat) : Nat := px r (min x ((r.headD []).length - 1)) (min y (r.length - 1))

/-- Rows of w × h samples from their values. -/
def genRows (w h : Nat) (f : Nat → Nat → Nat) : Rows := (upto 0 h).map (fun y => (upto 0 w).map (fun x => f x y))

/-- HANDLE. -/
def sfHandle (s : List Byte) : Nat := fieldAt s 0 4

/-- WIDTH. -/
def sfWidth (s : List Byte) : Nat := fieldAt s 12 2

/-- HEIGHT. -/
def sfHeight (s : List Byte) : Nat := fieldAt s 14 2

/-- FORMAT. -/
def sfFormat (s : List Byte) : Nat := fieldAt s 16 1

/-- LAYOUT: 0 LINEAR, 1 TILED64, 2 DRESSED. -/
def sfLayout (s : List Byte) : Nat := fieldAt s 17 1

/-- CFA. -/
def sfCfa (s : List Byte) : Nat := fieldAt s 18 1

/-- AUX_OFF. -/
def sfAux (s : List Byte) : Nat := fieldAt s 32 4

/-- TIME. -/
def sfTime (s : List Byte) : Nat := fieldAt s 48 8

/-- FRAME. -/
def sfFrame (s : List Byte) : Nat := fieldAt s 56 4

/-- Bits of a sample of a format; 0 for a code that R83 does not list. -/
def fmtDepth (f : Nat) : Nat :=
  if f = 0x10 ∨ f = 0x11 then 10 else if f = 0x03 ∨ f = 0x12 then 12
  else if [0x01, 0x02, 0x13, 0x20, 0x21, 0x30].contains f then 16 else 0

/-- A mosaic format. -/
def isCfa (f : Nat) : Bool := f == 0x02 || f == 0x03

/-- A format of one component: MONO16 or A16. -/
def isMono (f : Nat) : Bool := f == 0x01 || f == 0x30

/-- Horizontal and vertical chroma division of the formats with three planes. -/
def fmtChroma (f : Nat) : Option (Nat × Nat) :=
  if f = 0x10 then some (2, 2) else if f = 0x11 then some (2, 1)
  else if f = 0x12 ∨ f = 0x13 ∨ f = 0x20 then some (1, 1) else none

/-- The planes of a surface; RGBA16 is one plane of four samples a pixel. -/
def sfPlanes (s : List Byte) : List Plane :=
  let w := sfWidth s
  let h := sfHeight s
  { w := if sfFormat s = 0x21 then 4 * w else w, h := h, off := fieldAt s 4 4, pitch := fieldAt s 8 4 } ::
    match fmtChroma (sfFormat s) with
    | some (dx, dy) => [20, 24].map (fun o => { w := w / dx, h := h / dy, off := fieldAt s o 4, pitch := fieldAt s 36 4 })
    | none => []

/-- Plane k. -/
def sfPlane (s : List Byte) (k : Nat) : Plane := ((sfPlanes s)[k]?).getD { w := 0, h := 0, off := 0, pitch := 0 }

/-- Full tile columns and rows of a dressed plane (R231). -/
def Plane.tiles (p : Plane) : Nat × Nat := (p.w / 64, p.h / 4)

/-- Bytes a row, or row of tiles, of a plane needs. -/
def rowNeed (layout : Nat) (p : Plane) : Nat :=
  if layout = 0 then 2 * p.w else if layout = 1 then (p.w + 63) / 64 * 8192 else 8 * p.w

/-- Bytes of the header sections of planes before plane k (R232). -/
def auxBefore (s : List Byte) (k : Nat) : Nat :=
  ((sfPlanes s).take k).foldl (fun n p => n + 3 * (p.tiles.1 * p.tiles.2)) 0

/-- First byte after a plane's payload. -/
def planeEnd (layout : Nat) (p : Plane) : Nat :=
  if layout = 0 then p.off + p.h * p.pitch
  else if layout = 1 then p.off + (p.h + 63) / 64 * p.pitch
  else p.off + p.h / 4 * p.pitch + p.h % 4 * p.w * 2

/-- The fields of a descriptor as R82 and R83 allow them (R77 step 5). A pitch smaller than the bytes a row, or a row of tiles, needs is refused
here too (DESIGN CHOICE, log entry 74: the spec states no smallest pitch of a LINEAR or TILED64 surface). -/
def sfOk (s : List Byte) : Bool :=
  let l := sfLayout s
  let align := if l = 0 then 64 else 4096
  let extra := (sfPlanes s).length
  decide (16 ≤ sfWidth s) && decide (sfWidth s ≤ 20480) && decide (sfWidth s % 2 = 0) &&
    decide (16 ≤ sfHeight s) && decide (sfHeight s ≤ 8704) && decide (sfHeight s % 2 = 0) &&
    fmtDepth (sfFormat s) != 0 && decide (l ≤ 2) &&
    (if isCfa (sfFormat s) then decide (sfCfa s ≤ 3) else sfCfa s == 0) &&
    zeroAt s 19 1 && zeroAt s 44 4 && zeroAt s 60 4 && (l == 2 || sfAux s == 0) && decide (fieldAt s 8 4 % 64 = 0) &&
    (sfPlanes s).all (fun p => decide (p.off % align = 0) && decide (rowNeed l p ≤ p.pitch)) &&
    (decide (3 ≤ extra) || (fieldAt s 20 4 == 0 && fieldAt s 24 4 == 0)) && fieldAt s 28 4 == 0

/-- Every plane, and the header table of a dressed surface, lies within the buffer (R77 step 6). A handle of generation 0 names no buffer
(R72), so nothing lies within it. -/
def sfFits (d : Device) (s : List Byte) : Bool :=
  let size := bufSize d (handleIdx (sfHandle s))
  handleGen (sfHandle s) != 0 && (sfPlanes s).all (fun p => decide (planeEnd (sfLayout s) p ≤ size)) &&
    (sfLayout s != 2 || decide (sfAux s + auxBefore s 4 ≤ size))

/-- Byte offset of a sample of a LINEAR or TILED64 plane. -/
def sampleOff (layout : Nat) (p : Plane) (x y : Nat) : Nat :=
  if layout = 0 then p.off + y * p.pitch + 2 * x
  else p.off + y / 64 * p.pitch + x / 64 * 8192 + (y % 64 * 64 + x % 64) * 2

/-! The dressed format (R231–R235). -/

/-- The bits of a byte string, most significant first in each byte (R233). -/
def bitsOfBytes (l : List Byte) : List Bool := l.flatMap (fun b => (upto 0 8).map (fun i => bitOf b.toNat (7 - i)))

/-- The number of a bit string, most significant bit first. -/
def bitsNat (l : List Bool) : Nat := l.foldl (fun n b => 2 * n + ofFlag b) 0

/-- n bits of a number, most significant first. -/
def natBits (n v : Nat) : List Bool := (upto 0 n).map (fun i => bitOf v (n - 1 - i))

/-- A byte string from bits, filled with zeros. -/
def bytesOfBits : Nat → List Bool → List Byte
  | 0, _ => []
  | n + 1, l => BitVec.ofNat 8 (bitsNat ((l ++ List.replicate 8 false).take 8)) :: bytesOfBits n (l.drop 8)

/-- The median of three. -/
def median (a b c : Int) : Int := max (min a b) (min (max a b) c)

/-- The prediction of the next sample of a tile from those before it, latest first (R234); i is its place. -/
def tilePred (done : List Nat) (i : Nat) : Int :=
  let l : Int := ((done[0]?).getD 0 : Nat)
  let a : Int := ((done[63]?).getD 0 : Nat)
  let c : Int := ((done[64]?).getD 0 : Nat)
  if i < 64 then l else if i % 64 = 0 then a else median l a (l + a - c)

/-- The group of the sample at place i of a tile (R233). -/
def tileGroup (i : Nat) : Nat := i / 64 * 4 + i % 64 / 16

/-- The value and the rest of an Exp-Golomb code of order k (R234), after z zero bits read. -/
def golombRead (k : Nat) : List Bool → Nat → Option (Nat × List Bool)
  | [], _ => none
  | false :: r, z => golombRead k r (z + 1)
  | true :: r, z =>
    if z + k ≤ r.length then some (2 ^ (z + k) + bitsNat (r.take (z + k)) - 2 ^ k, r.drop (z + k)) else none

/-- The residual of a mapped value (R234). -/
def unmapRes (m : Nat) : Int := if m % 2 = 0 then m / 2 else -((m + 1) / 2 : Int)

/-- The residuals of a tile in raster order. A sample that leaves 16 bits has no stated value: `wild` supplies it. -/
def tileResiduals (wild : Nat → Nat) (k0 : Nat) (codes : List Nat) :
    Nat → Nat → List Bool → List Nat → Option (List Nat)
  | 0, _, _, acc => some acc.reverse
  | n + 1, i, bits, acc =>
    match golombRead (k0 + (codes[tileGroup i]?).getD 0) bits 0 with
    | none => none
    | some (m, rest) =>
      let s := tilePred acc i + unmapRes m
      let v := if 0 ≤ s ∧ s < 65536 then s.toNat else wild i % 65536
      tileResiduals wild k0 codes n (i + 1) rest (v :: acc)

/-- The samples of a coded tile, or none when it is malformed (R233, R237). -/
def tileDecode (wild : Nat → Nat) (bs : List Byte) : Option (List Nat) :=
  let bits := bitsOfBytes bs
  let k0 := bitsNat (bits.take 5)
  let codes := (upto 0 16).map (fun g => bitsNat ((bits.drop (5 + 2 * g)).take 2))
  if 16 < k0 then none
  else tileResiduals wild k0 codes 255 1 (bits.drop 53) [bitsNat ((bits.drop 37).take 16)]

/-- Mapped residuals of a tile's samples after the first, in raster order (R234). -/
def tileMapped : List Nat → Nat → List Nat → List Nat
  | [], _, _ => []
  | s :: r, i, acc =>
    let e : Int := s - tilePred acc i
    let m := if 0 ≤ e then (2 * e).toNat else (-2 * e - 1).toNat
    m :: tileMapped r (i + 1) (s :: acc)

/-- Bits of an Exp-Golomb code of order k (R234). -/
def golombLen (k m : Nat) : Nat := 2 * Nat.log2 (m + 2 ^ k) - k + 1

/-- An Exp-Golomb code of order k. -/
def golombBits (k m : Nat) : List Bool :=
  let v := m + 2 ^ k
  let n := Nat.log2 v
  List.replicate (n - k) false ++ natBits (n + 1) v

/-- The index of the least of a list's numbers, the first on a tie. -/
def argMin : List Nat → Nat
  | [] => 0
  | a :: r => if r.all (fun b => decide (a ≤ b)) then 0 else 1 + argMin r

/-- Mapped residuals of group g. -/
def groupMapped (ms : List Nat) (g : Nat) : List Nat :=
  ((upto 1 255).zip ms).filterMap (fun e => if tileGroup e.1 = g then some e.2 else none)

/-- The code c_g of a group for a K0, and the bits it takes (R235). -/
def groupChoice (ms : List Nat) (k0 g : Nat) : Nat × Nat :=
  let cost := fun c => ((groupMapped ms g).map (golombLen (k0 + c))).foldl (· + ·) 0
  let c := argMin ((upto 0 4).map cost)
  (c, cost c)

/-- Header, payload and (for a constant tile) extension value of a tile as every writer chooses them (R235). -/
def tileEncode (t : List Nat) : Nat × List Byte :=
  let first := t.headD 0
  if t.all (· == first) then (0, [])
  else
    let ms := tileMapped (t.drop 1) 1 [first]
    let total := fun k0 => ((upto 0 16).map (fun g => (groupChoice ms k0 g).2)).foldl (· + ·) 53
    let k0 := argMin ((upto 0 17).map total)
    let n := (total k0 + 511) / 512
    if n ≤ 7 then
      let codes := (upto 0 16).map (fun g => (groupChoice ms k0 g).1)
      let body := ((upto 1 255).zip ms).flatMap (fun e => golombBits (k0 + (codes[tileGroup e.1]?).getD 0) e.2)
      (n, bytesOfBits (64 * n) (natBits 5 k0 ++ codes.flatMap (natBits 2) ++ natBits 16 first ++ body))
    else (0xFF, t.flatMap (leBytes 2))

/-! Reading planes. -/

/-- Bytes of a buffer, without any check: the caller has made it. -/
def bufBytes (d : Device) (h off n : Nat) : List Byte := bytesAt d (bufBase d (handleIdx h) + off) n

/-- A 16-bit sample of a buffer. -/
def sampleAt (d : Device) (h off : Nat) : Nat := leNat (bufBytes d h off 2)

/-- Header and extension of a tile of plane k of a dressed surface (R232). -/
def tileHead (d : Device) (s : List Byte) (k r c : Nat) : Nat × Nat :=
  let p := sfPlane s k
  let i := r * p.tiles.1 + c
  let sec := sfAux s + auxBefore s k
  (leNat (bufBytes d (sfHandle s) (sec + i) 1),
   leNat (bufBytes d (sfHandle s) (sec + p.tiles.1 * p.tiles.2 + 2 * i) 2))

/-- The 64-byte units of a tile's payload that its header names; none for a constant or malformed one (R232, R237). -/
def tileUnits (p : Plane) (h e : Nat) : Option Nat :=
  let n := if h = 0xFF then 8 else h
  if h ≠ 0 ∧ n ≤ 8 ∧ e + n ≤ 8 * p.tiles.1 then some n else none

/-- The samples of a full tile, or none when it is malformed (R232, R233, R237). -/
def tileRead (d : Device) (s : List Byte) (k r c : Nat) : Option (List Nat) :=
  let p := sfPlane s k
  let (h, e) := tileHead d s k r c
  if h = 0 then some (List.replicate 256 e)
  else
    match tileUnits p h e with
    | none => none
    | some n =>
      let bs := bufBytes d (sfHandle s) (p.off + r * p.pitch + e * 64) (64 * n)
      if h = 0xFF then some ((upto 0 256).map (fun i => fieldAt bs (2 * i) 2))
      else tileDecode (fun i => free d (1000 + i)) bs

/-- Tiles of a row of a dressed plane. -/
def tileRow (d : Device) (s : List Byte) (k r : Nat) : List (Option (List Nat)) :=
  (upto 0 (sfPlane s k).tiles.1).map (tileRead d s k r)

/-- Row y of plane k as its reader takes it: every sample of a malformed tile is 0 (R231, R237). -/
def dressedRow (d : Device) (s : List Byte) (k y : Nat) : List Nat :=
  let p := sfPlane s k
  let (f, g) := p.tiles
  if y < 4 * g then
    (tileRow d s k (y / 4)).flatMap (fun t => ((t.getD (List.replicate 256 0)).drop (y % 4 * 64)).take 64) ++
      (upto 0 (p.w - 64 * f)).map (fun x =>
        sampleAt d (sfHandle s) (p.off + y / 4 * p.pitch + 512 * f + (y % 4 * (p.w - 64 * f) + x) * 2))
  else (upto 0 p.w).map (fun x => sampleAt d (sfHandle s) (p.off + g * p.pitch + ((y - 4 * g) * p.w + x) * 2))

/-- Row y of plane k, every sample with the bits of its format (R83). -/
def surfRow (d : Device) (s : List Byte) (k y : Nat) : List Nat :=
  let p := sfPlane s k
  let row := if sfLayout s = 2 then dressedRow d s k y
    else (upto 0 p.w).map (fun x => sampleAt d (sfHandle s) (sampleOff (sfLayout s) p x y))
  row.map (· % 2 ^ fmtDepth (sfFormat s))

/-- The samples of plane k. -/
def surfRows (d : Device) (s : List Byte) (k : Nat) : Rows := (upto 0 (sfPlane s k).h).map (surfRow d s k)

/-- Malformed tiles of a surface whose first row lies above luma row n, as the luma rectangle that each covers (R237). -/
def badTilesIn (d : Device) (s : List Byte) (n : Nat) : List Block :=
  if sfLayout s ≠ 2 then []
  else (upto 0 (sfPlanes s).length).flatMap (fun k =>
    let p := sfPlane s k
    let dx := max 1 (sfWidth s / max 1 p.w)
    let dy := max 1 (sfHeight s / max 1 p.h)
    (upto 0 p.tiles.2).flatMap (fun r =>
      if n ≤ 4 * r * dy then []
      else ((upto 0 p.tiles.1).filter (fun c => (tileRead d s k r c).isNone)).map (fun c =>
        { x := 64 * c * dx, y := 4 * r * dy, w := 64 * dx, h := 4 * dy })))

/-- Malformed tiles of a surface (R237). -/
def badTiles (d : Device) (s : List Byte) : Nat := (badTilesIn d s (sfHeight s)).length

/-- Two rectangles share a sample. -/
def blocksMeet (a b : Block) : Bool := decide (a.x < b.x + b.w) && decide (b.x < a.x + a.w) && decide (a.y < b.y + b.h) && decide (b.y < a.y + a.h)

/-- Byte ranges of plane k of a surface that reading rows lo to hi − 1 of its columns x0 to x1 − 1 touches, as (offset, length). -/
def planeSpansIn (d : Device) (s : List Byte) (lo hi x0 x1 k : Nat) : List (Nat × Nat) :=
  let p := sfPlane s k
  let n := min hi p.h
  let x1 := min x1 p.w
  let c0 := x0 / 64
  if sfLayout s = 0 then (upto lo (n - lo)).map (fun y => (p.off + y * p.pitch + 2 * x0, 2 * (x1 - x0)))
  else if sfLayout s = 1 then
    (upto (lo / 64) ((n + 63) / 64 - lo / 64)).map (fun r => (p.off + r * p.pitch + c0 * 8192, ((x1 + 63) / 64 - c0) * 8192))
  else
    let (f, g) := p.tiles
    let tiles := (upto (lo / 4) (min ((n + 3) / 4) g - lo / 4)).flatMap (fun r =>
      (upto c0 (min f ((x1 + 63) / 64) - c0)).flatMap (fun c =>
        let (h, e) := tileHead d s k r c
        match tileUnits p h e with | some m => [(p.off + r * p.pitch + e * 64, 64 * m)] | none => []) ++
      (if x1 ≤ 64 * f then [] else [(p.off + r * p.pitch + 512 * f, 8 * (p.w - 64 * f))]))
    (sfAux s + auxBefore s k, 3 * f * g) :: tiles ++
      (if n ≤ 4 * g then [] else [(p.off + g * p.pitch, (n - 4 * g) * p.w * 2)])

/-- Byte ranges of plane k of a surface that reading rows lo to hi − 1 touches. -/
def planeSpans (d : Device) (s : List Byte) (lo hi k : Nat) : List (Nat × Nat) := planeSpansIn d s lo hi 0 (sfPlane s k).w k

/-- Read ranges of a buffer as a requester: false when one receives an error response. -/
def readSpans (req h : Nat) : List (Nat × Nat) → Device → Device × Bool
  | [], d => (d, true)
  | (o, n) :: r, d =>
    if n = 0 then readSpans req h r d
    else match bufRead d req h o n with
      | (d, some _) => readSpans req h r d
      | (d, none) => (d, false)

/-- Read all of plane k of a surface: false when memory answers with an error. -/
def planeRead (d : Device) (req : Nat) (s : List Byte) (k : Nat) : Device × Bool :=
  readSpans req (sfHandle s) (planeSpans d s 0 (sfPlane s k).h k) d

/-- Read rows lo to hi − 1 of columns x0 to x1 − 1, counted in luma samples, of every plane of a surface: false when memory answers with an error. -/
def surfaceReadIn (d : Device) (req : Nat) (s : List Byte) (lo hi x0 x1 : Nat) : Device × Bool :=
  readSpans req (sfHandle s) ((upto 0 (sfPlanes s).length).flatMap (fun k =>
    let dx := max 1 (sfWidth s / max 1 (sfPlane s k).w)
    let dy := sfHeight s / max 1 (sfPlane s k).h
    if x1 ≤ x0 then [] else planeSpansIn d s (lo / dy) ((hi + dy - 1) / dy) (x0 / dx) ((x1 + dx - 1) / dx) k)) d

/-- Read rows lo to hi − 1 of every plane of a surface: false when memory answers with an error. A chroma row counts with
the luma rows it belongs to. -/
def surfaceRead (d : Device) (req : Nat) (s : List Byte) (lo hi : Nat) : Device × Bool := surfaceReadIn d req s lo hi 0 (sfWidth s)

/-! Writing planes. -/

/-- Write pieces of a buffer as a requester: false when one receives an error response, and nothing after it is written. -/
def writePieces (req h : Nat) : List (Nat × List Byte) → Device → Device × Bool
  | [], d => (d, true)
  | (o, bs) :: r, d =>
    match bufWrite d req h o bs with
    | (d, true) => writePieces req h r d
    | (d, false) => (d, false)

/-- The 256 samples of a full tile of a plane. -/
def tileOf (rows : Rows) (r c : Nat) : List Nat := (upto 0 4).flatMap (fun y => ((rows[4 * r + y]?).getD []).drop (64 * c) |>.take 64)

/-- Place encoded tiles of a row one after the other: (column, header, extension, unit offset, payload) (R232, R235). -/
def placeTiles : List (Nat × List Nat) → Nat → List (Nat × Nat × Nat × Nat × List Byte)
  | [], _ => []
  | (c, t) :: r, u =>
    let (h, bs) := tileEncode t
    if h = 0 then (c, 0, t.headD 0, u, []) :: placeTiles r u
    else (c, h, u, u, bs) :: placeTiles r (u + bs.length / 64)

/-- The pieces of the tiles of tile row r of plane k whose columns are asked for: payload, headers and extensions. -/
def tilePieces (s : List Byte) (k r : Nat) (rows : Rows) (want : Nat → Bool) : List (Nat × List Byte) :=
  let p := sfPlane s k
  let (f, g) := p.tiles
  let sec := sfAux s + auxBefore s k
  ((placeTiles ((upto 0 f).map (fun c => (c, tileOf rows r c))) 0).filter (fun e => want e.1)).flatMap (fun (c, h, e, u, bs) =>
    (if h = 0 then [] else [(p.off + r * p.pitch + u * 64, bs)]) ++
      [(sec + r * f + c, leBytes 1 h), (sec + f * g + 2 * (r * f + c), leBytes 2 e)])

/-- The pieces of the columns right of the full tiles of tile row r of plane k. -/
def edgePieces (s : List Byte) (k r : Nat) (rows : Rows) : List (Nat × List Byte) :=
  let p := sfPlane s k
  let f := p.tiles.1
  if p.w = 64 * f then []
  else (upto 0 4).map (fun y =>
    (p.off + r * p.pitch + 512 * f + y * (p.w - 64 * f) * 2, (((rows[4 * r + y]?).getD []).drop (64 * f)).flatMap (leBytes 2)))

/-- The pieces of tile row r of plane k. -/
def tileRowPieces (s : List Byte) (k r : Nat) (rows : Rows) : List (Nat × List Byte) :=
  tilePieces s k r rows (fun _ => true) ++ edgePieces s k r rows

/-- The samples of a plane as its surface holds them: the bits above the format's depth are 0 (R83). -/
def heldRows (s : List Byte) (rows : Rows) : Rows := rows.map (fun r => r.map (· % 2 ^ fmtDepth (sfFormat s)))

/-- The pieces that rows lo to hi − 1 of plane k complete in its columns x0 to x1 − 1; a tile, or a line of one, goes with its first column; the bits above the
format's depth are written as 0 (R83). -/
def planePiecesIn (s : List Byte) (k lo hi x0 x1 : Nat) (rows : Rows) : List (Nat × List Byte) :=
  let p := sfPlane s k
  let n := min hi p.h
  let x1 := min x1 p.w
  let rows := heldRows s rows
  let part := fun (y x m : Nat) => ((((rows[y]?).getD []).drop x).take m).flatMap (leBytes 2)
  let inX := fun (x : Nat) => decide (x0 ≤ x) && decide (x < x1)
  if sfLayout s = 0 then (upto lo (n - lo)).map (fun y => (p.off + y * p.pitch + 2 * x0, part y x0 (x1 - x0)))
  else if sfLayout s = 1 then
    (upto lo (n - lo)).flatMap (fun y => ((upto 0 ((p.w + 63) / 64)).filter (fun c => inX (64 * c))).map (fun c =>
      (sampleOff 1 p (64 * c) y, part y (64 * c) 64)))
  else
    let (f, g) := p.tiles
    ((upto 0 g).filter (fun r => decide (lo ≤ 4 * r + 3) && decide (4 * r + 3 < n))).flatMap (fun r =>
        tilePieces s k r rows (fun c => inX (64 * c)) ++ (if inX (64 * f) then edgePieces s k r rows else [])) ++
      (upto (max lo (4 * g)) (n - max lo (4 * g))).map (fun y =>
        (p.off + g * p.pitch + ((y - 4 * g) * p.w + x0) * 2, part y x0 (x1 - x0)))

/-- The pieces that rows lo to hi − 1 of plane k complete. -/
def planePieces (s : List Byte) (k lo hi : Nat) (rows : Rows) : List (Nat × List Byte) := planePiecesIn s k lo hi 0 (sfPlane s k).w rows

/-- Luma rows that are complete in every plane when n of them have been written: a dressed tile is written with its last row. -/
def rowsComplete (s : List Byte) (n : Nat) : Nat :=
  (upto 0 (sfPlanes s).length).foldl (fun m k =>
    let p := sfPlane s k
    let dy := max 1 (sfHeight s / max 1 p.h)
    let c := n / dy
    let c := if sfLayout s = 2 ∧ c < 4 * p.tiles.2 then c / 4 * 4 else c
    min m (if p.h ≤ c then sfHeight s else c * dy)) (min n (sfHeight s))

/-- The pieces of 64 × 64 block i of a surface, counted in luma samples, all planes (R208). A dressed tile is written with the block that holds its last
sample. -/
def blockPieces (s : List Byte) (planes : List Rows) (i : Nat) : List (Nat × List Byte) :=
  let cols := max 1 ((sfWidth s + 63) / 64)
  ((upto 0 (sfPlanes s).length).zip planes).flatMap (fun e =>
    let p := sfPlane s e.1
    let rows := heldRows s e.2
    let bw := max 1 (64 / max 1 (sfWidth s / max 1 p.w))
    let bh := max 1 (64 / max 1 (sfHeight s / max 1 p.h))
    let x := i % cols * bw
    let y := i / cols * bh
    let part := fun (j : Nat) => (((rows[j]?).getD []).drop x |>.take bw).flatMap (leBytes 2)
    let inX := fun (v : Nat) => decide (x ≤ v) && decide (v < x + bw)
    if sfLayout s = 2 then
      let g := p.tiles.2
      ((upto 0 g).filter (fun r => decide (y ≤ 4 * r + 3) && decide (4 * r + 3 < y + bh))).flatMap (fun r =>
          tilePieces s e.1 r rows (fun c => inX (64 * c + 63)) ++ (if inX (p.w - 1) then edgePieces s e.1 r rows else [])) ++
        (upto (max y (4 * g)) (min p.h (y + bh) - max y (4 * g))).map (fun j => (p.off + g * p.pitch + ((j - 4 * g) * p.w + x) * 2, part j))
    else (upto y (min bh (p.h - y))).map (fun j => (sampleOff (sfLayout s) p x j, part j)))

/-- Write rows lo to hi − 1 of columns x0 to x1 − 1, counted in luma samples, of every plane of a surface. -/
def surfaceWriteIn (d : Device) (req : Nat) (s : List Byte) (lo hi x0 x1 : Nat) (planes : List Rows) : Device × Bool :=
  writePieces req (sfHandle s) (((upto 0 (sfPlanes s).length).zip planes).flatMap (fun e =>
    let dx := max 1 (sfWidth s / max 1 (sfPlane s e.1).w)
    let dy := sfHeight s / max 1 (sfPlane s e.1).h
    if x1 ≤ x0 then [] else planePiecesIn s e.1 (lo / dy) (hi / dy) ((x0 + dx - 1) / dx) ((x1 + dx - 1) / dx) e.2)) d

/-- Write rows lo to hi − 1 (counted in luma rows) of every plane of a surface. -/
def surfaceWrite (d : Device) (req : Nat) (s : List Byte) (lo hi : Nat) (planes : List Rows) : Device × Bool :=
  surfaceWriteIn d req s lo hi 0 (sfWidth s) planes

end Sys2Proof.Machine
end

