-- ==== Sys2Proof/Machine/Kernels.lean ====
section
/-! DEFINITION. Picture arithmetic (R221–R225): conversions between samples and 16-bit components, demosaic, colour matrix, 3-D
table, scaler, crop, pack, and the quadrant packing of R110. -/

namespace Sys2Proof.Machine

/-- A picture between two stages: one or three 16-bit components (R221). -/
structure Img where
  w : Nat
  h : Nat
  comps : List Rows

/-- Component c. -/
def Img.at_ (m : Img) (c x y : Nat) : Nat := px ((m.comps[c]?).getD []) x y

/-- An integer clamped to 0 to m. -/
def clampTo (m : Nat) (v : Int) : Nat := min m v.toNat

/-- A division that rounds half up (R222). -/
def rdiv (a : Int) (b : Nat) : Int := (a + (b / 2 : Nat)) / (b : Int)

/-- A coordinate held within 0 to n − 1: a picture extended by its edge samples. -/
def edge (n : Nat) (i : Int) : Nat := min (n - 1) i.toNat

/-! Sources (R221). -/

/-- A sample of depth f as a 16-bit component. -/
def lift (f v : Nat) : Nat := v * 2 ^ (16 - f)

/-- UNPACK and UNDRESS: the components of a surface in the order Y, Cb, Cr or R, G, B (R221). -/
def unpack (s : List Byte) (planes : List Rows) : Img :=
  let w := sfWidth s
  let h := sfHeight s
  let dep := fmtDepth (sfFormat s)
  let pl := fun k => (planes[k]?).getD []
  let comps :=
    if isMono (sfFormat s) then [pl 0]
    else if sfFormat s = 0x21 then (upto 0 3).map (fun c => genRows w h (fun x y => px (pl 0) (4 * x + c) y))
    else if sfFormat s = 0x20 then [pl 2, pl 0, pl 1]
    else match fmtChroma (sfFormat s) with
      | some (dx, dy) => pl 0 :: [1, 2].map (fun k => genRows w h (fun x y => px (pl k) (x / dx) (y / dy)))
      | none => [pl 0]
  { w := w, h := h, comps := comps.map (fun r => r.map (fun l => l.map (lift dep))) }

/-- Offsets (dx, dy) in the 2 × 2 cell of the phases R, G1, G2, B of a CFA code (R110). -/
def cfaPhase (cfa p : Nat) : Nat × Nat :=
  let r := if cfa = 0 then (0, 0) else if cfa = 1 then (1, 0) else if cfa = 2 then (0, 1) else (1, 1)
  ((r.1 + p % 2) % 2, (r.2 + p / 2) % 2)

/-- The colour of a site: 0 red, 1 green, 2 blue. -/
def cfaColour (cfa : Nat) (x y : Int) : Nat :=
  let (rx, ry) := cfaPhase cfa 0
  let onX := decide ((x - rx) % 2 = 0)
  let onY := decide ((y - ry) % 2 = 0)
  if onX && onY then 0 else if onX == onY then 2 else 1

/-- The mosaic with its edge samples repeated outside the picture. -/
def mosaicAt (w h : Nat) (m : Rows) (x y : Int) : Int := (px m (edge w x) (edge h y) : Nat)

/-- The variant 1 gradient along one axis at a site: `g i` is the sample i places along it (R222). -/
def gradient (g : Int → Int) (i : Int) : Nat := (g (i - 1) - g (i + 1)).natAbs + (2 * g i - g (i - 2) - g (i + 2)).natAbs

/-- The estimate of green along one axis (R222). -/
def estimate (g : Int → Int) : Int := rdiv (g (-1) + g 1) 2 + rdiv (2 * g 0 - g (-2) - g 2) 4

/-- Δ along one axis for a variant (R222). -/
def gradSum (variant : Nat) (g : Int → Int) : Nat :=
  if variant = 2 then ((upto 0 7).map (fun (i : Nat) => gradient g ((i : Int) - 3))).foldl (· + ·) 0 else gradient g 0

/-- Green at a site, clamped to the source depth (R222). -/
def demGreen (variant cfa w h dep : Nat) (m : Rows) (x y : Nat) : Nat :=
  let at_ := fun (i j : Int) => mosaicAt w h m (x + i) (y + j)
  if cfaColour cfa x y = 1 then px m x y
  else
    let hz := fun i => at_ i 0
    let vt := fun j => at_ 0 j
    let v := if variant = 0 then rdiv (hz (-1) + hz 1 + vt (-1) + vt 1) 4
      else
        let dh := gradSum variant hz
        let dv := gradSum variant vt
        if dh < dv then estimate hz else if dv < dh then estimate vt else rdiv (estimate hz + estimate vt) 2
    clampTo (2 ^ dep - 1) v

/-- The mean over the nearest sites of colour c around (x, y) of a quantity (R222). -/
def nearMean (cfa c x y : Nat) (q : Int → Int → Int) : Int :=
  let x : Int := x
  let y : Int := y
  if cfaColour cfa x y = 1 then
    if cfaColour cfa (x + 1) y = c then rdiv (q (x - 1) y + q (x + 1) y) 2 else rdiv (q x (y - 1) + q x (y + 1)) 2
  else rdiv (q (x - 1) (y - 1) + q (x + 1) (y - 1) + q (x - 1) (y + 1) + q (x + 1) (y + 1)) 4

/-- Red (0) or blue (2) at a site, given the green plane (R222). -/
def demColour (variant cfa w h dep : Nat) (m green : Rows) (c x y : Nat) : Nat :=
  if cfaColour cfa x y = c then px m x y
  else if variant = 0 then clampTo (2 ^ dep - 1) (nearMean cfa c x y (mosaicAt w h m))
  else
    let diff := fun i j => mosaicAt w h m i j - mosaicAt w h green i j
    clampTo (2 ^ dep - 1) (px green x y + nearMean cfa c x y diff)

/-- DEMOSAIC (R222). -/
def demosaic (variant : Nat) (s : List Byte) (m : Rows) : Img :=
  let w := sfWidth s
  let h := sfHeight s
  let dep := fmtDepth (sfFormat s)
  let green := genRows w h (demGreen variant (sfCfa s) w h dep m)
  let col := fun c => genRows w h (fun x y => lift dep (demColour variant (sfCfa s) w h dep m green c x y))
  { w := w, h := h, comps := [col 0, genRows w h (fun x y => lift dep (px green x y)), col 2] }

/-- CFA_SPLIT variant 0: the phase planes of a mosaic as four quadrants (R110, R220). -/
def cfaSplit (cfa w h : Nat) (m : Rows) : Rows :=
  genRows w h (fun x y =>
    let p := (if x < w / 2 then 0 else 1) + (if y < h / 2 then 0 else 2)
    let (dx, dy) := cfaPhase cfa p
    px m (2 * (x % (w / 2)) + dx) (2 * (y % (h / 2)) + dy))

/-- CFA_SPLIT variant 1: the inverse. -/
def cfaMerge (cfa w h : Nat) (m : Rows) : Rows :=
  genRows w h (fun x y =>
    let p := ((upto 0 4).find? (fun p => cfaPhase cfa p == (x % 2, y % 2))).getD 0
    px m (x / 2 + p % 2 * (w / 2)) (y / 2 + p / 2 * (h / 2)))

/-! Middle stages (R223–R225). -/

/-- A signed 16-bit field. -/
def s16 (l : List Byte) (o : Nat) : Int := signedOf 16 (fieldAt l o 2)

/-- One output component of the colour matrix of a CSC record (R223). -/
def cscOut (r : List Byte) (i : Nat) (v : List Nat) : Nat :=
  let sum := ((upto 0 3).map (fun j => s16 r (6 * i + 2 * j) * (((v[j]?).getD 0 : Nat) : Int))).foldl (· + ·) 0
  clampTo 65535 ((sum + 2048) / 4096 + signedOf 32 (fieldAt r (20 + 4 * i) 4))

/-- A picture with a function of its three components applied at each place. -/
def mapPixels (m : Img) (f : List Nat → Nat → Nat) : Img :=
  { m with comps := (upto 0 3).map (fun i => genRows m.w m.h (fun x y => f [m.at_ 0 x y, m.at_ 1 x y, m.at_ 2 x y] i)) }

/-- Grid index and fraction of an input component (R224). -/
def lutSplit (x : Nat) : Nat × Nat :=
  let i := min (64 * x / 65536) 63
  (i, 64 * x - 65536 * i)

/-- The axes 0, 1, 2 in descending order of their fractions, ties in axis order (R224). -/
def lutOrder (f : List Nat) : List Nat :=
  let g := fun i => (f[i]?).getD 0
  let before := fun a b => decide (g b < g a) || (g a == g b && decide (a < b))
  let rank := fun a => ([0, 1, 2].filter (fun b => before b a)).length
  (upto 0 3).map (fun k => ([0, 1, 2].find? (fun a => rank a == k)).getD 0)

/-- One step of each grid index for the axes in a list. -/
def lutStep (i : List Nat) (axes : List Nat) : List Nat :=
  (upto 0 3).map (fun a => (i[a]?).getD 0 + ofFlag (axes.contains a))

/-- LUT3D of one output component; `entry` gives a table entry's component (R224). -/
def lutOut (variant : Nat) (entry : List Nat → Nat → Nat) (v : List Nat) (c : Nat) : Nat :=
  let sp := v.map lutSplit
  let i := sp.map (·.1)
  let f := sp.map (·.2)
  let g := fun a => (f[a]?).getD 0
  let at_ := fun axes => (entry (lutStep i axes) c : Int)
  if variant = 0 then
    let o := lutOrder f
    let a := (o[0]?).getD 0
    let b := (o[1]?).getD 0
    let e := (o[2]?).getD 0
    let c0 := at_ []
    let c1 := at_ [a]
    let c2 := at_ [a, b]
    let c3 := at_ [a, b, e]
    clampTo 65535 ((65536 * c0 + g a * (c1 - c0) + g b * (c2 - c1) + g e * (c3 - c2) + 32768) / 65536)
  else
    let wt := fun (axes : List Nat) => ((upto 0 3).map (fun a => if axes.contains a then g a else 65536 - g a)).foldl (fun (p : Nat) q => p * q) 1
    let corners := [[], [0], [1], [2], [0, 1], [0, 2], [1, 2], [0, 1, 2]]
    clampTo 65535 (((corners.map (fun k => ((wt k : Nat) : Int) * at_ k)).foldl (· + ·) 0 + 2 ^ 47) / 2 ^ 48)

/-- π² in units of 2^−160. -/
def piSquared : Nat := 0x9de9e64df22ef2d256e26cd9808c1ac708566a3fe

/-- Terms n to n + k − 1 of the series of sin(πx)/(πx), in units of 2^−160; y is (πx)² and t the term before them. -/
def sincSum (y : Nat) : Nat → Nat → Int → Int
  | 0, _, _ => 0
  | k + 1, n, t => t + sincSum y k (n + 1) (-(t * y / 2 ^ 160) / ((2 * n + 2) * (2 * n + 3) : Nat))

/-- sin(πx)/(πx) for x = a / b, in units of 2^−160. -/
def sinc (a b : Nat) : Int := sincSum (piSquared * (a * a) / (b * b)) 64 0 (2 ^ 160)

/-- A signed number of units of 1/den rounded half away from zero. -/
def roundAway (n : Int) (den : Nat) : Int :=
  let q := (n.natAbs + den / 2) / den
  if n < 0 then -(q : Int) else q

/-- A number n / den that is known but for an error of 2^−36 on either side, rounded half away from zero: where the error does not decide it, the one
value; elsewhere the one that `up` picks. -/
def roundNear (up : Bool) (n : Int) (den : Nat) : Int :=
  let slack : Int := (den / 2 ^ 36 : Nat)
  if up then roundAway (n + slack) den else roundAway (n - slack) den

/-- The weight of tap k of a phase of the built-in filter, but for tap 3 (R225). It is the exact weight rounded, where double precision cannot give another
one; within the error of double precision of a half, which way the computation falls is a constant the spec does not state. -/
def sincTap (win wout phase k : Nat) : Int :=
  let a := ((64 * k : Int) - 192 - phase).natAbs
  let (cn, cd) := if wout < win then (wout, win) else (1, 1)
  roundNear (Config.sincUp win wout phase k) (sinc (a * cn) (64 * cd) * sinc a 256 * cn * 16384) (2 ^ 320 * cd)

/-- Eight taps whose tap 3 takes the remainder of 16,384 (R225). -/
def withRemainder (t : Nat → Int) : List Int :=
  let others := [0, 1, 2, 4, 5, 6, 7].foldl (fun s k => s + t k) 0
  (upto 0 8).map (fun k => if k = 3 then 16384 - others else t k)

/-- The built-in filter: 64 phases of 8 taps (R225). -/
def sincTable (win wout : Nat) : List (List Int) := (upto 0 64).map (fun p => withRemainder (sincTap win wout p))

/-- A variant 1 table of a coefficient buffer (R225). -/
def tableOf (bs : List Byte) : List (List Int) := (upto 0 64).map (fun p => (upto 0 8).map (fun k => s16 bs (16 * p + 2 * k)))

/-- Position t of an output column (R225). -/
def scalePos (win wout x : Nat) : Int :=
  (64 * (((2 * x + 1) * win : Nat) - (wout : Int)) + wout) / ((2 * wout : Nat) : Int)

/-- One filtered sample of an axis (R225). -/
def scaleTap (tab : List (List Int)) (win wout x : Nat) (g : Nat → Nat) : Nat :=
  let t := scalePos win wout x
  let taps := (tab[(t % 64).toNat]?).getD []
  let sum := ((upto 0 8).map (fun (k : Nat) => (taps[k]?).getD 0 * ((g (edge win (t / 64 - 3 + (k : Int))) : Nat) : Int))).foldl (· + ·) 0
  clampTo 65535 ((sum + 8192) / 16384)

/-- A component scaled horizontally. -/
def scaleH (tab : List (List Int)) (w h wo : Nat) (r : Rows) : Rows :=
  genRows wo h (fun x y => scaleTap tab w wo x (fun i => px r i y))

/-- A component scaled vertically. -/
def scaleV (tab : List (List Int)) (w h ho : Nat) (r : Rows) : Rows :=
  genRows w ho (fun x y => scaleTap tab h ho y (fun j => px r x j))

/-- SCALE (R225): horizontally first, then vertically. -/
def scale (tabH tabV : List (List Int)) (wo ho : Nat) (m : Img) : Img :=
  { w := wo, h := ho, comps := m.comps.map (fun r => scaleV tabV wo m.h ho (scaleH tabH m.w m.h wo r)) }

/-- CROP. -/
def crop (x0 y0 w h : Nat) (m : Img) : Img :=
  { w := w, h := h, comps := m.comps.map (fun r => genRows w h (fun x y => px r (x0 + x) (y0 + y))) }

/-! Sinks (R221). -/

/-- A 16-bit component as a sample of depth d. -/
def lower (dep v : Nat) : Nat := if dep < 16 then min ((v + 2 ^ (15 - dep)) / 2 ^ (16 - dep)) (2 ^ dep - 1) else v

/-- Chroma of a smaller plane from full-size samples: those of the first place, or their average (R221). -/
def subsample (variant dx dy w h : Nat) (r : Rows) : Rows :=
  genRows (w / dx) (h / dy) (fun x y =>
    if variant = 0 then px r (dx * x) (dy * y)
    else
      let sum := ((upto 0 dy).flatMap (fun j => (upto 0 dx).map (fun i => px r (dx * x + i) (dy * y + j)))).foldl (· + ·) 0
      (sum + dx * dy / 2) / (dx * dy))

/-- PACK and DRESS: the planes of a format from a picture (R221). -/
def packPlanes (fmt variant : Nat) (m : Img) : List Rows :=
  let dep := fmtDepth fmt
  let low := fun c => genRows m.w m.h (fun x y => lower dep (m.at_ c x y))
  if isMono fmt then [low 0]
  else if fmt = 0x21 then
    [genRows (4 * m.w) m.h (fun x y => if x % 4 = 3 then 65535 else m.at_ (x % 4) (x / 4) y)]
  else if fmt = 0x20 then [low 1, low 2, low 0]
  else match fmtChroma fmt with
    | some (dx, dy) => low 0 :: [1, 2].map (fun c => subsample variant dx dy m.w m.h (low c))
    | none => []

/-! CRC-32C (R112, R269). -/

/-- CRC-32C (Castagnoli, reflected) of a byte sequence: one bit at a time. -/
def crcStep (c : Nat) : Nat → Nat
  | 0 => c
  | n + 1 => let c := crcStep c n; if c % 2 = 1 then (c / 2) ^^^ 0x82F63B78 else c / 2

/-- CRC-32C (R112). -/
def crc32c (l : List Byte) : Nat := (l.foldl (fun c b => crcStep (c ^^^ b.toNat) 8) 0xFFFFFFFF) ^^^ 0xFFFFFFFF

end Sys2Proof.Machine
end

