-- ==== Sys2Proof/Machine/Levels.lean ====
section
/-! DEFINITION. Profiles (R92) and the level limits of the coding standards that R94, R98, R106 and R153 refer to. The
limits stand in the standards, not in the spec: PRESUMED, notes/assumptions. -/

namespace Sys2Proof.Machine

/-- A row of R92: depths, coded chroma formats (0 4:0:0, 1 4:2:0, 2 4:2:2, 3 4:4:4), key pictures only, and whether its
highest level is unlimited (8.5, 15.5, 31). -/
structure Profile where
  codec : Nat
  code : Nat
  lo : Nat
  hi : Nat
  chroma : List Nat
  intra : Bool
  open_ : Bool
  deriving DecidableEq, Repr

/-- The HEVC rows of R92. -/
def profilesHevc : List Profile :=
  [{ codec := 0, code := 0x01, lo := 8, hi := 8, chroma := [1], intra := false, open_ := false },
   { codec := 0, code := 0x02, lo := 8, hi := 10, chroma := [1], intra := false, open_ := false },
   { codec := 0, code := 0x03, lo := 8, hi := 10, chroma := [1, 2], intra := false, open_ := false },
   { codec := 0, code := 0x04, lo := 8, hi := 12, chroma := [0, 1, 2, 3], intra := false, open_ := false },
   { codec := 0, code := 0x05, lo := 8, hi := 16, chroma := [0], intra := false, open_ := true },
   { codec := 0, code := 0x06, lo := 8, hi := 16, chroma := [0, 1, 2, 3], intra := true, open_ := true },
   { codec := 0, code := 0x07, lo := 8, hi := 16, chroma := [0, 1, 2, 3], intra := true, open_ := true }]

/-- The VVC, AV1 and AVC rows of R92. -/
def profilesOther : List Profile :=
  [{ codec := 1, code := 0x11, lo := 8, hi := 10, chroma := [0, 1], intra := false, open_ := false },
   { codec := 1, code := 0x12, lo := 8, hi := 10, chroma := [0, 1, 2, 3], intra := false, open_ := false },
   { codec := 1, code := 0x13, lo := 8, hi := 12, chroma := [0, 1, 2, 3], intra := true, open_ := true },
   { codec := 1, code := 0x14, lo := 8, hi := 16, chroma := [0, 1, 2, 3], intra := true, open_ := true },
   { codec := 2, code := 0x21, lo := 8, hi := 10, chroma := [0, 1], intra := false, open_ := true },
   { codec := 2, code := 0x22, lo := 8, hi := 10, chroma := [1, 3], intra := false, open_ := true },
   { codec := 2, code := 0x23, lo := 8, hi := 12, chroma := [0, 1, 2, 3], intra := false, open_ := true },
   { codec := 3, code := 0x31, lo := 8, hi := 10, chroma := [0, 1], intra := false, open_ := false },
   { codec := 3, code := 0x32, lo := 8, hi := 10, chroma := [1, 2], intra := true, open_ := false }]

/-- The profile of CODEC and PROFILE. -/
def profileOf (codec code : Nat) : Option Profile :=
  (profilesHevc ++ profilesOther).find? (fun p => p.codec == codec && p.code == code)

/-- Limits of a level: its code, picture size, largest width and height, luma sample rate, bit rates and buffer sizes of the Main and
High tiers in kbit/s and kbit, tile columns and tiles or tile rows. -/
structure LevelRow where
  code : Nat
  pic : Nat
  side : Nat × Nat
  rate : Nat
  main : Nat
  high : Nat
  cpb : Nat
  cpbHigh : Nat
  cols : Nat
  rows : Nat
  deriving DecidableEq, Repr

/-- A level row with one side limit, as HEVC, VVC and AVC give it: floor(√(8 × size)). -/
def levelRow (code pic side rate main high cols rows : Nat) : LevelRow :=
  { code := code, pic := pic, side := (side, side), rate := rate, main := main, high := high, cpb := main, cpbHigh := high,
    cols := cols, rows := rows }

/-- HEVC levels 1 to 6.2. -/
def levelsHevc : List LevelRow :=
  [{ levelRow 30 36864 543 552960 128 128 1 1 with cpb := 350, cpbHigh := 350 }, levelRow 60 122880 991 3686400 1500 1500 1 1,
   levelRow 63 245760 1402 7372800 3000 3000 1 1, levelRow 90 552960 2103 16588800 6000 6000 2 2,
   levelRow 93 983040 2804 33177600 10000 10000 3 3, levelRow 120 2228224 4222 66846720 12000 30000 5 5,
   levelRow 123 2228224 4222 133693440 20000 50000 5 5, levelRow 150 8912896 8444 267386880 25000 100000 10 11,
   levelRow 153 8912896 8444 534773760 40000 160000 10 11, levelRow 156 8912896 8444 1069547520 60000 240000 10 11,
   levelRow 180 35651584 16888 1069547520 60000 240000 20 22, levelRow 183 35651584 16888 2139095040 120000 480000 20 22,
   levelRow 186 35651584 16888 4278190080 240000 800000 20 22]

/-- VVC levels 1.0 to 6.2. -/
def levelsVvc : List LevelRow :=
  [{ levelRow 16 36864 543 552960 128 128 1 1 with cpb := 350, cpbHigh := 350 }, levelRow 32 122880 991 3686400 1500 1500 1 1,
   levelRow 35 245760 1402 7372800 3000 3000 1 1, levelRow 48 552960 2103 16588800 6000 6000 2 4,
   levelRow 51 983040 2804 33177600 10000 10000 3 9, levelRow 64 2228224 4222 66846720 12000 30000 5 25,
   levelRow 67 2228224 4222 133693440 20000 50000 5 25, levelRow 80 8912896 8444 267386880 25000 100000 10 110,
   levelRow 83 8912896 8444 534773760 40000 160000 10 110, levelRow 86 8912896 8444 1069547520 60000 240000 10 110,
   levelRow 96 35651584 16888 1069547520 80000 240000 20 440, levelRow 99 35651584 16888 2139095040 120000 480000 20 440,
   levelRow 102 35651584 16888 4278190080 180000 800000 20 440]

/-- An AV1 level row. -/
def levelAv1 (code pic w h rate main high cols tiles : Nat) : LevelRow :=
  { code := code, pic := pic, side := (w, h), rate := rate, main := main, high := high, cpb := main, cpbHigh := high,
    cols := cols, rows := tiles }

/-- AV1 levels 2.0 to 6.3. -/
def levelsAv1 : List LevelRow :=
  [levelAv1 0 147456 2048 1152 4423680 1500 1500 4 8, levelAv1 1 278784 2816 1584 8363520 3000 3000 4 8,
   levelAv1 4 665856 4352 2448 19975680 6000 6000 6 16, levelAv1 5 1065024 5504 3096 31950720 10000 10000 6 16,
   levelAv1 8 2359296 6144 3456 70778880 12000 30000 8 32, levelAv1 9 2359296 6144 3456 141557760 20000 50000 8 32,
   levelAv1 12 8912896 8192 4352 267386880 30000 100000 8 64, levelAv1 13 8912896 8192 4352 534773760 40000 160000 8 64,
   levelAv1 14 8912896 8192 4352 1069547520 60000 240000 8 64, levelAv1 15 8912896 8192 4352 1069547520 60000 240000 8 64,
   levelAv1 16 35651584 16384 8704 1069547520 60000 240000 16 128, levelAv1 17 35651584 16384 8704 2139095040 100000 480000 16 128,
   levelAv1 18 35651584 16384 8704 4278190080 160000 800000 16 128, levelAv1 19 35651584 16384 8704 4278190080 160000 800000 16 128]

/-- An AVC level row from its macroblock limits; `side` is floor(√(8 × MaxFS)) macroblocks. -/
def levelAvc (code mbps fs side br cpb : Nat) : LevelRow :=
  { code := code, pic := fs * 256, side := (16 * side, 16 * side), rate := mbps * 256, main := br, high := br,
    cpb := cpb, cpbHigh := cpb, cols := 1, rows := 64 }

/-- AVC levels 1 to 6.2. -/
def levelsAvc : List LevelRow :=
  [levelAvc 10 1485 99 28 64 175, levelAvc 11 3000 396 56 192 500, levelAvc 12 6000 396 56 384 1000, levelAvc 13 11880 396 56 768 2000,
   levelAvc 20 11880 396 56 2000 2000, levelAvc 21 19800 792 79 4000 4000, levelAvc 22 20250 1620 113 4000 4000,
   levelAvc 30 40500 1620 113 10000 10000, levelAvc 31 108000 3600 169 14000 14000, levelAvc 32 216000 5120 202 20000 20000,
   levelAvc 40 245760 8192 256 20000 25000, levelAvc 41 245760 8192 256 50000 62500, levelAvc 42 522240 8704 263 50000 62500,
   levelAvc 50 589824 22080 420 135000 135000, levelAvc 51 983040 36864 543 240000 240000, levelAvc 52 2073600 36864 543 240000 240000,
   levelAvc 60 4177920 139264 1055 240000 240000, levelAvc 61 8355840 139264 1055 480000 480000, levelAvc 62 16711680 139264 1055 800000 800000]

/-- MaxDpbMbs of an AVC level. -/
def avcDpbMbs (code : Nat) : Nat :=
  if code = 10 then 396 else if code = 11 then 900 else if code ≤ 20 then 2376 else if code = 21 then 4752
  else if code ≤ 30 then 8100 else if code = 31 then 18000 else if code = 32 then 20480 else if code ≤ 41 then 32768
  else if code = 42 then 34816 else if code = 50 then 110400 else if code ≤ 52 then 184320 else 696320

/-- The levels of a codec up to the last numbered one. -/
def levelsOf (codec : Nat) : List LevelRow :=
  if codec = 0 then levelsHevc else if codec = 1 then levelsVvc else if codec = 2 then levelsAv1 else levelsAvc

/-- The code of the unlimited level (R94). -/
def openLevel (codec : Nat) : Nat := if codec = 2 then 31 else 255

/-- A level admits a picture size, a rate of num / den pictures a second and a bit rate (0: none) in a tier (R94). -/
def LevelRow.admits (l : LevelRow) (w h num den kbps tier : Nat) : Bool :=
  decide (w * h ≤ l.pic) && decide (w ≤ l.side.1) && decide (h ≤ l.side.2) && decide (w * h * num ≤ l.rate * den) &&
    decide (kbps ≤ if tier = 1 then l.high else l.main)

/-- The level in force (R94): none when the stream is refused, some none when it has the unlimited level. -/
def levelFor (p : Profile) (code w h num den kbps tier : Nat) : Option (Option LevelRow) :=
  if code = 0 then
    match (levelsOf p.codec).find? (fun l => l.admits w h num den kbps tier) with
    | some l => some (some l)
    | none => if p.open_ then some none else none
  else if code = openLevel p.codec ∧ p.open_ then some none
  else
    match (levelsOf p.codec).find? (fun l => l.code == code) with
    | some l => if l.admits w h num den kbps tier then some (some l) else none
    | none => none

/-- Pictures the decoded picture buffer holds at a level (R98). -/
def dpbSize (codec : Nat) (l : Option LevelRow) (w h : Nat) : Nat :=
  match l with
  | none => 16
  | some l =>
    let s := w * h
    if codec = 0 then if 4 * s ≤ l.pic then 16 else if 2 * s ≤ l.pic then 12 else if 4 * s ≤ 3 * l.pic then 8 else 6
    else if codec = 1 then if 4 * s ≤ l.pic then 16 else if 2 * s ≤ l.pic then 12 else if 4 * s ≤ 3 * l.pic then 10 else 8
    else if codec = 2 then 8
    else min 16 (avcDpbMbs l.code / max 1 (s / 256))

end Sys2Proof.Machine
end

