-- ==== Sys2Proof/Machine/MagCore.lean ====
section
/-! DEFINITION. Clips: striping (R278), records and their headers (R279, R280), the hash chain (R281, R440), seal triggers
(R441, R443) and a controller that is lost (R275). -/

namespace Sys2Proof.Machine

/-- n bytes, big-endian. -/
def beBytes (n v : Nat) : List Byte := (leBytes n v).reverse

/-- The bytes of a text. -/
def asciiBytes (s : String) : List Byte := s.toList.map (fun c => BitVec.ofNat 8 c.toNat)

/-- Clip slot k. -/
def clipAt (d : Device) (k : Nat) : Option Clip := tfind k d.mag.clips

/-- Store clip slot k. -/
def setClip (d : Device) (k : Nat) (c : Clip) : Device := { d with mag := { d.mag with clips := tput k c d.mag.clips } }

/-- Change clip slot k. -/
def modClip (d : Device) (k : Nat) (f : Clip → Clip) : Device :=
  match clipAt d k with | some c => setClip d k (f c) | none => d

/-- Root port n. -/
def rpAt (d : Device) (n : Nat) : RootPort := tget RootPort.reset n d.mag.ports

/-- Change root port n. -/
def setRp (d : Device) (n : Nat) (p : RootPort) : Device :=
  { d with mag := { d.mag with ports := tset RootPort.reset n p d.mag.ports } }

/-- MAG_CFG. -/
def magCfg (d : Device) : Nat := reg d 0xF00000 0

/-- MAG_CFG.RING_BASE. -/
def magRingBase (d : Device) : Nat := bitsOf (magCfg d) 28 16

/-- Number of a controller over both root ports (R273). -/
def ctrlOf (m : Member) : Nat := 16 * m.port + m.ctrl

/-- Controller c is shown in CTRL_MASK. -/
def ctrlReady (d : Device) (c : Nat) : Bool := bitOf (rpAt d (c / 16)).ready (c % 16)

/-- The member that holds clip block b (R278). -/
def memberOf (c : Clip) (b : Nat) : Nat := b / c.unit % c.members.length

/-- The LBA of clip block b on its member (R278). -/
def lbaOf (c : Clip) (b : Nat) : Nat :=
  ((c.members[memberOf c b]?).map (·.base)).getD 0 + b / (c.unit * c.members.length) * c.unit + b % c.unit

/-- The record has commands to a controller: one of its stripe units lies on a member there. -/
def touches (c : Clip) (cba blocks ctrl : Nat) : Bool :=
  (upto (cba / c.unit) (min c.members.length ((cba + max blocks 1 - 1) / c.unit + 1 - cba / c.unit))).any (fun s =>
    ((c.members[s % c.members.length]?).map ctrlOf) == some ctrl)

/-! NVMe queues (R272–R274). -/

/-- The queue pair of controller c. -/
def nvmeQueue (d : Device) (c : Nat) : NvmeQueue := tget NvmeQueue.reset c d.mag.queues

/-- Change the queue pair of controller c. -/
def setNvmeQueue (d : Device) (c : Nat) (q : NvmeQueue) : Device :=
  { d with mag := { d.mag with queues := tset NvmeQueue.reset c q d.mag.queues } }

/-- The store of controller c's submission queue (k = 0) or completion queue (k = 1) (R273). -/
def nvmeStore (d : Device) (c k : Nat) : Nat :=
  bufBase d (handleIdx (tget Ring.reset (magRingBase d + 2 * c + k) d.rings).store)

/-- A submission queue entry in the layout of NVMe 2.0, with command identifier id. PRESUMED: the spec leaves the layout to NVMe; the
data pointer, which lies in the engine, is a free value. -/
def nvmeEntry (d : Device) (id : Nat) (m : NvmeCmd) : List Byte :=
  leBytes 1 (if m.flush then 0 else 1) ++ leBytes 1 0 ++ leBytes 2 id ++ leBytes 4 m.nsid ++ leBytes 16 0 ++
    leBytes 16 (if m.flush then 0 else free d 62) ++ leBytes 8 m.lba ++ leBytes 2 (m.data.length / 4096 - 1) ++
    leBytes 2 (ofFlag m.fua * 2 ^ 14) ++ leBytes 12 0

/-- The command goes to the controller. -/
def nvmeSend (d : Device) (m : NvmeCmd) : Device :=
  emit d (if m.flush then .nvmeFlush m.ctrl m.nsid else .nvmeWrite m.ctrl m.nsid m.lba m.data m.fua)

/-- Put a command in its controller's submission queue, from where the controller reads it through its root port (R273). It does not
reach a controller that gets an error response, and waits while 1,023 commands are in the queue. -/
def nvmePut (d : Device) (m : NvmeCmd) : Device :=
  let q := nvmeQueue d m.ctrl
  let a := nvmeStore d m.ctrl 0 + 64 * q.tail
  if 1023 ≤ q.active.length then setNvmeQueue d m.ctrl { q with wait := q.wait ++ [m] }
  else
    let d := setNvmeQueue d m.ctrl { q with tail := (q.tail + 1) % 1024, active := q.active ++ [(q.tail, m)] }
    match memWrite d (reqOf (34 + m.ctrl / 16)) false a (nvmeEntry d q.tail m) with
    | (d, .ok) =>
      match memRead d (reqOf (34 + m.ctrl / 16)) false a 64 with
      | (d, .ok, _) => nvmeSend d m
      | (d, _) => d
    | (d, _) => d

/-- The controller writes the completion entry of command id with a status, and the engine reads it (R273). The phase tag of a pass is
the inverse of the one before. -/
def nvmeDone (d : Device) (id : Nat) (m : NvmeCmd) (status : Nat) : Device :=
  let q := nvmeQueue d m.ctrl
  let a := nvmeStore d m.ctrl 1 + 16 * (q.done % 1024)
  let e := leBytes 8 0 ++ leBytes 2 q.tail ++ leBytes 2 1 ++ leBytes 2 id ++ leBytes 2 (status % 32768 * 2 + (1 - q.done / 1024))
  let d := setNvmeQueue d m.ctrl { q with done := (q.done + 1) % 2048, active := q.active.filter (fun x => x.1 ≠ id) }
  (memRead (memWrite d (reqOf (34 + m.ctrl / 16)) false a e).1 (reqOf (34 + m.ctrl / 16)) false a 16).1

/-- Commands of controller c that wait enter the queue as it has room. -/
def nvmeRefill (d : Device) (c : Nat) : Device :=
  let q := nvmeQueue d c
  q.wait.foldl nvmePut (setNvmeQueue d c { q with wait := [] })

/-- Every command in a queue for an owner ends: the first with a status, the others with success. -/
def nvmeEnds (d : Device) (owner : Nat × Option Nat) (status : Nat) : Device :=
  let mine := (upto 0 32).flatMap (fun c => (nvmeQueue d c).active.filter (fun x => x.2.owner == owner))
  let d := match mine with
    | (id, m) :: r => r.foldl (fun d x => nvmeDone d x.1 x.2 0) (nvmeDone d id m status)
    | [] => d
  (upto 0 32).foldl nvmeRefill d

/-- Commands of a clip, or of one record of it, that wait are not issued (R84, R286). -/
def nvmeWithdraw (d : Device) (p : Nat × Option Nat → Bool) : Device :=
  (upto 0 32).foldl (fun d c => let q := nvmeQueue d c; setNvmeQueue d c { q with wait := q.wait.filter (fun m => !p m.owner) }) d

/-- Cut blocks from b on at stripe units and at each controller's MDTS, into first block and number of blocks (R272, R278). -/
def nvmeCuts (d : Device) (c : Clip) : Nat → Nat → Nat → List (Nat × Nat)
  | 0, _, _ => []
  | f + 1, b, left =>
    if left = 0 then []
    else
      let m := ((c.members[memberOf c b]?).map ctrlOf).getD 0
      let mdts := tget 0 (m % 16) (rpAt d (m / 16)).mdts
      let n := min left (min (c.unit - b % c.unit) (if mdts = 0 then left else mdts))
      (b, n) :: nvmeCuts d c f (b + n) (left - n)

/-- The Write commands of data, in whole blocks, at clip block b (R272, R278). -/
def nvmeWrites (d : Device) (c : Clip) (owner : Nat × Option Nat) (b : Nat) (data : List Byte) (fua : Bool) : List NvmeCmd :=
  (nvmeCuts d c (data.length / 4096) b (data.length / 4096)).filterMap (fun e =>
    (c.members[memberOf c e.1]?).map (fun m =>
      { owner := owner, ctrl := ctrlOf m, nsid := m.nsid, flush := false, lba := lbaOf c e.1
        data := (data.drop (4096 * (e.1 - b))).take (4096 * e.2), fua := fua }))

/-- A Flush to every member (R283, R286). -/
def nvmeFlushes (c : Clip) (owner : Nat × Option Nat) : List NvmeCmd :=
  c.members.map (fun m => { owner := owner, ctrl := ctrlOf m, nsid := m.nsid, flush := true, lba := 0, data := [], fua := false })

/-- Issue commands to controllers that are ready; none for a clip that an emergency close ends (R286). -/
def nvmeIssue (d : Device) (l : List NvmeCmd) : Device :=
  l.foldl (fun d m => if ctrlReady d m.ctrl && !d.mag.emerg.any (fun r => r.clips.contains m.owner.1) then nvmePut d m else d) d

/-- The 256-byte record header of R280. -/
def recHeader (c : Clip) (kind seq cba blocks frame time len : Nat) : List Byte :=
  leBytes 4 0x44435246 ++ leBytes 2 1 ++ leBytes 1 kind ++ leBytes 1 0 ++ c.clipId ++ leBytes 8 seq ++ leBytes 8 cba ++
    leBytes 4 blocks ++ leBytes 4 frame ++ leBytes 8 time ++ leBytes 8 len ++ (c.clipId.take 4 ++ beBytes 8 seq) ++
    leBytes 4 c.keyId ++ leBytes 8 c.openTime ++ leBytes 168 0

/-- The IV of a record: CLIP_ID bytes 0–3, then SEQ big-endian, as a number (R280). -/
def recIv (c : Clip) (seq : Nat) : Nat := leNat (c.clipId.take 4 ++ beBytes 8 seq)

/-- The GCM tag of a record's payload with its header as associated data (R280). -/
def recTag (c : Clip) (seq : Nat) (header payload : List Byte) : Nat :=
  Config.gcmTag c.key (recIv c seq) header (Config.aes256 c.key (recIv c seq) payload)

/-- link_s of R281. -/
def linkOf (prev : Nat) (header : List Byte) (tag : Nat) (isVoid : Bool) : Nat :=
  Config.sha384 (leBytes 48 prev ++ header ++ leBytes 16 tag ++ leBytes 1 (ofFlag isVoid))

/-- The bytes of a record without TAG and LINK: header, payload ciphertext, zero padding (R280). -/
def recBody (c : Clip) (seq blocks : Nat) (header payload : List Byte) : List Byte :=
  padTo (4096 * blocks - 64) (header ++ Config.aes256 c.key (recIv c seq) payload)

/-- The last 4,032 bytes of a record's body. -/
def recFinal (blocks : Nat) (body : List Byte) : List Byte := body.drop (4096 * (blocks - 1))

/-- A record's TAG and LINK (R280). -/
def recTrailer (tag link : Nat) : List Byte := leBytes 16 tag ++ leBytes 48 link

/-- Issue the writes of a record of clip k. LINK is written with it when that of the record before is known; otherwise its last block
follows when it is (`linkNext`). -/
def issueRecord (d : Device) (k : Nat) (c : Clip) (r : ClipRec) (body : List Byte) : Device :=
  let link := if c.linked = r.seq then some (linkOf c.link r.header r.tag false) else none
  let r := { r with final := recFinal r.blocks body, sent := link }
  let d := setClip d k { c with recs := c.recs.map (fun x => if x.seq = r.seq then r else x) }
  nvmeIssue d (nvmeWrites d c (k, some r.seq) r.cba (body ++ recTrailer r.tag (link.getD 0)) false)

/-- The last block of a record of clip k whose link has been formed, written again unless it holds that LINK (R281, R282). -/
def issueTrailer (d : Device) (k : Nat) (c : Clip) (r : ClipRec) (tag link : Nat) : Device :=
  if r.sent = some link ∧ r.st = .written then d
  else nvmeIssue d (nvmeWrites d c (k, none) (r.cba + r.blocks - 1) (padTo 4032 r.final ++ recTrailer tag link) false)

/-- The seed link of R440. -/
def seedLink (clipId : List Byte) (keyId : Nat) (devFpr : List Byte) (t : Nat) : Nat :=
  Config.sha384 (asciiBytes "QD4960 CLIP" ++ clipId ++ beBytes 4 keyId ++ devFpr ++ beBytes 8 t)

/-- Records of the trailer index: at most 4,096 of those after the last seal (R284). -/
def recAfterSeal (c : Clip) : List ClipRec := c.recs.take 4096

/-- Reserve the clip's next record for a seal (R441): one block at NEXT_CBA, or of the seal overflow area when it would reach
the reserve; none when that is full too. -/
def reserveSeal (c : Clip) : Option Clip :=
  let rec0 := fun cba => ({ seq := c.nextSeq, cba := cba, blocks := 1, kind := 4, ticket := none, header := [], final := [], sent := none,
                            tag := 0, st := .reserved, status := 0, nvme := 0 } : ClipRec)
  if c.nextCba + 1 ≤ c.cap - 256 then
    some { c with recs := c.recs ++ [rec0 c.nextCba], nextSeq := c.nextSeq + 1, nextCba := c.nextCba + 1 }
  else if c.overflowNext < c.cap then
    some { c with recs := c.recs ++ [rec0 c.overflowNext], nextSeq := c.nextSeq + 1, overflowNext := c.overflowNext + 1 }
  else none

/-- A seal of clip k cannot be made (R443): the clip becomes seal-failed and KS_STAT.SEAL_FAIL counts it. -/
def sealFails (d : Device) (k : Nat) : Device :=
  let d := modClip d k (fun c => { c with sealFailed := true })
  { d with ks := { d.ks with sealFail := (d.ks.sealFail + 1) % 256 } }

/-- Trigger a seal of clip k (R441). -/
def triggerSeal (d : Device) (k : Nat) : Device :=
  match clipAt d k with
  | none => d
  | some c =>
    if c.sealFailed then d
    else match reserveSeal c with
      | some c => setClip d k c
      | none => sealFails d k

/-- The first instant OPEN + k × interval after a time. -/
def sealInstantAfter (c : Clip) (now : Nat) : Nat :=
  if c.interval = 0 then c.nextSeal else c.openTime + ((now - c.openTime) / c.interval + 1) * c.interval

/-- A record of clip k has completed: trigger a seal when a seal instant has been passed or the index is full (R441). A seal
record triggers no further seal. -/
def sealCheck (d : Device) (k : Nat) : Device :=
  match clipAt d k with
  | none => d
  | some c =>
    if c.closing.isSome then d
    else if c.interval ≠ 0 ∧ c.nextSeal ≤ d.time then
      triggerSeal (setClip d k { c with nextSeal := sealInstantAfter c d.time }) k
    else if 4096 ≤ (recAfterSeal c).length ∧ !c.recs.any (fun r => r.kind == 4 && decide (c.linked ≤ r.seq)) then
      triggerSeal d k
    else d

/-- RESULT of a MAGW (R283). -/
def magResult (cba nvme seq blocks : Nat) : List Byte :=
  leBytes 6 cba ++ leBytes 2 nvme ++ leBytes 4 seq ++ leBytes 4 blocks

/-- Form the link of the record whose turn it is, if it has ended, and end its WRITE (R279, R281). A seal record leaves the
index holding only what follows it. -/
def linkNext (d : Device) (k : Nat) : Option Device :=
  match clipAt d k with
  | none => none
  | some c =>
    match c.recs.find? (fun r => r.seq == c.linked) with
    | none => none
    | some r =>
      if r.st = .written ∨ r.st = .void then
        let isVoid := decide (r.st = .void)
        let tag := if isVoid then 0 else r.tag
        let d := issueTrailer d k c r tag (linkOf c.link r.header tag isVoid)
        let c := { c with link := linkOf c.link r.header tag isVoid, linked := c.linked + 1 }
        let c := if r.kind = 4 ∧ !isVoid then
            { c with lastSeal := some r.seq, recs := c.recs.filter (fun x => decide (r.seq < x.seq)), voids := 0, completes := 0 }
          else if isVoid then { c with voids := c.voids + 1 } else { c with completes := c.completes + 1 }
        let d := setClip d k c
        let d := match r.ticket with
          | some t => finishWo d t r.status 0 (magResult r.cba r.nvme r.seq r.blocks)
          | none => d
        some (if isVoid ∨ r.kind = 4 then d else sealCheck d k)
      else none

/-- Link ended records in SEQ order until one is found that has not ended. -/
def linkAll (k : Nat) : Nat → Device → Device
  | 0, d => d
  | n + 1, d => match linkNext d k with | some e => linkAll k n e | none => d

/-! CLOSE (R283). -/

/-- Every member of a clip is ready. -/
def membersReady (d : Device) (c : Clip) : Bool := c.members.all (fun m => ctrlReady d (ctrlOf m))

/-- Blocks of a clip's trailer (R284). -/
def trailerBlocks (c : Clip) : Nat := 1 + ((recAfterSeal c).length * 16 + 4095) / 4096

/-- The clip trailer that a close with a REASON writes (R284), in whole blocks. LAST_SEAL of a clip without a seal record is not stated. -/
def clipTrailer (d : Device) (c : Clip) (reason : Nat) : List Byte :=
  let entry := fun (r : ClipRec) => leBytes 8 r.seq ++ leBytes 6 r.cba ++
    leBytes 1 (match r.st with | .written => 0 | .void => 2 | _ => 1) ++ leBytes 1 r.kind
  let head := leBytes 4 0x52544C43 ++ leBytes 2 1 ++ leBytes 1 reason ++ leBytes 1 0 ++ c.clipId ++ leBytes 8 c.nextSeq ++
    leBytes 8 c.nextCba ++ leBytes 8 d.time ++ leBytes 48 c.link ++ leBytes 8 (c.lastSeal.getD (free d 63)) ++
    leBytes 4 (recAfterSeal c).length ++ leBytes 4 0 ++ leBytes 8 c.openTime
  padTo (4096 * trailerBlocks c) (padTo 4096 head ++ (recAfterSeal c).flatMap entry)

/-- A CLOSE cannot reach a member: it ends with 0x80 and the clip stays open (R275). -/
def closeDown (d : Device) (k : Nat) (c : Clip) (t : Nat) : Device :=
  finishWo (setClip d k { c with closing := none, flushing := false }) t 0x80 0 (magResult (c.cap - 256) 0 c.nextSeq 0)

/-- Write the trailer of a closing clip with FUA and flush every member (R283). -/
def closeTrailer (d : Device) (k : Nat) (t : Nat) : Device :=
  match clipAt d k with
  | none => d
  | some c =>
    if membersReady d c then
      let d := setClip d k { c with flushing := true }
      nvmeIssue d (nvmeWrites d c (k, none) (c.cap - 256) (clipTrailer d c 0) true ++ nvmeFlushes c (k, none))
    else closeDown d k c t

/-- A CLOSE goes on once every earlier record of its clip has ended: its final seal, then the trailer (R283, R443). -/
def closeAdvance (d : Device) (k : Nat) : Device :=
  match clipAt d k with
  | none => d
  | some c =>
    match c.closing with
    | none => d
    | some t =>
      if c.flushing ∨ c.linked ≠ c.nextSeq ∨ d.mag.emerg.any (fun r => r.clips.contains k) then d
      else if c.finalDone ∨ c.sealFailed then closeTrailer d k t
      else if !membersReady d c then closeDown d k c t
      else match reserveSeal c with
        | some c => setClip d k { c with finalDone := true }
        | none => closeTrailer (sealFails d k) k t

/-- Write the final records of clip k that are due, in SEQ order (R279), and let its CLOSE go on. -/
def magDrain (d : Device) (k : Nat) : Device :=
  closeAdvance (linkAll k (((clipAt d k).map (fun c => c.recs.length)).getD 0) d) k

/-- End record seq of clip k as void with a status (R282). -/
def voidRec (d : Device) (k seq status : Nat) : Device :=
  modClip d k (fun c => { c with recs := c.recs.map (fun r =>
    if r.seq = seq ∧ (r.st = .flight ∨ r.st = .reserved) then { r with st := .void, status := status, tag := 0 } else r) })

/-- Sequence numbers of clip k's running WRITEs with commands to a controller. -/
def flightOn (c : Clip) (ctrl : Nat) : List Nat :=
  (c.recs.filter (fun r => r.st == .flight && touches c r.cba r.blocks ctrl)).map (·.seq)

/-- A CLOSE of clip k whose trailer or flush goes to a controller that is lost ends with 0x80. -/
def closeLost (d : Device) (k ctrl : Nat) : Device :=
  match clipAt d k with
  | none => d
  | some c =>
    match c.closing with
    | some t => if c.flushing ∧ c.members.any (fun m => ctrlOf m == ctrl) then closeDown d k c t else d
    | none => d

/-- Controller ctrl is lost (R275): it leaves CTRL_MASK, and its queues with it; every MAGW with commands to it ends with 0x80 and its record becomes
void; its clips stay open. -/
def controllerLost (d : Device) (ctrl : Nat) : Device :=
  let p := rpAt d (ctrl / 16)
  let d := setNvmeQueue d ctrl NvmeQueue.reset
  let d := setRp d (ctrl / 16) { p with ready := p.ready - (if bitOf p.ready (ctrl % 16) then 2 ^ (ctrl % 16) else 0) }
  (d.mag.clips.map (·.1)).foldl (fun d k =>
    match clipAt d k with
    | none => d
    | some c => closeLost (magDrain ((flightOn c ctrl).foldl (fun d s => voidRec d k s 0x80) d) k) k ctrl) d

/-- Ring r of the NVMe range is reset or disabled: its controller counts as lost (R273, R330). -/
def nvmeRingLost (d : Device) (r : Nat) : Device :=
  if magRingBase d ≤ r ∧ r < magRingBase d + 64 then controllerLost d ((r - magRingBase d) / 2) else d

end Sys2Proof.Machine
end

