-- ==== Sys2Proof/Machine/Rings.lean ====
section
/-! DEFINITION. Rings (R323–R332): binding, push and pop, head and tail registers, packets, reset, enable and disable. -/

namespace Sys2Proof.Machine

/-- Ring r. -/
def ringAt (d : Device) (r : Nat) : Ring := tget Ring.reset r d.rings

/-- Change ring r. -/
def setRing (d : Device) (r : Nat) (x : Ring) : Device := { d with rings := tset Ring.reset r x d.rings }

/-- Entries a ring holds at most (R326). -/
def Ring.size (r : Ring) : Nat := 2 ^ r.sizeLog2

/-- Entries free in a ring. -/
def Ring.room (r : Ring) : Nat := r.size - r.entries.length

/-- The phase of the next record written: 1 on odd passes, pass 1 being the first (R326). -/
def Ring.phase (r : Ring) : Bool := decide (r.wr / r.size % 2 = 0)

/-- The two copies of the indices agree (R330). -/
def Ring.sound (r : Ring) : Bool := decide (r.rd = r.rd2) && decide (r.wr = r.wr2)

/-- Entries that lie in the store: in neither register (R326). -/
def Ring.stored (r : Ring) : Nat := r.entries.length - r.head - r.tail

/-- A code of R324 that names a stream context. -/
def isCtx (code : Nat) : Bool := decide (code < 512)

/-- A code of R324 that names a host function. -/
def isHost (code : Nat) : Bool := decide (0x8000 ≤ code) && decide (code < 0x8010)

/-- With nothing between the registers, the tail register's entries move up into the head register (R326). -/
def Ring.meet (r : Ring) : Ring :=
  if r.stored = 0 then
    let m := min r.tail (8 - r.head)
    { r with head := r.head + m, tail := r.tail - m }
  else r

/-- The oldest deliverable entry (R327): an entry marked SOP is found only when its packet's EOP, or CUT of its entries, are
present. -/
def Ring.front (r : Ring) : Option Entry :=
  match r.entries with
  | [] => none
  | e :: _ =>
    if !e.sop || r.entries.any (·.eop) || (r.cut != 0 && decide (r.cut ≤ r.entries.length)) then some e else none

/-- The ring as its consumer sees it with the oldest entry removed. -/
def Ring.popped (r : Ring) : Ring :=
  match r.entries with
  | [] => r
  | e :: rest =>
    Ring.meet { r with entries := rest, head := r.head - 1, rd := r.rd + 1, rd2 := r.rd2 + 1, lastSop := e.sop, lastEop := e.eop }

/-- The ring with an entry appended: into the tail register, whose oldest entry goes to the store when it is full (R326). -/
def Ring.pushed (r : Ring) (e : Entry) : Ring :=
  Ring.meet { r with entries := r.entries ++ [e], tail := min 8 (r.tail + 1), wr := r.wr + 1, wr2 := r.wr2 + 1 }

/-- Move entries of the store into the head register (R326). -/
def Ring.refilled (r : Ring) : Ring := Ring.meet { r with head := r.head + min (8 - r.head) r.stored }

/-- The ring emptied, its indices and pass count restarted (R330). -/
def Ring.cleared (r : Ring) : Ring :=
  { r with entries := [], head := 0, tail := 0, rd := 0, wr := 0, rd2 := 0, wr2 := 0 }

/-- The reset token of a host read (R330). -/
def resetToken : List Byte := leBytes 4 0xFFFFFFFF ++ leBytes 1 0x44 ++ leBytes 27 0

/-- The empty token of a host read (R329). -/
def emptyToken : List Byte := leBytes 4 0xFFFFFFFF ++ leBytes 28 0

/-- The host function that consumes a ring. -/
def ringHost (r : Ring) : Option Nat := if r.en && isHost r.consumer then some (r.consumer - 0x8000) else none

/-- A reset of ring n (R330). -/
def ringReset (d : Device) (n : Nat) : Device :=
  let r := ringAt d n
  let waits := r.en && !r.hostWait.isEmpty
  let d := setRing d n { r.cleared with
    noticeP := r.noticeP || (r.en && isCtx r.producer), noticeC := r.noticeC || (r.en && isCtx r.consumer)
    resetP := r.resetP || (r.en && isHost r.producer), resetC := r.resetC || (r.en && isHost r.consumer)
    token := (r.token || (r.en && isHost r.consumer)) && !waits, hostWait := r.hostWait.drop 1 }
  let d := if waits then emit d (.hostData (r.consumer - 0x8000) resetToken false) else d
  let d := { d with ringResets := (d.ringResets + 1) % 65536, ringLast := n }
  -- a NETTX discards the partial packet it has read from the ring (R375)
  let d := { d with eth := { d.eth with
    nettx := d.eth.nettx.map (fun e => if e.2.ring = n then (e.1, { e.2 with part := [] }) else e) } }
  if r.en && r.producer == 0xC001 then nvmeRingLost d n else d

/-- A mismatch of the two copies of a ring's indices, found at a push or pop: a reset with the F2 event of R330. -/
def ringCheck (d : Device) (n : Nat) : Device :=
  let r := ringAt d n
  if r.sound || r.producer == 0xC001 then d else plumbEvent (ringReset d n) 433 n

/-- The oldest entry of the full tail register goes to the store, in DRAM at (index mod size) × 32 (R326). -/
def spill (d : Device) (r : Ring) : Device :=
  if 8 ≤ r.tail then
    match r.entries[r.entries.length - 8]? with
    | some e => (memWrite d (reqOf 42) false (bufBase d (handleIdx r.store) + (r.wr - 8) % r.size * 32) e.data).1
    | none => d
  else d

/-- The oldest deliverable entry goes to a read of host function f and is removed (R329). -/
def hostTake (d : Device) (n f : Nat) (x : Entry) (waits : List Nat) : Device :=
  let r := ringAt d n
  emit (setRing d n { Ring.popped (if r.head = 0 then r.refilled else r) with hostWait := waits }) (.hostData f x.data false)

/-- Host reads of ring n that wait take what has become deliverable, oldest read first (R329). -/
def serveWaits (d : Device) (n : Nat) : List Nat → Device
  | [] => d
  | _ :: rest =>
    match ringHost (ringAt d n), (ringAt d n).front with
    | some f, some x => serveWaits (hostTake d n f x rest) n rest
    | _, _ => d

/-- Append an entry to ring n, which has room: the entry, the event of R403, and the host reads that wait (R329). -/
def ringAppend (d : Device) (n : Nat) (e : Entry) : Device :=
  let r := ringAt d n
  let d := setRing (spill d r) n (r.pushed e)
  let d := match ringHost r with
    | some f => if r.irqEn then msixEvent d f r.vec else d
    | none => d
  serveWaits d n r.hostWait

/-- What becomes of an entry a unit or core pushes into ring n. -/
inductive PushRes
  | appended | full | dropped
  deriving DecidableEq, Repr

/-- Ring n takes records of units now. -/
def unitRing (d : Device) (n : Nat) : Bool := (ringAt d n).en && (ringAt d n).producer == 0xC000

/-- A unit or core pushes an entry (R325, R326): dropped and counted in RING_LOST at a disabled ring; `rec` says that it is a
record, whose phase bit the ring engine writes. -/
def unitPush (d : Device) (n : Nat) (e : Entry) (rec : Bool) : Device × PushRes :=
  if !unitRing d n then ({ d with ringLost := (d.ringLost + 1) % 2 ^ 32 }, .dropped)
  else
    let d := ringCheck d n
    let r := ringAt d n
    if r.room = 0 then (d, .full)
    else (ringAppend d n { e with data := if rec then phaseRec e.data r.phase else e.data }, .appended)

/-- A single-entry record of a unit (R327). -/
def unitRecord (d : Device) (n : Nat) (bytes : List Byte) : Device × PushRes :=
  unitPush d n { data := padTo 32 bytes, sop := true, eop := true } true

/-! Configuration (R325). -/

/-- A binding code pair of R324 for ring n: the magazine engine's code must be both, within its range. -/
def bindOk (d : Device) (n p c : Nat) : Bool :=
  let base := magRingBase d
  let mag := p == 0xC001 && c == 0xC001 && decide (base ≤ n) && decide (n < base + 64)
  mag || ((isCtx p || isHost p || p == 0xC000) && (isCtx c || isHost c))

/-- The conditions of R325 on a write of EN = 1 by function f with a size. -/
def ringEnOk (d : Device) (n f log : Nat) : Bool :=
  let r := ringAt d n
  decide (4 ≤ log) && decide (log ≤ 20) && handleStatus d (funcOwner f) r.store == 0 &&
    decide (2 ^ log * 32 ≤ bufSize d (handleIdx r.store)) && bindOk d n r.producer r.consumer &&
    (decide (n < 4096) || !(isHost r.producer || isHost r.consumer))

/-- Enable ring n for function f (R325): bind it and take its store, or ERR. -/
def ringEnable (d : Device) (n f log : Nat) : Device :=
  let r := ringAt d n
  if ringEnOk d n f log then
    let i := handleIdx r.store
    let d := setRing d n { r.cleared with
      en := true, sizeLog2 := log, noticeP := false, noticeC := false, resetP := false, resetC := false
      token := false, lastSop := false, lastEop := false, hostWait := [] }
    loseLoads (setBuf d i { bufAt d i with st := .ring }) r.store
  else setRing d n { r with err := true }

/-- A context stalled in a POP of ring n owes it a status of 0x44 (R37). -/
def popOwed (n : Nat) (x : HoltCtx) : HoltCtx :=
  match x.wait with
  | some (.pop r _ ha) => if r = n then { x with wait := some (.popReset ha) } else x
  | _ => x

/-- A write of EN = 0 by function f (R325, R37): the ring is emptied, a stalled POP is owed 0x44, and the store returns to the
disabling function as OWNED. Of the host reads that wait the first gets the reset token; the others read a ring that has no consumer
any more (R12). -/
def ringDisable (d : Device) (n f : Nat) : Device :=
  let r := ringAt d n
  if !r.en then d
  else
    let i := handleIdx r.store
    let b := bufAt d i
    let d := setRing d n { r.cleared with
      en := false, noticeP := false, noticeC := false, resetP := false, resetC := false, token := false, hostWait := [] }
    let d := match r.hostWait with
      | [] => d
      | _ :: more => more.foldl (fun d _ => emit d (.hostData (r.consumer - 0x8000) (List.replicate 32 0) false))
          (emit d (.hostData (r.consumer - 0x8000) resetToken false))
    let d := { setBuf d i { b with st := .owned, owner := funcOwner f } with ctxs := d.ctxs.map (fun e => (e.1, popOwed n e.2)) }
    if r.producer = 0xC001 then nvmeRingLost d n else d

/-- A write of RING_CTRL of ring n by function f (R325, R330). A new CUT may deliver an entry that host reads wait for (R327). -/
def ringCtrlWrite (d : Device) (n f v : Nat) : Device :=
  let r := ringAt d n
  let r := { r with irqEn := bitOf v 29, cut := bitsOf v 23 16, vec := bitsOf v 6 0
                    err := r.err || (r.en && bitsOf v 28 24 != r.sizeLog2)
                    sizeLog2 := if r.en then r.sizeLog2 else bitsOf v 28 24 }
  let d := setRing d n r
  let d := if bitOf v 31 then (if r.en then d else ringEnable d n f (bitsOf v 28 24)) else ringDisable d n f
  let d := if bitOf v 30 then ringReset d n else d
  serveWaits d n (ringAt d n).hostWait

/-- A write of RING_BIND (R325). -/
def ringBindWrite (d : Device) (n v : Nat) : Device :=
  let r := ringAt d n
  setRing d n (if r.en then { r with err := true } else { r with producer := bitsOf v 15 0, consumer := bitsOf v 31 16 })

/-- A write of RING_STORE (R325). -/
def ringStoreWrite (d : Device) (n v : Nat) : Device :=
  let r := ringAt d n
  setRing d n (if r.en then { r with err := true } else { r with store := v })

/-- RING_STAT of ring n. -/
def ringStat (d : Device) (n : Nat) : Nat :=
  let r := ringAt d n
  ofFlag r.phase * 2 ^ 31 + ofFlag r.err * 2 ^ 30 + r.drop % 256 * 2 ^ 21 + r.entries.length

/-- RING_CTRL of ring n as read. -/
def ringCtrl (d : Device) (n : Nat) : Nat :=
  let r := ringAt d n
  ofFlag r.en * 2 ^ 31 + ofFlag r.irqEn * 2 ^ 29 + r.sizeLog2 * 2 ^ 24 + r.cut * 2 ^ 16 + r.vec

/-! Host access (R328, R329). -/

/-- A dropped host push is counted in RING_STAT.DROP of the ring addressed (R328). -/
def hostPushDrop (d : Device) (n : Nat) : Device :=
  let r := ringAt d n
  setRing d n { r with drop := (r.drop + 1) % 256 }

/-- A push by function f into ring n (R328). -/
def hostPush (d : Device) (f n : Nat) (data : List Byte) (sop eop : Bool) : Device :=
  let r := ringAt d n
  if decide (n < 4096) && r.en && r.producer == funcOwner f && funcOn d f && !funcBusy d f && data.length == 32 then
    let d := ringCheck d n
    if (ringAt d n).room = 0 then hostPushDrop d n else ringAppend d n { data := data, sop := sop, eop := eop }
  else hostPushDrop d n

/-- RING_GLOBAL.HOST_STALL_NS as it acts (R329). -/
def hostStall (d : Device) : Nat := min 10000 (bitsOf (reg d 0x700000 2000) 15 0)

/-- A read at slot offset 0x80 by function f (R329, R330). -/
def hostPop (d : Device) (f n size : Nat) : Device :=
  if decide (4096 ≤ n) || !funcOn d f || funcBusy d f || size ≠ 32 || !(ringAt d n).en ||
      (ringAt d n).consumer ≠ funcOwner f then
    emit d (.hostData f (List.replicate size 0) false)
  else
    let d := ringCheck d n
    let r := ringAt d n
    if r.token then emit (setRing d n { r with token := false }) (.hostData f resetToken false)
    else match r.front with
      | some e => hostTake d n f e r.hostWait
      | none => setRing d n { r with hostWait := r.hostWait ++ [d.up + hostStall d] }

/-- HOST_STALL_NS has passed for a waiting read without an entry: the empty token (R329). -/
def hostPopTimeout (d : Device) (n : Nat) : Device :=
  let r := ringAt d n
  match splitFirst (fun t => decide (t ≤ d.up)) r.hostWait with
  | some (pre, _, post) => emit (setRing d n { r with hostWait := pre ++ post }) (.hostData (r.consumer - 0x8000) emptyToken false)
  | none => d

/-- A 4-byte read at slot offset 0xA0 by function f (R328); the reader's RESET bit clears. -/
def ringStatusRead (d : Device) (f n : Nat) : Device :=
  let r := ringAt d n
  let p := r.producer == funcOwner f
  let c := r.consumer == funcOwner f
  if decide (n < 4096) && r.en && (p || c) && funcOn d f && !funcBusy d f then
    let bit := (p && r.resetP) || (c && r.resetC)
    let v := r.entries.length + ofFlag r.lastSop * 2 ^ 24 + ofFlag r.lastEop * 2 ^ 25 + ofFlag bit * 2 ^ 26
    emit (setRing d n { r with resetP := r.resetP && !p, resetC := r.resetC && !c }) (.hostData f (leBytes 4 v) false)
  else emit d (.hostData f (leBytes 4 0) false)

end Sys2Proof.Machine
end

