-- ==== Sys2Proof/Machine/Keys.lean ====
section
/-! DEFINITION. Life-cycle state and the availability of keys (R431, R452, R457). -/

namespace Sys2Proof.Machine

/-- The state a life-cycle code names: 0 BLANK, 1 PROVISIONED, 2 FIELD, 3 RETURN, 4 DECOMMISSIONED (R452). -/
def lcOfCode (c : Nat) : Option Nat :=
  if c = 0x0000 then some 0 else if c = 0x1111 then some 1 else if c = 0x3333 then some 2
  else if c = 0x7777 then some 3 else if c = 0xFFFF then some 4 else none

/-- The code of a life-cycle state (R452). -/
def codeOfLc (s : Nat) : Nat :=
  if s = 0 then 0x0000 else if s = 1 then 0x1111 else if s = 2 then 0x3333 else if s = 3 then 0x7777 else 0xFFFF

/-- The life-cycle state: both copies a valid code and equal (R432). -/
def lcState (fz : Fuses) : Option Nat := if fz.lcA = fz.lcB then lcOfCode fz.lcA else none

/-- The Queleivo signer's key is available (R431). -/
def keyQueleivo (fz : Fuses) : Bool := match lcState fz with | some s => decide (s < 4) | none => false

/-- The maker signer's key is available (R431): in PROVISIONED once enrolled, in FIELD. -/
def keyMaker (fz : Fuses) : Bool :=
  match lcState fz with | some s => (s == 1 && fz.makerSet) || s == 2 | none => false

/-- The key of SIGNER 1 or 2 is available. -/
def keySigner (fz : Fuses) (s : Nat) : Bool := if s = 1 then keyQueleivo fz else if s = 2 then keyMaker fz else false

/-- Clip keys and ENROL are available (R431), and no F4 record is latched (R457). -/
def keyClip (fz : Fuses) (d : Device) : Bool :=
  (match lcState fz with | some s => s == 1 || s == 2 | none => false) && !f4Latched d

/-- DSK and DXK are available (R430, R431, R457). -/
def keyDsk (fz : Fuses) (d : Device) : Bool := keyClip fz d && d.ks.record && !fz.dusKill

/-- Debug access is locked (R431). -/
def debugLocked (fz : Fuses) : Bool := match lcState fz with | some s => s == 2 || s == 4 | none => false

/-- Anti-rollback counter n (R433). -/
def arbCount (fz : Fuses) (n : Nat) : Nat :=
  if n = 0 then fz.arb0 else if n = 1 then fz.arb1 else if n = 2 then fz.arb2 else fz.arb3

/-- A version of class n has been verified: RUN keeps the highest since boot (R433). -/
def arbRun (d : Device) (n v : Nat) : Device :=
  { d with ks := { d.ks with run := tmod 0 n (max v) d.ks.run } }

/-- The key of SIGNER 1 (Queleivo) or 2 (the maker enrolled in the fuses), as a number (R59, R430). -/
def signerKey (fz : Fuses) (s : Nat) : Nat := if s = 2 then 2 + fz.makerHash else s

/-- One signature over a message is checked with a key: what was found before for the same bytes stands, otherwise what is found now. -/
def sigCheck (d : Device) (alg key : Nat) (msg sig : List Byte) (found : Bool) : Device × Bool :=
  match d.verdicts.find? (fun v => v.alg == alg && v.key == key && v.msg == msg && v.sig == sig) with
  | some v => (d, v.ok)
  | none => ({ d with verdicts := d.verdicts ++ [{ alg := alg, key := key, msg := msg, sig := sig, ok := found }] }, found)

/-- A signature block of 3,456 bytes verifies (R59, R449): its ECDSA P-384 signature of 96 bytes and its ML-DSA-65 signature of 3,309
bytes, both over the message. -/
def hybridOk (d : Device) (key : Nat) (msg block : List Byte) (found : SigOk) : Device × Bool :=
  let (d, ec) := sigCheck d 0 key msg (block.take 96) found.ec
  let (d, ml) := sigCheck d 1 key msg ((block.drop 96).take 3309) found.ml
  (d, ec && ml)

end Sys2Proof.Machine
end

