-- ==== Sys2Proof/Machine/Threads.lean ====
section
/-! DEFINITION. Stream contexts: segment descriptors (R23, R24), traps and thread records (R50), program images (R57–R60) and
thread commands (R63, R70). -/

namespace Sys2Proof.Machine

/-! Segment descriptors. -/

/-- VALID. -/
def SegDesc.valid (s : SegDesc) : Bool := bitOf s.lo.toNat 63

/-- CLASS: 0 DRAM, 1 ASHLAR, 2 WINDOW. -/
def SegDesc.cls (s : SegDesc) : Nat := bitsOf s.lo.toNat 53 52

/-- The atomic right. -/
def SegDesc.a (s : SegDesc) : Bool := bitOf s.lo.toNat 51

/-- The execute right. -/
def SegDesc.x (s : SegDesc) : Bool := bitOf s.lo.toNat 50

/-- The write right. -/
def SegDesc.w (s : SegDesc) : Bool := bitOf s.lo.toNat 49

/-- The read right. -/
def SegDesc.r (s : SegDesc) : Bool := bitOf s.lo.toNat 48

/-- BASE. -/
def SegDesc.base (s : SegDesc) : Nat := bitsOf s.lo.toNat 47 0

/-- LIMIT. -/
def SegDesc.limit (s : SegDesc) : Nat := bitsOf s.hi.toNat 39 0

/-- The descriptor of a slot that nothing has installed. -/
def SegDesc.empty : SegDesc := { lo := 0, hi := 0 }

/-- Two ends of a range lie in one range of R8 that the class allows (R24). -/
def classRange (d : Device) (isSealed : Bool) (cls lo hi : Nat) : Bool :=
  match cls, regionOf d lo, regionOf d hi with
  | 0, .dram, .dram => true
  | 0, .ce, .ce => true
  | 0, .ctl, .ctl => true
  | 1, .ashlar _, .ashlar _ => true
  | 1, .abs, .abs => isSealed
  | 2, .dram, .dram => true
  | _, _, _ => false

/-- A descriptor is accepted for installation (R24). -/
def descOk (d : Device) (isSealed : Bool) (s : SegDesc) : Bool :=
  bitsOf s.hi.toNat 63 40 == 0 && bitsOf s.lo.toNat 62 54 == 0 &&
    (!s.valid ||
      (s.cls != 3 && s.base % 64 == 0 && decide (s.base + s.limit < 2 ^ 48) &&
        classRange d isSealed s.cls s.base (s.base + s.limit) && (!s.a || s.cls == 1) && (!s.x || s.cls != 2)))

/-! Traps and thread records. -/

/-- The core of a context. -/
def coreOf (c : Nat) : Nat := c / 64

/-- The PC in the form of R50 bytes 24–29. -/
def pcForm (pc : Word) : Nat := pc.toNat % 2 ^ 40 + bitsOf pc.toNat 63 60 * 2 ^ 40

/-- An event of group MASON of a core, on behalf of context c (R484). -/
def masonEvent (d : Device) (c event n : Nat) : Device :=
  let x := ctxAt d c
  perfEvent d 1 event (coreOf c) n x.isSealed (pcForm x.pc) c

/-- Stop a thread with a record that its core holds until the owner ring takes it (R50). -/
def stopRecord (d : Device) (c status cause detail : Nat) (operand : Word) : Device :=
  let x := ctxAt d c
  let d := setCtx d c { x with st := .stopped, wait := none }
  { d with threadRecs := d.threadRecs ++
      [{ ctx := c, func := x.func, ring := x.ownerRing, status := status, time := d.time, operand := operand,
         pc := x.pc, cause := cause, detail := detail }] }

/-- A trap of context c (R50): the PC and registers stay; the record has status 0x22; a violation of a segment's limit or
rights, or a missing sealed flag, is an ownership violation of R13. -/
def takeTrap (d : Device) (c cause detail : Nat) (operand : Word) : Device :=
  let d := masonEvent d c 5 1
  let d := if (cause = 2 ∧ detail ≤ 1) ∨ (cause = 7 ∧ detail = 0) then plumbEvent d 441 c else d
  stopRecord d c 0x22 cause detail operand

/-- The 32 bytes of a thread record (R50). -/
def threadBytes (r : ThreadRec) : List Byte :=
  leBytes 4 (0xFFFFF000 + r.ctx) ++ leBytes 1 r.status ++ leBytes 1 r.func ++ leBytes 1 (120 + coreOf r.ctx) ++
    leBytes 1 0 ++ leBytes 8 r.time ++ leBytes 8 r.operand.toNat ++ leBytes 6 (pcForm r.pc) ++ leBytes 1 r.cause ++
    leBytes 1 r.detail

/-- Write the oldest held record of context c, once its owner ring is enabled with producer 0xC000 and has room; then raise
the thread-stop interrupt (R50). -/
def threadRecordWrite (d : Device) (c : Nat) : Device :=
  match splitFirst (fun r => r.ctx == c) d.threadRecs with
  | none => d
  | some (pre, r, post) =>
    if unitRing d r.ring then
      match unitRecord d r.ring (threadBytes r) with
      | (d', .appended) => intcEvent { d' with threadRecs := pre ++ post } (64 + coreOf c)
      | (d', _) => d'
    else d

/-! Loads (R60). -/

/-- MT_IMAGE of context c. -/
def mtImage (d : Device) (c : Nat) : Nat := reg d (0x3001004 + c / 64 * 0x100000 + c % 64 * 0x40) 0


/-- The LOAD command (R60 steps 1 and 2, R63). -/
def mtLoad (d : Device) (c : Nat) : Device :=
  let x := ctxAt d c
  if x.st ≠ .empty then setCtx d c { x with cmdErr := true }
  else
    let h := mtImage d c
    let f := assignFunc d c
    let d := setCtx d c { x with st := .loading, func := f }
    let st := handleStatus d (funcOwner f) h
    if st ≠ 0 then loadFail (yardEvent d h) c st
    else setCtx (holdBuf d (handleIdx h)) c { x with st := .loading, func := f, load := some { handle := h } }

/-- An entry of an image's segment table (R58), relocated by the image buffer's base. -/
def imageSeg (base : Nat) (e : List Byte) : Nat × SegDesc :=
  let lo := fieldAt e 0 8
  let b := bitsOf lo 47 0 + (if fieldAt e 16 1 = 1 then base else 0)
  (fieldAt e 17 1, { lo := BitVec.ofNat 64 (setBits lo 47 0 b), hi := BitVec.ofNat 64 (fieldAt e 8 8) })

/-- The entry relocates to an address of 48 bits. -/
def imageSegFits (base : Nat) (e : List Byte) : Bool :=
  decide (bitsOf (fieldAt e 0 8) 47 0 + (if fieldAt e 16 1 = 1 then base else 0) < 2 ^ 48)

/-- The bytes of n table entries of 24 bytes. -/
def imageEntries (t : List Byte) : Nat → List (List Byte)
  | 0 => []
  | n + 1 => t.take 24 :: imageEntries (t.drop 24) n

/-- Each number appears at most once. -/
def noRepeat : List Nat → Bool
  | [] => true
  | a :: r => !r.contains a && noRepeat r

/-- Header fields within their ranges, reserved fields 0 (R57, R60 step 3). -/
def imageHeaderOk (h : List Byte) (size : Nat) : Bool :=
  fieldAt h 0 4 == 0x544C4F48 && fieldAt h 4 2 == 1 && decide (fieldAt h 6 2 ≤ 1) &&
    decide (fieldAt h 8 4 % 256 = 0) && decide (256 ≤ fieldAt h 8 4) && decide (fieldAt h 12 4 ≤ 63) &&
    decide (fieldAt h 24 1 ≤ 7) && decide (fieldAt h 25 1 ≤ 7) && decide (fieldAt h 24 1 ≤ fieldAt h 25 1) &&
    decide (fieldAt h 26 2 ≤ 8191) && decide (1 ≤ fieldAt h 28 1) && decide (fieldAt h 28 1 ≤ 127) &&
    decide (fieldAt h 29 1 ≤ 2) && decide (1 ≤ fieldAt h 30 1) && decide (fieldAt h 30 1 ≤ 16) && zeroAt h 31 1 &&
    decide (fieldAt h 32 4 % 8 = 0) && decide (fieldAt h 32 4 + fieldAt h 30 1 * 24 ≤ fieldAt h 8 4) && zeroAt h 36 28 &&
    decide (fieldAt h 8 4 + (if fieldAt h 29 1 = 0 then 0 else 3456) ≤ size) &&
    (fieldAt h 6 2 == 0 || fieldAt h 29 1 != 0)

/-- The segment table and ENTRY (R58, R60 step 3). -/
def imageTableOk (d : Device) (h : List Byte) (base : Nat) (es : List (List Byte)) : Bool :=
  let isSealed := fieldAt h 6 2 == 1
  let segs := es.map (imageSeg base)
  let entry := fieldAt h 16 8
  es.all (fun e => decide (fieldAt e 16 1 ≤ 1) && decide (fieldAt e 17 1 ≤ 15) && zeroAt e 18 6 && imageSegFits base e) &&
    noRepeat (segs.map (·.1)) && segs.all (fun s => descOk d isSealed s.2 && (!isSealed || !(s.2.w && s.2.x))) &&
    bitsOf entry 59 40 == 0 &&
    segs.any (fun s => s.1 == bitsOf entry 63 60 && s.2.valid && s.2.x && decide (bitsOf entry 39 0 ≤ s.2.limit))

/-- Segments in slot order, as a table. -/
def segTable (l : List (Nat × SegDesc)) : Table SegDesc := l.foldl (fun t e => tset SegDesc.empty e.1 e.2 t) []

/-- Every check has passed (R60): the buffer goes to the context, which ends any other load of it, the image is installed, LOADED. -/
def loadInstall (d : Device) (c handle : Nat) (h : List Byte) (segs : List (Nat × SegDesc)) (isSealed : Bool) : Device :=
  let i := handleIdx handle
  let d := unholdBuf d i
  let d := setCtx d c { ctxAt d c with load := none }
  let d := loseLoads (setBuf d i { bufAt d i with owner := ctxOwner c }) handle
  let x := ctxAt d c
  let cap := bitsOf (mtAssign d c) 2 0
  intcEvent (setCtx d c { x with
    st := .loaded, loadStatus := 0, segs := segTable segs, segFresh := [], isSealed := isSealed
    image := some { handle := handle, entry := BitVec.ofNat 64 (fieldAt h 16 8), segs := segs }
    prio := min (fieldAt h 24 1) cap, prioMax := min (fieldAt h 25 1) cap, ownerRing := fieldAt h 26 2
    tkLimit := fieldAt h 28 1 }) (72 + coreOf c)

/-- A load ends (R60 steps 3 to 5, R59). `sigOk` says what a check of its signatures finds. -/
def loadComplete (fz : Fuses) (d : Device) (c : Nat) (sigOk : SigOk) : Device :=
  let x := ctxAt d c
  match x.load with
  | none => d
  | some l =>
    let req := 24 + coreOf c
    let i := handleIdx l.handle
    match bufRead d req l.handle 0 64 with
    | (d, none) => loadFail d c 0x20
    | (d, some h) =>
      if !imageHeaderOk h (bufSize d i) then loadFail d c 0x31
      else
        match bufRead d req l.handle (fieldAt h 32 4) (fieldAt h 30 1 * 24) with
        | (d, none) => loadFail d c 0x20
        | (d, some t) =>
          let es := imageEntries t (fieldAt h 30 1)
          let signer := fieldAt h 29 1
          if !imageTableOk d h (bufBase d i) es then loadFail d c 0x31
          else if signer ≠ 0 ∧ !keySigner fz signer then loadFail d c 0x71
          else
            match bufRead d req l.handle 0 (fieldAt h 8 4 + (if signer = 0 then 0 else 3456)) with
            | (d, none) => loadFail d c 0x20
            | (d, some img) =>
              let size := fieldAt h 8 4
              let (d, verified) := if signer = 0 then (d, true) else hybridOk d (signerKey fz signer) (img.take size) (img.drop size) sigOk
              if !verified then loadFail d c 0x70
              else
                let d := if signer ≠ 0 then arbRun d signer (fieldAt h 12 4) else d
                if signer ≠ 0 ∧ fieldAt h 12 4 < arbCount fz signer then loadFail d c 0x70
                else
                  let isSealed := fieldAt h 6 2 == 1 && signer != 0
                  let d := if isSealed then
                      { d with ks := { d.ks with chain := Config.sha384 (leBytes 48 d.ks.chain ++ leBytes 2 c ++
                          leBytes 48 (Config.sha384 (img.take size))) } }
                    else d
                  loadInstall d c l.handle h (es.map (imageSeg (bufBase d i))) isSealed

/-! Other commands (R63, R70). -/

/-- A command in a state that does not accept it. -/
def mtErr (d : Device) (c : Nat) : Device := setCtx d c { ctxAt d c with cmdErr := true }

/-- START (R63): the image's segment table installed afresh, h1 to h31 cleared, PC at ENTRY, READY. -/
def mtStart (d : Device) (c : Nat) : Device :=
  let x := ctxAt d c
  match x.image with
  | some im =>
    if x.st = .loaded ∨ x.st = .stopped then
      setCtx d c { x with st := .ready, h := [], pc := im.entry, segs := segTable im.segs, segFresh := [], wait := none }
    else mtErr d c
  | none => mtErr d c

/-- STOP (R70): a waiting long instruction is abandoned, the PC left on it. -/
def mtStop (d : Device) (c : Nat) : Device :=
  let x := ctxAt d c
  if x.st = .ready ∨ x.st = .waiting then setCtx d c { x with st := .stopped, wait := none } else mtErr d c

/-- RESUME (R63). -/
def mtResume (d : Device) (c : Nat) : Device :=
  let x := ctxAt d c
  if x.st = .stopped then setCtx d c { x with st := .ready } else mtErr d c

/-- UNLOAD (R63): DRAINING while tickets are outstanding, otherwise EMPTY. -/
def mtUnload (d : Device) (c : Nat) : Device :=
  let x := ctxAt d c
  if x.st = .loaded ∨ x.st = .stopped then
    if 0 < tkCount d c then setCtx d c { x with st := .draining } else contextEmpty d c
  else mtErr d c

/-- A write of MT_CTRL (R62, R63). -/
def mtCtrlWrite (d : Device) (c cmd : Nat) : Device :=
  match cmd % 8 with
  | 1 => mtLoad d c
  | 2 => mtStart d c
  | 3 => mtStop d c
  | 4 => mtResume d c
  | 5 => mtUnload d c
  | _ => d

/-- MT_STATE of context c. -/
def mtState (d : Device) (c : Nat) : Nat :=
  let x := ctxAt d c
  let st := match x.st with
    | .empty => 0 | .loading => 1 | .loaded => 2 | .ready => 3 | .waiting => 4 | .stopped => 5 | .draining => 6
  x.loadStatus * 2 ^ 24 + tkCount d c * 2 ^ 8 + ofFlag x.cmdErr * 16 + ofFlag x.isSealed * 8 + st

/-- A function is stopped (R70, R89 step 2): each of its contexts leaves its state; true when a running thread stopped.
DESIGN CHOICE: a load that is abandoned so raises no load-done interrupt; R60 and R70 name none for it (log entry 75). -/
def stopCtx (d : Device) (c : Nat) : Device × Bool :=
  let x := ctxAt d c
  match x.st with
  | .loading =>
    let d := match x.load with | some l => unholdBuf d (handleIdx l.handle) | none => d
    (setCtx d c { x with st := .empty, load := none, loadStatus := 0x10 }, false)
  | .loaded => (contextEmpty d c, false)
  | .ready | .waiting | .stopped =>
    let d := setCtx d c { x with st := .stopped, wait := none }
    (if 0 < tkCount d c then setCtx d c { ctxAt d c with st := .draining } else contextEmpty d c,
      decide (x.st = .ready ∨ x.st = .waiting))
  | _ => (d, false)

end Sys2Proof.Machine
end

