-- ==== Sys2Proof/Machine/Intc.lean ====
section
/-! DEFINITION. The interrupt controller's registers (R414–R420), Plumb's registers (R459–R465), and the crossed-wait timer of
mailbox pairs (R426). -/

namespace Sys2Proof.Machine

/-! Claim and completion. -/

/-- The better of two sources for a claim: higher PRIO, then lower number (R417). -/
def intcBetter (d : Device) (a b : Nat) : Nat :=
  if intcPrio d a < intcPrio d b then b else if intcPrio d b < intcPrio d a then a else min a b

/-- The sources that a claim register covers (R417): target 0 to 9, or 16 + f for the page of function f. -/
def intcCovers (d : Device) (r n : Nat) : Bool :=
  if r < 16 then intcTarget d n == r else intcTarget d n == 10 && intcFunc d n == r - 16

/-- The source a read of claim register r returns (R417). -/
def intcBest (d : Device) (r : Nat) : Option Nat :=
  match (intcCandidates d).filter (fun n => intcDeliverable d n && intcCovers d r n) with
  | [] => none
  | a :: l => some (l.foldl (intcBetter d) a)

/-- A read of claim register r (R417): the register's value. -/
def intcClaim (d : Device) (r : Nat) : Device × Nat :=
  match intcBest d r with
  | some n =>
    ({ d with intc := { d.intc with latch := sdel n d.intc.latch, active := tput n r d.intc.active } }, 2 ^ 31 + n)
  | none => ({ d with intc := { d.intc with emptyClaims := (d.intc.emptyClaims + 1) % 65536 } }, 0)

/-- A write of completion register r (R418, R419): a level input is sampled again by intcPending. -/
def intcComplete (d : Device) (r v : Nat) : Device :=
  let n := bitsOf v 9 0
  if tfind n d.intc.active = some r then
    { d with intc := { d.intc with
        active := tdel n d.intc.active
        noCause := if bitOf v 31 then (d.intc.noCause + 1) % 65536 else d.intc.noCause } }
  else d

/-- The bits of a 32-bit word for which a property of 32w + b holds. -/
def wordOf (w : Nat) (p : Nat → Bool) : Nat := (upto 0 32).foldl (fun v b => if p (32 * w + b) then v + 2 ^ b else v) 0

/-- The numbers 32w + b of the set bits b of a word. -/
def bitsIn (w v : Nat) : List Nat := ((upto 0 32).filter (fun b => bitOf v b)).map (32 * w + ·)

/-- Pending, enable and active words as read (R415). -/
def pendWord (d : Device) (w : Nat) : Nat := wordOf w (intcPending d)

/-- The enable word w. -/
def enWord (d : Device) (w : Nat) : Nat := wordOf w (d.intc.en.contains ·)

/-- The active word w. -/
def activeWord (d : Device) (w : Nat) : Nat := wordOf w (intcActive d)

/-- A write of INTC_PEND_SETw: one event for each set bit of a valid source (R415). -/
def pendSet (d : Device) (w v : Nat) : Device :=
  (bitsIn w v).foldl (fun d n =>
    if intcValid n && !intcLost d n then { d with intc := { d.intc with latch := sadd n d.intc.latch } } else d) d

/-- A write of INTC_PEND_CLRw. -/
def pendClr (d : Device) (w v : Nat) : Device :=
  { d with intc := { d.intc with latch := d.intc.latch.filter (fun n => !(bitsIn w v).contains n) } }

/-- A write of INTC_EN_SETw; reserved sources stay 0. -/
def enSet (d : Device) (w v : Nat) : Device :=
  { d with intc := { d.intc with en := ((bitsIn w v).filter intcValid).foldl (fun l n => sadd n l) d.intc.en } }

/-- A write of INTC_EN_CLRw; source 517 stays enabled (R415). -/
def enClr (d : Device) (w v : Nat) : Device :=
  { d with intc := { d.intc with en := d.intc.en.filter (fun n => n == 517 || !(bitsIn w v).contains n) } }

/-- Sources whose configuration only Keystone writes (R414). -/
def intcSecure (n : Nat) : Bool :=
  (decide (288 ≤ n) && decide (n < 320)) || (decide (352 ≤ n) && decide (n < 384)) ||
    (decide (416 ≤ n) && decide (n < 448)) || (decide (464 ≤ n) && decide (n < 480)) ||
    (decide (496 ≤ n) && decide (n < 512)) || n == 517

/-- A write of INTC_SRCn_CFG by the PF or by Keystone (R414): PRIO of source 517 stays 15. -/
def intcCfgWrite (d : Device) (n v : Nat) (keystone : Bool) : Device :=
  if !intcValid n || (intcSecure n && !keystone) then d
  else
    let v := maskMerge 0x0FFF007F (intcCfg d n) v
    let v := if n = 517 then setBits v 27 24 15 else v
    { d with intc := { d.intc with cfg := tset (intcCfg0 n) n v d.intc.cfg } }

/-- QP_IRQ_N is driven low (R416). -/
def qpIrqLow (d : Device) : Bool :=
  (intcCandidates d ++ d.intc.active.map (·.1)).any (fun n =>
    intcTarget d n == 9 && d.intc.en.contains n && (intcPending d n || intcActive d n))

/-- Step 1 of R89 for function f: its host-routed sources lose their pending and active state (R420). -/
def intcForget (d : Device) (f : Nat) : Device :=
  let mine := fun n => intcTarget d n == 10 && intcFunc d n == f
  { d with intc := { d.intc with
      latch := d.intc.latch.filter (fun n => !mine n)
      active := d.intc.active.filter (fun e => !mine e.1)
      deliv := d.intc.deliv.filter (fun n => !mine n) } }

/-! Mailbox pairs (R426). -/

/-- MBX_CROSS_TIMEOUT in ns. -/
def crossTimeout (d : Device) : Nat := bitsOf (reg d 0x400804 100) 15 0 * 1000

/-- Both channels of pair k have stayed full past the timeout: its cross bit is set (R426). -/
def mbxCross (d : Device) (k : Nat) : Device :=
  match tfind k d.mbox.since with
  | some t =>
    if crossTimeout d ≠ 0 ∧ t + crossTimeout d < d.up then
      { d with mbox := { d.mbox with since := tdel k d.mbox.since, cross := d.mbox.cross ||| 2 ^ k } }
    else d
  | none => d

/-- A write of MBX_STATUS (R426): each cleared bit whose pair is still full restarts its timer; bits 16 to 31 are Keystone's. -/
def mbxStatusWrite (d : Device) (v : Nat) (keystone : Bool) : Device :=
  let m := (if keystone then v % 2 ^ 32 else v % 2 ^ 16) &&& d.mbox.cross
  let d := { d with mbox := { d.mbox with cross := d.mbox.cross - m } }
  (bitsIn 0 m).foldl (fun d k =>
    if (mboxAt d (2 * k)).full && (mboxAt d (2 * k + 1)).full then
      { d with mbox := { d.mbox with since := tput k d.up d.mbox.since } }
    else d) d

/-! Plumb's registers. -/

/-- Close the record of slot i (R462); an F4 record stays. -/
def plumbRecClose (d : Device) (i : Nat) : Device :=
  match tfind i d.plumb.recs with
  | some r => if r.cls = 4 then d else { d with plumb := { d.plumb with recs := tdel i d.plumb.recs } }
  | none => d

/-- A write of PLUMB_SRCn_STAT with CLEAR set (R464). -/
def plumbSrcClear (d : Device) (n : Nat) : Device :=
  { d with plumb := { d.plumb with esc := tdel n d.plumb.esc } }

/-- A write of PLUMB_SRCn_CFG (R459). -/
def plumbCfgWrite (d : Device) (n v : Nat) : Device :=
  if 448 ≤ n ∨ (plumbDefault n).1 = 4 then d
  else
    let old := plumbCfg d n
    let cls := if n = 446 ∨ 4 ≤ bitsOf v 31 29 then bitsOf old 31 29 else bitsOf v 31 29
    let v := setBits (v % 2 ^ 32) 31 29 cls
    let v := if n = 446 then setBits v 25 25 1 else v
    let v := if plumbBlkAlways n then setBits v 26 26 1 else if plumbBlk n then v else setBits v 26 26 0
    { d with plumb := { d.plumb with cfg := tset (plumbCfg0 n) n v d.plumb.cfg } }

/-- Open records. -/
def plumbOpen (d : Device) : Nat := d.plumb.recs.length

/-- PLUMB_STAT.HIGHEST. -/
def plumbHighest (d : Device) : Nat :=
  match d.plumb.recs with
  | [] => 7
  | (_, r) :: l => l.foldl (fun m e => max m e.2.cls) r.cls

/-- PLUMB_STAT. -/
def plumbStat (d : Device) : Nat :=
  ofFlag (faultN d) * 2 ^ 31 + plumbHighest d * 2 ^ 28 + ofFlag (f4Latched d) * 2 ^ 27 + ofFlag d.plumb.ovf * 2 ^ 26 +
    plumbOpen d

/-- A write of 1 to PLUMB_STAT.OVF releases what OVF holds (R460). -/
def plumbOvfClear (d : Device) : Device :=
  { d with plumb := { d.plumb with ovf := false, ovfInt := [], ovfNmi := false, ovfFault := false } }

/-- The 32 bytes of record slot i (R462). -/
def plumbRecBytes (d : Device) (i : Nat) : List Byte :=
  match tfind i d.plumb.recs with
  | some r =>
    leBytes 8 r.firstTime ++ leBytes 8 r.lastTime ++ leBytes 2 r.source ++ leBytes 1 r.cls ++
      leBytes 1 (1 + 2 * ofFlag r.merged + 4 * ofFlag (r.cls == 4) + 8 * ofFlag r.raised) ++ leBytes 4 r.count ++
      leBytes 8 r.detail
  | none => leBytes 8 0 ++ leBytes 8 0 ++ leBytes 2 0xFFFF ++ leBytes 14 0

/-- The watchdog's timeout in ns: 0 acts as 1 ms (R465). -/
def wdogNs (d : Device) : Nat := max 1 d.plumb.wdMs * 1000000

/-- A write of PLUMB_WDOG_KICK (R465). -/
def wdogKick (d : Device) (v : Nat) : Device :=
  if v = 0x4B1C then
    if d.plumb.wdEn && !d.plumb.wdStopped then
      { d with plumb := { d.plumb with wdAt := d.up + wdogNs d, wdSecond := false } }
    else d
  else { d with plumb := { d.plumb with wdBad := (d.plumb.wdBad + 1) % 128 } }

/-- A write of PLUMB_WDOG_CFG (R465): TIMEOUT_MS is ignored while EN = 1; EN is W1S. -/
def wdogCfgWrite (d : Device) (v : Nat) : Device :=
  let p := d.plumb
  if p.wdEn then d
  else
    let d := { d with plumb := { p with wdMs := bitsOf v 23 0 } }
    if bitOf v 31 then { d with plumb := { d.plumb with wdEn := true, wdAt := d.up + wdogNs d, wdSecond := false } } else d

/-- The watchdog count reaches zero (R465): source 445 first, then, without a kick, source 446, and the count stops. -/
def wdogExpire (d : Device) : Device :=
  let p := d.plumb
  if p.wdEn && !p.wdStopped && decide (p.wdAt ≤ d.up) then
    if p.wdSecond then plumbEvent { d with plumb := { p with wdStopped := true } } 446 0
    else plumbEvent { d with plumb := { p with wdSecond := true, wdAt := d.up + wdogNs d } } 445 0
  else d

/-- A fault event handed to Plumb from outside, with the block reset of R458 that a ring mismatch always takes. -/
def plumbRaise (d : Device) (n detail : Nat) : Device :=
  plumbEvent (if n = 433 then ringReset d detail else d) n detail

end Sys2Proof.Machine
end

