-- ==== Sys2Proof/Machine/Dma.lean ====
section
/-! DEFINITION. DMA channels (R333–R345): descriptors, the byte funnel, parking and the end of a chain. -/

namespace Sys2Proof.Machine

/-- DMA channel c. -/
def dmaAt (d : Device) (c : Nat) : DmaChan := tget DmaChan.reset c d.dma

/-- Change DMA channel c. -/
def setDma (d : Device) (c : Nat) (x : DmaChan) : Device := { d with dma := tset DmaChan.reset c x d.dma }

/-- The requester of a channel's data bursts (R335). -/
def dmaReq (c : Nat) : Req := { id := if c < 32 then 38 else 39, ch := c }

/-- CHANNEL of a DMA work order (R333). -/
def dmaChannel (w : WorkOrder) : Nat := woField w 64 1

/-- CTRL.PARK of a DMA work order. -/
def dmaPark (w : WorkOrder) : Bool := bitOf (woField w 65 1) 0

/-- A record read at acceptance, kept with its work order under the offset of the field that names it. -/
def woExtra (w : WorkOrder) (o : Nat) : List Byte := tget [] o w.extra

/-- RESULT of a DMA record (R343). -/
def dmaResult (desc residue done : Nat) : List Byte :=
  leBytes 8 desc ++ leBytes 4 (min 0xFFFFFFFF residue) ++ leBytes 4 (min 0xFFFFFFFF done)

/-- The work order on channel c ends: final record, IDLE (R341). -/
def dmaEnd (d : Device) (c status residue : Nat) : Device :=
  let x := dmaAt d c
  finishWo (setDma d c DmaChan.reset) x.ticket status 0 (dmaResult x.desc residue x.done)

/-- n bytes of channel c's chain at an offset (R334, R335): beyond LIMIT or on an error response, err. -/
def chainRead (d : Device) (c ctx off n : Nat) : Device × MemRes × List Byte :=
  let x := dmaAt d c
  if x.limit < off + n - 1 then (d, .err, [])
  else memRead d (if x.ashlar then reqOf (24 + coreOf ctx) else dmaReq c) false (x.base + off) n

/-! Descriptors (R336). -/

/-- DST or SRC side of a descriptor: kind, handle and address. -/
structure DmaSide where
  kind : Nat
  handle : Nat
  addr : Nat
  deriving DecidableEq, Repr

/-- The source side. -/
def dmaSrc (b : List Byte) : DmaSide := { kind := fieldAt b 2 1, handle := fieldAt b 4 4, addr := fieldAt b 16 8 }

/-- The destination side. -/
def dmaDst (b : List Byte) : DmaSide := { kind := fieldAt b 3 1, handle := fieldAt b 8 4, addr := fieldAt b 24 8 }

/-- OP. -/
def dmaOp (b : List Byte) : Nat := fieldAt b 0 1

/-- ELEM. -/
def dmaElem (b : List Byte) : Nat := fieldAt b 12 4

/-- LENGTH. -/
def dmaLen (b : List Byte) : Nat := fieldAt b 32 4

/-- OP, ELEM and LENGTH as R336 requires. -/
def dmaShapeOk (b : List Byte) : Bool :=
  decide (dmaOp b ≤ 2) && decide (1 ≤ dmaLen b) &&
    (if dmaOp b = 0 then dmaElem b == 0 else decide (1 ≤ dmaElem b) && decide (dmaElem b ≤ 65536))

/-- The bytes a descriptor would write (R337). -/
def dmaBytes (b : List Byte) : Nat :=
  if !dmaShapeOk b then 0 else if dmaOp b = 0 then dmaLen b else dmaLen b * dmaElem b

/-- Kind and handle field of a side as R336 requires. -/
def dmaSideOk (s : DmaSide) : Bool :=
  s.kind == 0 || (s.kind == 1 && decide (s.handle < 32)) || (s.kind == 2 && s.handle == 0)

/-- Two sides name the same buffer or bank. -/
def dmaSame (s t : DmaSide) : Bool :=
  (s.kind == 0 && t.kind == 0 && handleIdx s.handle == handleIdx t.handle) ||
    (s.kind == 1 && t.kind == 1 && s.handle == t.handle)

/-- Fields as R336 requires (R337, first check). -/
def dmaFormatOk (b : List Byte) : Bool :=
  dmaShapeOk b && decide (fieldAt b 1 1 < 4) && dmaSideOk (dmaSrc b) && dmaSideOk (dmaDst b) && zeroAt b 44 12 &&
    decide (fieldAt b 40 4 % 4 = 0) &&
    (if dmaOp b = 0 then fieldAt b 36 4 == 0 else !dmaSame (dmaSrc b) (dmaDst b))

/-- Handles a descriptor names, in offset order. -/
def dmaHandles (b : List Byte) : List Nat :=
  (if (dmaSrc b).kind = 0 then [(dmaSrc b).handle] else []) ++ (if (dmaDst b).kind = 0 then [(dmaDst b).handle] else []) ++
    (if dmaOp b = 0 then [] else [fieldAt b 36 4])

/-- The first status of a list of handles that fail the checks of R14, generation before owner for each. -/
def handlesStatus (d : Device) (owner : Nat) : List Nat → Nat
  | [] => 0
  | h :: r => let st := handleStatus d owner h; if st = 0 then handlesStatus d owner r else st

/-- A contiguous range of n bytes lies within its side; a bank is owned by the channel (R337). -/
def dmaRangeOk (d : Device) (c : Nat) (s : DmaSide) (n : Nat) : Bool :=
  if s.kind = 0 then decide (s.addr + n ≤ bufSize d (handleIdx s.handle))
  else if s.kind = 1 then decide (s.addr + n ≤ 0x400000) && (bankAt d s.handle).owner == 0x40 + c
  else true

/-- The ranges of a descriptor that are checked at its fetch (R337). -/
def dmaRangesOk (d : Device) (c : Nat) (b : List Byte) : Bool :=
  let n := dmaBytes b
  let bank := fun (s : DmaSide) => dmaRangeOk d c { s with addr := 0 } 0
  let table := decide (fieldAt b 40 4 + 4 * dmaLen b ≤ bufSize d (handleIdx (fieldAt b 36 4)))
  if dmaOp b = 0 then dmaRangeOk d c (dmaSrc b) n && dmaRangeOk d c (dmaDst b) n
  else if dmaOp b = 1 then dmaRangeOk d c (dmaDst b) n && bank (dmaSrc b) && table
  else dmaRangeOk d c (dmaSrc b) n && bank (dmaDst b) && table

/-- Host memory can be reached for function f: link up, function enabled and not in reset (R337). -/
def hostUp (d : Device) (f : Nat) : Bool :=
  d.host.link != .down && !d.host.perst && funcOn d f && !funcBusy d f

/-- The status of a descriptor's checks at its fetch, 0 when all pass (R337). -/
def dmaDescStatus (d : Device) (c : Nat) (w : WorkOrder) (b : List Byte) : Nat :=
  let hs := handlesStatus d (ctxOwner w.ctx) (dmaHandles b)
  if !dmaFormatOk b then 0x31
  else if hs ≠ 0 then hs
  else if !dmaRangesOk d c b then 0x20
  else if ((dmaSrc b).kind == 2 || (dmaDst b).kind == 2) && !hostUp d w.func then 0x80
  else 0

/-- The channel's next queued work order in the order of R75. -/
def dmaNext (d : Device) (c : Nat) : Option WorkOrder :=
  let mine := fun w : WorkOrder => w.kind == .dma && w.phase == .queued && dmaChannel w == c
  d.wos.find? (fun w => mine w && woFirst d mine w)

/-- An IDLE channel takes its next work order (R341): PEND cleared, the descriptor at FIRST_OFF next. -/
def dmaStart (d : Device) (c : Nat) (w : WorkOrder) : Device :=
  let e := woExtra w 66
  modWo (setDma d c
    { st := .run, pend := false, ticket := w.ticket, base := fieldAt e 0 8, limit := fieldAt e 8 8
      ashlar := fieldAt e 16 1 == 1, desc := woField w 72 8, fetched := false, prev := woField w 72 8, done := 0 })
    w.ticket (fun w => { w with phase := .running })

/-- Fetch and check the next descriptor of a running channel; what it names is held until the work order ends (R337). -/
def dmaFetch (d : Device) (c : Nat) (w : WorkOrder) : Device :=
  let x := dmaAt d c
  match chainRead d c w.ctx x.desc 64 with
  | (_, .held, _) => d
  | (d, .err, _) => dmaEnd d c 0x20 0
  | (d, .ok, b) =>
    let st := dmaDescStatus d c w b
    if st = 0x42 ∨ st = 0x43 then dmaEnd (plumbEvent d 442 w.ticket) c st (dmaBytes b)
    else if st ≠ 0 then dmaEnd d c st (dmaBytes b)
    else
      let is := (dmaHandles b).map handleIdx
      let d := is.foldl holdBuf d
      setDma (modWo d w.ticket (fun w => { w with holds := w.holds ++ is, result := b })) c { dmaAt d c with fetched := true }

/-- DMA_DESC_FETCH on channel c: an IDLE channel first takes its next work order. -/
def dmaDescFetch (d : Device) (c : Nat) : Device :=
  let x := dmaAt d c
  if x.st = .idle then
    match dmaNext d c with
    | some w => dmaFetch (dmaStart d c w) c w
    | none => d
  else if x.st = .run ∧ !x.fetched then
    match woAt d x.ticket with
    | some w => dmaFetch d c w
    | none => d
  else d

/-! The byte funnel (R338–R340). -/

/-- The largest access of 1 to 64 bytes that is aligned at an address and fits in r bytes. -/
def burstSize (a r : Nat) : Nat :=
  ([64, 32, 16, 8, 4, 2, 1].find? (fun s => decide (a % s = 0) && decide (s ≤ r))).getD 1

/-- The accesses that write r bytes from an address: (offset, size), in address order. -/
def bursts (a o : Nat) : Nat → Nat → List (Nat × Nat)
  | 0, _ => []
  | _, 0 => []
  | f + 1, r => let s := burstSize (a + o) r; (o, s) :: bursts a (o + s) f (r - s)

/-- What a transfer has done so far: the device, the host bytes not yet taken, the bytes written, and what failed (the size of a write,
0 for a read or an element out of range) or is held. -/
structure DmaRun where
  d : Device
  host : List Byte
  written : Nat
  fail : Option Nat
  held : Bool

/-- The device address of an offset of a buffer or bank side. -/
def dmaAddr (d : Device) (s : DmaSide) (o : Nat) : Nat :=
  if s.kind = 0 then bufBase d (handleIdx s.handle) + s.addr + o
  else 0x080000000000 + s.handle * 0x400000 + s.addr + o

/-- Read n bytes at an offset of a side; host memory's bytes are those the host returns, and too few are an error. -/
def dmaRead (r : DmaRun) (c f : Nat) (s : DmaSide) (o n : Nat) : DmaRun × List Byte :=
  if s.kind = 2 then
    let d := emit r.d (.hostRead f (s.addr + o) n)
    if r.host.length < n then ({ r with d := d, fail := some 0 }, [])
    else ({ r with d := d, host := r.host.drop n }, r.host.take n)
  else
    match memRead r.d (dmaReq c) false (dmaAddr r.d s o) n with
    | (d, .ok, bs) => ({ r with d := d }, bs)
    | (d, .err, _) => ({ r with d := d, fail := some 0 }, [])
    | (_, .held, _) => ({ r with held := true }, [])

/-- Write bytes at an offset of a side. -/
def dmaWrite (r : DmaRun) (c f : Nat) (s : DmaSide) (o : Nat) (bs : List Byte) : DmaRun :=
  if s.kind = 2 then { r with d := emit r.d (.hostWrite f (s.addr + o) bs), written := r.written + bs.length }
  else
    match memWrite r.d (dmaReq c) false (dmaAddr r.d s o) bs with
    | (d, .ok) => { r with d := d, written := r.written + bs.length }
    | (d, .err) => { r with d := d, fail := some bs.length }
    | (_, .held) => { r with held := true }

/-- Move one access. -/
def dmaMove (c f : Nat) (src dst : DmaSide) (so d0 : Nat) (r : DmaRun) (p : Nat × Nat) : DmaRun :=
  if r.fail.isSome || r.held then r
  else
    let (r, bs) := dmaRead r c f src (so + p.1) p.2
    if r.fail.isSome || r.held then r else dmaWrite r c f dst (d0 + p.1) bs

/-- The accesses of a copy, in copy order (R339). -/
def copyBursts (b : List Byte) : List (Nat × Nat) :=
  let l := bursts (dmaDst b).addr 0 (dmaLen b) (dmaLen b)
  if dmaSame (dmaSrc b) (dmaDst b) && decide ((dmaSrc b).addr < (dmaDst b).addr) &&
      decide ((dmaDst b).addr < (dmaSrc b).addr + dmaLen b) then l.reverse else l

/-- Element i of a gather or scatter: its index entry, its range check, its accesses (R338). -/
def dmaElemMove (c f : Nat) (b : List Byte) (r : DmaRun) (i : Nat) : DmaRun :=
  if r.fail.isSome || r.held then r
  else
    let table : DmaSide := { kind := 0, handle := fieldAt b 36 4, addr := fieldAt b 40 4 }
    let (r, e) := dmaRead r c f table (4 * i) 4
    if r.fail.isSome || r.held then r
    else
      let n := dmaElem b
      let so := if dmaOp b = 1 then leNat e else i * n
      let d0 := if dmaOp b = 1 then i * n else leNat e
      let side := if dmaOp b = 1 then dmaSrc b else dmaDst b
      if side.kind = 0 ∧ bufSize r.d (handleIdx side.handle) < side.addr + leNat e + n then { r with fail := some 0 }
      else if side.kind = 1 ∧ 0x400000 < side.addr + leNat e + n then { r with fail := some 0 }
      else (bursts ((dmaDst b).addr + d0) 0 n n).foldl (dmaMove c f (dmaSrc b) (dmaDst b) so d0) r

/-- Run a descriptor's transfer until it ends, or until `stop` bytes of it have been written. -/
def dmaTransfer (d : Device) (c f : Nat) (b : List Byte) (host : List Byte) (stop : Nat) : DmaRun :=
  let r0 : DmaRun := { d := d, host := host, written := 0, fail := none, held := false }
  if dmaOp b = 0 then
    (copyBursts b).foldl (fun r p => if stop ≤ r.written then r else dmaMove c f (dmaSrc b) (dmaDst b) 0 0 r p) r0
  else (upto 0 (dmaLen b)).foldl (fun r i => if stop ≤ r.written then r else dmaElemMove c f b r i) r0

/-- RESIDUE after a transfer (R343). -/
def dmaResidue (b : List Byte) (written : Nat) : Nat :=
  if dmaOp b = 0 then dmaBytes b - written else dmaBytes b - written / dmaElem b * dmaElem b

/-! Links (R341). -/

/-- What a link word says. -/
inductive DmaLink
  | next (off : Nat) | stop | bad
  deriving DecidableEq, Repr

/-- Read a link word (R336). -/
def dmaLinkOf (v : Nat) : DmaLink :=
  if v = 1 then .stop
  else if bitsOf v 63 40 = 0 ∧ bitsOf v 5 0 = 0 then .next (bitsOf v 39 6 * 64)
  else .bad

/-- The channel reads the link of the descriptor it has completed, and goes on, parks or ends. -/
def dmaFollow (d : Device) (c : Nat) (w : WorkOrder) : Device :=
  let x := dmaAt d c
  match chainRead d c w.ctx (x.desc + 56) 8 with
  | (_, .held, _) => d
  | (d, .err, _) => dmaEnd d c 0x20 0
  | (d, .ok, b) =>
    match dmaLinkOf (leNat b) with
    | .next o => setDma d c { dmaAt d c with st := .run, desc := o, fetched := false }
    | .bad => dmaEnd d c 0x31 0
    | .stop =>
      if dmaPark w then setDma d c { dmaAt d c with st := .parked, fetched := false, pend := false }
      else dmaEnd d c 0 0

/-- A doorbell (R341): a PARKED channel reads its link again, a running one notes it, an IDLE one ignores it. -/
def dmaDbell (d : Device) (c : Nat) : Device :=
  let x := dmaAt d c
  match x.st, woAt d x.ticket with
  | .parked, some w => dmaFollow d c w
  | .run, _ => setDma d c { x with pend := true }
  | _, _ => d

/-- DMA_DESC_COMPLETE on channel c: the fetched descriptor's bursts have completed. `host` holds what host memory returned to
its reads. -/
def dmaDescComplete (d : Device) (c : Nat) (host : List Byte) : Device :=
  let x := dmaAt d c
  match woAt d x.ticket with
  | none => d
  | some w =>
    if x.st ≠ .run ∨ !x.fetched then d
    else
      let b := w.result
      let r := dmaTransfer d c w.func b host (dmaBytes b)
      if r.held then d
      else
        match r.fail with
        | some n =>
          if n ≠ 0 ∧ r.written + n = dmaBytes b then dmaEnd r.d c 0x21 0
          else dmaEnd r.d c 0x20 (dmaResidue b r.written)
        | none =>
          let d := setDma r.d c { dmaAt r.d c with done := x.done + 1, prev := x.desc }
          let d := if bitOf (fieldAt b 1 1) 0 then interimWo d x.ticket 0 0 (dmaResult x.desc 0 (x.done + 1)) else d
          if bitOf (fieldAt b 1 1) 1 then dmaEnd d c 0 0 else dmaFollow d c w

/-- A running chain is aborted (R84, R344) once the bursts already issued, n bytes of the descriptor in progress, have completed; `host`
holds what host memory returned to their reads. -/
def dmaAbort (d : Device) (w : WorkOrder) (status n : Nat) (host : List Byte) : Device :=
  let c := dmaChannel w
  let x := dmaAt d c
  if x.ticket ≠ w.ticket then finishWo d w.ticket status 0 (dmaResult 0 0 0)
  else if x.st = .run ∧ x.fetched then
    let r := dmaTransfer d c w.func w.result host (min n (dmaBytes w.result))
    dmaEnd r.d c status (dmaResidue w.result r.written)
  else dmaEnd (setDma d c { x with desc := x.prev }) c status 0

/-- Work orders waiting for channel c. -/
def dmaQueued (d : Device) (c : Nat) : Nat :=
  (d.wos.filter (fun w => w.kind == .dma && w.phase == .queued && dmaChannel w == c)).length

/-- DMA_CHn_STAT. -/
def dmaStat (d : Device) (c : Nat) : Nat :=
  let x := dmaAt d c
  let st := match x.st with | .idle => 0 | .run => 1 | .parked => 2
  st * 2 ^ 30 + ofFlag x.pend * 2 ^ 29 + min 255 (dmaQueued d c)

/-- DMA_DESC_FETCH (R337). -/
def execDmaDescFetch (ch : Nat) (s : State) : Host.Outcome State Fault Refusal := done s (dmaDescFetch s.dev ch)

/-- DMA_DESC_COMPLETE (R341). -/
def execDmaDescComplete (ch : Nat) (host : List Byte) (s : State) : Host.Outcome State Fault Refusal :=
  done s (dmaDescComplete s.dev ch host)

end Sys2Proof.Machine
end

