-- ==== Sys2Proof/Machine/Access.lean ====
section
/-! DEFINITION. Access through a context's segments (R22–R25), the engines that hold work, and the reads a unit makes when it
accepts a work order (R77, R514). -/

namespace Sys2Proof.Machine

/-- The right an access needs (R25 step 5). -/
inductive Acc
  | load | store | fetch | atomic
  deriving DecidableEq, Repr

/-- What the checks of a segment give: a physical address and the class, or a trap. -/
inductive SegRes
  | ok (phys cls : Nat)
  | trap (cause detail : Nat)
  deriving DecidableEq, Repr

/-- The right is present. -/
def accRight (s : SegDesc) : Acc → Bool
  | .load => s.r
  | .store => s.w
  | .fetch => s.x
  | .atomic => s.a && s.r && s.w

/-- The descriptor of segment slot n. -/
def segSlot (x : HoltCtx) (n : Nat) : SegDesc := tget SegDesc.empty n x.segs

/-- Steps 1 to 6 of R25. -/
def segCheck (x : HoltCtx) (a size : Nat) (k : Acc) : SegRes :=
  let s := segSlot x (bitsOf a 63 60)
  let off := bitsOf a 39 0
  if bitsOf a 59 40 ≠ 0 then .trap 2 3
  else if off % size ≠ 0 then .trap 3 0
  else if !s.valid then .trap 2 2
  else if k = .atomic ∧ s.cls ≠ 1 then .trap 4 0
  else if !accRight s k then .trap 2 1
  else if s.limit < off + size - 1 then .trap 2 0
  else .ok (s.base + off) s.cls

/-- An access of a unit on behalf of context c when it accepts its work: the checks of R25 with the context's own core as
requester; the physical address and class, or none when one fails. -/
def ctxAccess (d : Device) (c a size : Nat) (k : Acc) : Device × Option (Nat × Nat) :=
  let x := ctxAt d c
  match segCheck x a size k with
  | .trap _ _ => (d, none)
  | .ok p cls =>
    if cls = 2 ∧ !windowCovers d (ctxOwner c) p size then (windowRefused d (k == .store) true c p, none)
    else
      match memCheck d (reqOf (24 + coreOf c)) x.isSealed (k == .store) p size with
      | (d, .ok) => (d, some (p, cls))
      | (d, _) => (d, none)

/-- A record read at acceptance (R77). -/
def ctxRead (d : Device) (c a n : Nat) : Device × Option (List Byte) :=
  match ctxAccess d c a n .load with
  | (d, some (p, _)) => (perfBytes d (24 + coreOf c) false n, some (bytesAt d p n))
  | (d, none) => (d, none)

/-- The control-register range. -/
def isCtl (a : Nat) : Bool := decide (0x0F0000000000 ≤ a) && decide (a < 0x0F0010000000)

/-- The physical address of a progress word in memory (R514): 8 bytes, never through an ASHLAR-class segment. -/
def ctxWord (d : Device) (c a : Nat) (k : Acc) : Device × Option Nat :=
  match ctxAccess d c a 8 k with
  | (d, some (p, cls)) => (d, if cls = 1 then none else some p)
  | (d, none) => (d, none)

/-- The physical address of a progress word (R514). In the control-register range, where an aligned access gets no error response (R32), it
takes only the checks of the segment. -/
def ctxProgress (d : Device) (c a : Nat) (k : Acc) : Device × Option Nat :=
  match segCheck (ctxAt d c) a 8 k with
  | .ok p _ => if isCtl p then (d, some p) else ctxWord d c a k
  | .trap _ _ => (d, none)

/-- Records read at acceptance, as (offset of the naming field, bytes); a failed read leaves none. -/
abbrev Records := List (Nat × List Byte)

/-- Read a record at the address in a field, unless the field is 0, and keep it under a key. -/
def readRecord (c key a n : Nat) (s : Device × Records) : Device × Records :=
  if a = 0 then s
  else match ctxRead s.1 c a n with
    | (d, some b) => (d, s.2 ++ [(key, b)])
    | (d, none) => (d, s.2)

/-- Resolve a progress address, unless it is 0, and keep its physical address under a key. -/
def readProgress (c key a : Nat) (k : Acc) (s : Device × Records) : Device × Records :=
  if a = 0 then s
  else match ctxProgress s.1 c a k with
    | (d, some p) => (d, s.2 ++ [(key, leBytes 8 p)])
    | (d, none) => (d, s.2)

/-- A record was read. -/
def hasRecord (r : Records) (key : Nat) : Bool := (tfind key r).isSome

/-- The handles of a list that name a buffer: those whose generation is not 0 (R72). -/
def realHandles (l : List Nat) : List Nat := l.filter (fun h => handleGen h != 0)

/-- Write a progress word (R125, R228): the count of rows below the frame number. In the control-register range it is one register access of
the work order's function (R32), which a step on an empty queue performs. -/
def progressPut (d : Device) (req func : Nat) (phys : Option Nat) (frame count : Nat) : Device :=
  let b := leBytes 4 count ++ leBytes 4 frame
  match phys with
  | some a =>
    if isCtl a then { perfBytes d req true 8 with posted := d.posted ++ [(func, a - 0x0F0000000000, leNat b)] }
    else (unitWrite d req a b).1
  | none => d

/-- Read a progress word (R125): frame number and count. What a register shows to the unit that reads it again and again is open. -/
def progressGet (d : Device) (req a : Nat) : Device × Option (Nat × Nat) :=
  if isCtl a then (perfBytes d req false 8, some (free d (2 ^ 48 + a) % 2 ^ 32, free d (2 ^ 49 + a) % 2 ^ 32))
  else match unitRead d req a 8 with
    | (d, some b) => (d, some (fieldAt b 4 4, fieldAt b 0 4))
    | (d, none) => (d, none)

/-! Engines (R74, R75, R176, R177). -/

/-- Engine u: 0–95 a coding engine, 96–119 a Plane engine, 135–146 an analysis unit (the unit IDs of R80). -/
def engineAt (d : Device) (u : Nat) : Engine := tget Engine.reset u d.engines

/-- Change engine u. -/
def setEngine (d : Device) (u : Nat) (e : Engine) : Device := { d with engines := tset Engine.reset u e d.engines }

/-- The engines of a work order that has been placed. -/
def woEngines (w : WorkOrder) : List Nat := upto w.unit (woField w 21 1)

/-- The truss of an engine. -/
def trussOf (u : Nat) : Nat := if u < 96 then u / 8 else if u < 120 then (u - 96) / 2 else u - 135

/-- The requester of an engine (R296). -/
def engineReq (u : Nat) : Nat := 2 * trussOf u + ofFlag (decide (96 ≤ u))

/-- Two placed work orders share an engine. -/
def sharesEngine (a b : WorkOrder) : Bool := (woEngines a).any (fun u => (woEngines b).contains u)

/-- A work order that runs on engines or analysis units. -/
def onEngines (k : WoKind) : Bool :=
  match k with
  | .enc | .encr | .dec | .vfy | .ana | .pix => true
  | _ => false

/-- An engine is held by microcode patching or a block reset (R214). -/
def engineHeld (d : Device) (u : Nat) : Bool := (engineAt d u).hold

end Sys2Proof.Machine
end

