-- ==== Sys2Proof/Machine/Order.lean ====
section
/-! DEFINITION. The order of work on engines: the pictures of a coded stream (R96–R99), the order of decoded ones (R185), what is ready to start, and
taking and freeing engines (R75, R176–R178, R207). -/

namespace Sys2Proof.Machine

/-! Streams. -/

/-- An ENCR. -/
def isEncr (w : WorkOrder) : Bool := w.kind == .encr

/-- An ENC or ENCR. -/
def isEnc (w : WorkOrder) : Bool := w.kind == .enc || w.kind == .encr

/-- A DEC or VFY. -/
def isDec (w : WorkOrder) : Bool := w.kind == .dec || w.kind == .vfy

/-- The stream a work order names: its state buffer's handle. -/
def encKey (w : WorkOrder) : Nat := woHandle w 2

/-- The stream a work order names: its state buffer's handle. -/
def decKey (w : WorkOrder) : Nat := woHandle w 2

/-- The state buffer whose stream a work order belongs to. -/
def streamKey (w : WorkOrder) : Option (Bool × Nat) := if isEnc w then some (true, encKey w) else if isDec w then some (false, decKey w) else none

/-- A work order issued before w, of the same stream, has a property (R97, R185): tickets of one stream count in issue order. -/
def earlierOf (d : Device) (p : WorkOrder → Bool) (w : WorkOrder) : Bool :=
  (d.wos.takeWhile (fun v => v.ticket != w.ticket)).any (fun v => streamKey v == streamKey w && (streamKey w).isSome && p v)

/-- An earlier work order of the same stream is not accepted yet: streams are accepted in issue order, which is display or decoding order
(R97, R185). DEDUCED: R77 gives no order between acceptances (log entry 83). -/
def streamWaits (d : Device) (w : WorkOrder) : Bool := earlierOf d (fun v => v.phase == .dispatched) w

/-- Change the stream of a state buffer. -/
def modEnc (d : Device) (key : Nat) (f : EncStream → EncStream) : Device :=
  { d with codec := { d.codec with encs := d.codec.encs.map (fun e => if e.1 = key then (e.1, f e.2) else e) } }

/-- Position in the GOP and type of every picture that has not left the stream, in display order (R97): 0 key, 1 intra, 2 P, and 4
for a B picture whose place in the hierarchy is not decided here. -/
def picTypes : Nat → List EncPic → List (EncPic × Nat × Nat)
  | _, [] => []
  | prev, p :: r =>
    let pos := (prev + 1) % max 1 p.gop.1
    let (pos, ty) : Nat × Nat :=
      match p.fixed with
      | some f => f
      | none =>
        if p.init ∨ p.ctrl = 1 then (0, 0) else if p.ctrl = 2 then (0, 1) else if pos = 0 then (0, 0)
        else if p.endSeq ∨ pos % (p.gop.2.1 + 1) = 0 then (pos, 2) else (pos, 4)
    (p, pos, ty) :: picTypes pos r

/-- A dyadic order of a run of B pictures: the middle first, then both halves; true marks a reference (R97). -/
def dyadic {α : Type} : Nat → List α → List (α × Bool)
  | 0, _ => []
  | f + 1, l =>
    match l[l.length / 2]? with
    | none => []
    | some x => (x, decide (1 < l.length)) :: (dyadic f (l.take (l.length / 2)) ++ dyadic f (l.drop (l.length / 2 + 1)))

/-- B pictures of a run, in coding order, with their types: 3 reference, 4 not. -/
def orderB (l : List (EncPic × Nat × Nat)) : List (EncPic × Nat × Nat) :=
  if l.any (fun e => e.1.gop.2.2) then (dyadic l.length l).map (fun e => (e.1.1, e.1.2.1, if e.2 then 3 else 4)) else l

/-- Pictures in coding order (R97): each anchor, then the B pictures before it; B pictures without a following anchor wait.
DESIGN CHOICE: B pictures that still wait when an INIT arrives take its key picture as their following anchor; the spec does not say what
becomes of them (log entry 76). -/
def codeOrder : List (EncPic × Nat × Nat) → List (EncPic × Nat × Nat) → List (EncPic × Nat × Nat)
  | _, [] => []
  | bs, p :: r =>
    if p.2.2 < 3 then (p :: orderB bs) ++ codeOrder [] r
    else codeOrder (bs ++ [p]) r

/-- The pictures of a stream in coding order. -/
def encOrder (s : EncStream) : List (EncPic × Nat × Nat) := codeOrder [] (picTypes s.pos s.pics)

/-- The next picture of a stream to start, with its position and type. -/
def encNext (s : EncStream) : Option (EncPic × Nat × Nat) := (encOrder s).find? (fun e => !e.1.coded)

/-- Groups of an anchor and the B pictures before it, in display order. -/
def picGroups : List (EncPic × Nat × Nat) → List (EncPic × Nat × Nat) → List (List (EncPic × Nat × Nat))
  | bs, [] => if bs.isEmpty then [] else [bs]
  | bs, p :: r => if p.2.2 < 3 then (bs ++ [p]) :: picGroups [] r else picGroups (bs ++ [p]) r

/-- Groups whose pictures are all coded leave the stream. -/
def dropGroups : Nat → List (List (EncPic × Nat × Nat)) → Nat × List EncPic
  | pos, [] => (pos, [])
  | pos, g :: r =>
    if g.all (fun e => e.1.coded) && g.any (fun e => decide (e.2.2 < 3)) then
      dropGroups ((g.getLast?.map (fun e => e.2.1)).getD pos) r
    else (pos, (g :: r).flatten.map (·.1))

/-- Coded groups leave the stream. -/
def encPrune (s : EncStream) : EncStream :=
  let (pos, pics) := dropGroups s.pos (picGroups [] (picTypes s.pos s.pics))
  { s with pos := pos, pics := pics }

/-! Starting (R75, R96, R185). -/

/-- A queued work order is ready to start but for its engines: the next picture of its coded stream while none of it is being coded, or the first of
its decoded stream that is not over. -/
def orderReady (d : Device) (w : WorkOrder) : Bool :=
  match w.kind with
  | .enc | .encr =>
    (match tfind (encKey w) d.codec.encs with
     | some s => s.busy == none && (match encNext s with | some e => e.1.ticket == w.ticket | none => false)
     | none => false)
  | .dec | .vfy => !earlierOf d (fun v => v.phase == .dispatched || woLive v) w
  | _ => true

/-- Effective priority of the work of a ticket. -/
def prioOf (d : Device) (t : Nat) : Nat := match woAt d t with | some w => w.effPrio | none => 0

/-- A queued work order may start on its engines (R75): it is ready, it is the first ready one in each engine's queue, and each engine is free for it,
holding no work but suspended work of lower priority (R177), or was freed for it by preemption; and no engine clock is gated or about to be
(R481). -/
def canStart (d : Device) (w : WorkOrder) : Bool :=
  w.phase == .queued && d.crp.pwr == .active && orderReady d w &&
    woFirst d (fun v => onEngines v.kind && sharesEngine v w && orderReady d v) w &&
    (woEngines w).all (fun u => !engineHeld d u &&
      ((engineAt d u).cur == none && (engineAt d u).susp.all (fun t => decide (prioOf d t < w.effPrio)) || (engineAt d u).cur == some w.ticket))

/-- A work order takes its engines and runs. -/
def takeEngines (d : Device) (w : WorkOrder) : Device :=
  modWo ((woEngines w).foldl (fun d u => setEngine d u { engineAt d u with cur := some w.ticket }) d) w.ticket
    (fun w => { w with phase := .running })

/-- A work order leaves every engine and suspension slot it holds, and what the engines kept of its microcode goes (R177, R207, R209). -/
def freeEngines (d : Device) (t : Nat) : Device :=
  let d := { d with codec := { d.codec with progs := d.codec.progs.filter (fun e => e.1 % 2 ^ 32 ≠ t % 2 ^ 32) } }
  (d.engines.map (·.1)).foldl (fun d u =>
    let e := engineAt d u
    setEngine d u { e with cur := if e.cur = some t then none else e.cur, susp := e.susp.filter (· ≠ t) }) d

/-- A running work order holds every one of its engines: none has it suspended (R178). -/
def allEngines (d : Device) (w : WorkOrder) : Bool := (woEngines w).all (fun u => (engineAt d u).cur == some w.ticket)

end Sys2Proof.Machine
end

