-- ==== Sys2Proof/Machine/Enc.lean ====
section
/-! DEFINITION. An ENC or ENCR (R92–R116, R124): its fields, the coded picture and its tiles, what it reads when it is accepted, its
checks, and the order of a stream's pictures (R96–R99). -/

namespace Sys2Proof.Machine

/-! Fields (R113). -/

/-- CODEC: 0 HEVC, 1 VVC, 2 AV1, 3 AVC. -/
def encCodec (w : WorkOrder) : Nat := woField w 64 1

/-- BIT_DEPTH. -/
def encDepth (w : WorkOrder) : Nat := woField w 68 1

/-- PIC_CTRL. -/
def encCtrl (w : WorkOrder) : Nat := woField w 71 1

/-- RC_MODE as it acts: mode 5 with BOUND_E 0 acts as mode 4 (R105). -/
def encMode (w : WorkOrder) : Nat := if woField w 78 1 = 5 ∧ woField w 80 2 = 0 then 4 else woField w 78 1

/-- BOUND_E. -/
def encBound (w : WorkOrder) : Nat := woField w 80 2

/-- A signed 16-bit field. -/
def encQp (w : WorkOrder) (o : Nat) : Int := signedOf 16 (woField w o 2)

/-- Ring mode. -/
def encRing (w : WorkOrder) : Bool := bitOf (woField w 79 1) 0

/-- GOP_LEN. -/
def encGop (w : WorkOrder) : Nat := woField w 106 2

/-- GOP_B. -/
def encGopB (w : WorkOrder) : Nat := woField w 108 1

/-- HIER applies: with GOP_B 1, 3 or 7 (R97). -/
def encHier (w : WorkOrder) : Bool := bitOf (woField w 110 1) 1 && [1, 3, 7].contains (encGopB w)

/-- The QP step u (R152). -/
def encU (w : WorkOrder) : Int := if encCodec w = 2 then 4 else 1

/-- OUT_OFFSET. -/
def encOff (w : WorkOrder) : Nat := woField w 128 4

/-- The least multiple of m that is n or more. -/
def roundUp (m n : Nat) : Nat := (n + m - 1) / m * m

/-- log2 of the CTU or superblock size (R100). -/
def encCtuLog (w : WorkOrder) : Nat :=
  let v := woField w 69 1
  if v ≠ 0 then v else if encCodec w = 1 then 7 else if encCodec w = 3 then 4 else 6

/-- The coded picture size (R100). -/
def codedSize (w : WorkOrder) : Nat × Nat :=
  let m := if encCodec w = 2 then 1 else if encCodec w = 3 then 16 else 8
  (roundUp m (sfWidth w.surfIn), roundUp m (sfHeight w.surfIn))

/-- CTU columns and rows of the coded picture. -/
def ctuGrid (w : WorkOrder) : Nat × Nat :=
  let n := 2 ^ encCtuLog w
  (((codedSize w).1 + n - 1) / n, ((codedSize w).2 + n - 1) / n)

/-- Tile columns and rows; every CTU row of an ENCR is a unit of its own (R126). -/
def tileGrid (w : WorkOrder) : Nat × Nat :=
  if isEncr w then (1, (ctuGrid w).2) else (woField w 72 1, woField w 73 1)

/-- Number of tiles. -/
def tileCount (w : WorkOrder) : Nat := (tileGrid w).1 * (tileGrid w).2

/-- First CTU and number of CTUs of part i of c parts of n CTUs (R106). -/
def tileSpan (n c i : Nat) : Nat × Nat := (i * n / max 1 c, (i + 1) * n / max 1 c - i * n / max 1 c)

/-- Tile t in CTUs: first column, columns, first row, rows. -/
def tileRect (w : WorkOrder) (t : Nat) : (Nat × Nat) × Nat × Nat :=
  let (c, r) := tileGrid w
  (tileSpan (ctuGrid w).1 c (t % max 1 c), tileSpan (ctuGrid w).2 r (t / max 1 c))

/-- Columns and rows of CTUs of tile t. -/
def tileDims (w : WorkOrder) (t : Nat) : Nat × Nat := let r := tileRect w t; (r.1.2, r.2.2)

/-- CTUs of tile t. -/
def tileCtus (w : WorkOrder) (t : Nat) : Nat := (tileDims w t).1 * (tileDims w t).2

/-- Position of CTU i of tile t in the picture, in CTUs. -/
def ctuPos (w : WorkOrder) (t i : Nat) : Nat × Nat :=
  let r := tileRect w t
  (r.1.1 + i % max 1 r.1.2, r.2.1 + i / max 1 r.1.2)

/-- Luma samples of tile t, wide and tall, inside the coded picture. -/
def tileSize (w : WorkOrder) (t : Nat) : Nat × Nat :=
  let n := 2 ^ encCtuLog w
  let r := tileRect w t
  let (cw, ch) := codedSize w
  (min cw ((r.1.1 + r.1.2) * n) - min cw (r.1.1 * n), min ch ((r.2.1 + r.2.2) * n) - min ch (r.2.1 * n))

/-- The engine that codes tile t (R107, R126). -/
def tileEngine (w : WorkOrder) (t : Nat) : Nat := w.unit + t % max 1 (woField w 21 1)

/-- The engine that verifies tile t (R109). -/
def verifyEngine (w : WorkOrder) (t : Nat) : Nat := woField w 75 1 + t % max 1 (woField w 76 1)

/-- The engines that verify a picture. -/
def verifyEngines (w : WorkOrder) : List Nat := upto (woField w 75 1) (woField w 76 1)

/-- The coded chroma format of a pixel format (R93), none when it cannot be coded. -/
def codedChroma (f : Nat) : Option Nat :=
  if f = 0x01 ∨ f = 0x02 ∨ f = 0x03 then some 0 else if f = 0x10 then some 1 else if f = 0x11 then some 2
  else if f = 0x12 ∨ f = 0x13 ∨ f = 0x20 then some 3 else none

/-- Size of plane k of the coded picture. -/
def codedPlane (w : WorkOrder) (k : Nat) : Nat × Nat :=
  let (cw, ch) := codedSize w
  if k = 0 then (cw, ch)
  else match codedChroma (sfFormat w.surfIn) with
    | some 1 => (cw / 2, ch / 2)
    | some 2 => (cw / 2, ch)
    | _ => (cw, ch)

/-- Samples in all planes of the coded picture (R98). -/
def codedSamples (w : WorkOrder) : Nat :=
  let s := (codedSize w).1 * (codedSize w).2
  match codedChroma (sfFormat w.surfIn) with
  | some 1 => s + 2 * (s / 4)
  | some 2 => 2 * s
  | some 3 => 3 * s
  | _ => s

/-! Records read at acceptance (R115, R124). -/

/-- Read n pieces of `size` bytes in turn, keeping them as one record unless one of the reads fails. -/
def readParts (c a size : Nat) : Nat → Device → List Byte → Device × Option (List Byte)
  | 0, d, acc => (d, some acc)
  | n + 1, d, acc =>
    match ctxRead d c a size with
    | (d, some b) => readParts c (a + size) size n d (acc ++ b)
    | (d, none) => (d, none)

/-- Read a table of n pieces of `size` bytes at the address in a field, unless it is 0, and keep it under a key. -/
def readTable (c key a size n : Nat) (s : Device × Records) : Device × Records :=
  if a = 0 then s
  else match readParts c a size n s.1 [] with
    | (d, some b) => (d, s.2 ++ [(key, b)])
    | (d, none) => (d, s.2)

/-- Handles REF_TABLE lists (R98). -/
def refCount (w : WorkOrder) : Nat := (woField w 109 1 + 1) * (if woField w 76 1 = 0 then 1 else 2)

/-- Records of an ENC or ENCR. -/
def encReads (d : Device) (w : WorkOrder) : Device × Records :=
  let s := readTable w.ctx 136 (woField w 136 8) 8 (min 256 (tileCount w)) (d, [])
  let s := readTable w.ctx 144 (woField w 144 8) 4 (refCount w) s
  let s := readTable w.ctx 152 (woField w 152 8) 8 256 s
  if isEncr w ∧ woField w 164 1 = 1 then readProgress w.ctx 168 (woField w 168 8) .load s else s

/-- A record kept under a key, or nothing. -/
def woExtraOf (w : WorkOrder) (key : Nat) : List Byte := (tfind key w.extra).getD []

/-- Entries of a table of 4-byte handles at a stride. -/
def handlesOf (b : List Byte) (stride : Nat) : List Nat := (upto 0 (b.length / max 1 stride)).map (fun i => fieldAt b (stride * i) 4)

/-- Type-specific handles of an ENC or ENCR (R77). -/
def encHandles (w : WorkOrder) : List Nat :=
  [woField w 120 4, woField w 124 4] ++ handlesOf (woExtraOf w 136) 8 ++ handlesOf (woExtraOf w 144) 4

/-! Checks (R92–R116, R142, R153). -/

/-- The range of a QP field (R113). -/
def qpRange (w : WorkOrder) : Int × Int :=
  if encCodec w = 2 then (0, 255)
  else (-6 * ((encDepth w : Int) - 8), if encCodec w = 1 then 63 else 51)

/-- lo ≤ v ≤ hi. -/
def within (r : Int × Int) (v : Int) : Bool := decide (r.1 ≤ v) && decide (v ≤ r.2)

/-- Profile, depth and chroma (R92, R93, R111). -/
def encProfileOk (w : WorkOrder) (p : Profile) : Bool :=
  let d := encDepth w
  let f := sfFormat w.surfIn
  [8, 10, 12, 16].contains d && decide (p.lo ≤ d) && decide (d ≤ p.hi) && decide (d ≤ fmtDepth f) &&
    (match codedChroma f with | some c => p.chroma.contains c | none => false) && (!p.intra || encGop w == 1) &&
    (if woField w 70 1 = 0 then true
     else woField w 70 1 == 1 && isCfa f &&
       ((p.codec == 0 && decide (5 ≤ p.code)) || (p.codec == 1 && p.code == 0x14) ||
         (p.codec == 2 && p.code == 0x23 && f == 0x03 && decide (d ≤ 12))))

/-- The bit rate R94 holds against the level. -/
def levelKbps (w : WorkOrder) : Nat := if encMode w = 1 ∨ encMode w = 2 then woField w 96 4 else 0

/-- The level of the stream (R94). -/
def encLevel (w : WorkOrder) (p : Profile) : Option (Option LevelRow) :=
  let (cw, ch) := codedSize w
  levelFor p (woField w 66 1) cw ch (woField w 112 4) (woField w 116 4) (levelKbps w) (woField w 67 1)

/-- Picture sizes and CTU sizes (R94, R100). -/
def encSizeOk (w : WorkOrder) : Bool :=
  let c := encCodec w
  let (cw, ch) := codedSize w
  let v := woField w 69 1
  (v == 0 || (if c = 0 then [4, 5, 6] else if c = 1 then [5, 6, 7] else if c = 2 then [6, 7] else [4]).contains v) &&
    (if c ≤ 1 then decide (cw ≤ 20480) && decide (ch ≤ 8640)
     else if c = 2 then decide (cw ≤ 16384) && decide (ch ≤ 8704) else decide (cw ≤ 8192) && decide (ch ≤ 4320))

/-- The tiles of the standard in a picture: those of R106, but one in an ENCR of HEVC or VVC, whose rows are slice segments (R126). -/
def stdTiles (w : WorkOrder) : Nat × Nat := if isEncr w && decide (encCodec w ≤ 1) then (1, 1) else tileGrid w

/-- Size of tile t of the standard. -/
def stdTileSize (w : WorkOrder) (t : Nat) : Nat × Nat := if isEncr w && decide (encCodec w ≤ 1) then codedSize w else tileSize w t

/-- Tiles (R106, R107). The rows of an AV1 ENCR are tiles too (R126); R124 gives an ENCR its own range of engines. -/
def encTilesOk (w : WorkOrder) (l : Option LevelRow) : Bool :=
  let c := encCodec w
  let cols := woField w 72 1
  let rows := woField w 73 1
  let (tc, tr) := stdTiles w
  decide (1 ≤ cols) && decide (cols ≤ 64) && decide (1 ≤ rows) && decide (rows ≤ 64) && decide (cols * rows ≤ 256) &&
    (c != 3 || cols == 1) && (isEncr w || decide (woField w 21 1 ≤ cols * rows)) &&
    (upto 0 (tc * tr)).all (fun t =>
      let (tw, th) := stdTileSize w t
      decide (0 < tw) && decide (0 < th) && (decide (2 ≤ c) || (decide (256 ≤ tw) && decide (64 ≤ th))) &&
        (c != 2 || (decide (tw ≤ 4096) && decide (tw * th ≤ 4096 * 2304)))) &&
    (match l with
     | some l => decide (3 ≤ c) || (decide (tc ≤ l.cols) && decide (if c = 0 then tr ≤ l.rows else tc * tr ≤ l.rows))
     | none => true)

/-- GOP fields and references (R97, R98). -/
def encGopOk (w : WorkOrder) (l : Option LevelRow) : Bool :=
  let (cw, ch) := codedSize w
  let n := woField w 109 1
  decide (1 ≤ encGop w) && decide (encGopB w ≤ 7) && encGop w % (encGopB w + 1) == 0 && decide (woField w 110 1 < 8) &&
    (encGop w == 1 ||
      (decide (1 ≤ n) && decide (n ≤ 16) && decide (n + 1 ≤ dpbSize (encCodec w) l cw ch) && (encCodec w != 2 || decide (n ≤ 7)) &&
        woField w 144 8 != 0))

/-- Verification and hashes (R109, R112). `clear` says that the verify engines do not overlap the placement. -/
def encVerifyOk (w : WorkOrder) (clear : Bool) : Bool :=
  let n := woField w 76 1
  let h := woField w 77 1
  decide (h ≤ 3) && (encCodec w != 2 || h == 0 || h == 2) &&
    (n == 0 || (clear && decide (n ≤ 48) && decide (woField w 75 1 + n ≤ 96) && h != 0 && (h != 1 || n == 1) && encCodec w != 3))

/-- QP_MIN, QP_MAX and E of class entry i (R114, R105). -/
def classOk (w : WorkOrder) (i : Nat) : Bool :=
  let o := 208 + 6 * i
  within (qpRange w) (encQp w o) && within (qpRange w) (encQp w (o + 2)) && decide (encQp w o ≤ encQp w (o + 2)) &&
    (woField w 78 1 != 5 || woField w (o + 4) 2 == 0xFFFF || decide (woField w (o + 4) 2 ≤ encBound w))

/-- Rate fields (R105, R113, R153). -/
def encRateOk (w : WorkOrder) (l : Option LevelRow) : Bool :=
  let m := encMode w
  let t := woField w 92 4
  let mx := woField w 96 4
  decide (woField w 78 1 ≤ 5) && decide (encBound w ≤ 1023) && (woField w 78 1 != 4 || encBound w == 0) && (decide (m < 4) || (encCodec w != 3 && !isEncr w)) &&
    (m == 4 || (within (qpRange w) (encQp w 86) && within (qpRange w) (encQp w 88) && decide (encQp w 86 ≤ encQp w 88))) &&
    (m == 3 || m == 4 || within (encQp w 86, encQp w 88) (encQp w 84)) && woField w 112 4 != 0 && woField w 116 4 != 0 &&
    (m != 1 || (decide (1 ≤ t) && (mx == 0 || decide (t ≤ mx)))) &&
    (m != 2 || (decide (1 ≤ t) && (mx == 0 || mx == t) &&
      decide (t * woField w 116 4 ≤ woField w 100 4 * woField w 112 4) && decide (1 ≤ woField w 104 2) && decide (woField w 104 2 ≤ 1000) &&
      (match l with | some l => decide (woField w 100 4 ≤ if woField w 67 1 = 1 then l.cpbHigh else l.cpb) | none => true))) &&
    (m != 3 || (within (qpRange w) (encQp w 90) && within (encQp w 86, encQp w 88) (encQp w 90))) &&
    (m != 5 || t == 0 || mx == 0 || decide (t ≤ mx)) && (upto 0 8).all (classOk w)

/-- The scaling record (R102). -/
def scalingOk (b : List Byte) : Bool :=
  decide (fieldAt b 0 1 ≤ 2) && decide (fieldAt b 1 1 ≤ 1) && [2, 3, 4].all (fun o => decide (fieldAt b o 1 ≤ 15)) && zeroAt b 5 11

/-- Other fields of R113 and R142. -/
def encFieldsOk (w : WorkOrder) : Bool :=
  let a := woField w 111 1
  woHandle w 0 == sfHandle w.surfIn && woField w 40 8 != 0 && decide (woField w 67 1 ≤ 1) && (encCodec w != 3 || woField w 67 1 == 0) &&
    decide (encCtrl w < 32) && encCtrl w % 4 != 3 && decide (woField w 74 1 ≤ 1) && decide (woField w 79 1 ≤ 3) &&
    (!encRing w || decide (woField w 82 2 ≤ 8191)) && decide (a < 8) && (!bitOf a 0 || handleGen (woHandle w 3) != 0) &&
    (!bitOf a 1 || handleGen (woField w 120 4) != 0) && (!bitOf a 2 || handleGen (woField w 124 4) != 0) &&
    encOff w % 4096 == 0 && decide (woField w 160 2 ≤ 3) && decide (woField w 162 2 < 128) &&
    (isEncr w || zeroAt w.raw 164 44) && (woField w 152 8 == 0 || scalingOk (woExtraOf w 152))

/-- The differences of R124 and R126. -/
def encrOk (w : WorkOrder) : Bool :=
  !isEncr w ||
    (decide (woField w 21 1 ≤ 8) && (woField w 20 1 == 0xFF || woField w 20 1 / 8 == (woField w 20 1 + woField w 21 1 - 1) / 8) &&
      decide (encCodec w ≤ 2) && decide (woField w 78 1 ≤ 3) && woField w 70 1 == 0 && woField w 76 1 == 0 && woField w 72 1 == 1 &&
      woField w 73 1 == 1 && (encCodec w != 2 || woField w 77 1 == 0) && encRing w && decide (woField w 164 1 ≤ 1) &&
      zeroAt w.raw 165 3 && (woField w 164 1 == 0 || woField w 168 8 % 8 == 0) && zeroAt w.raw 176 32 &&
      (encCodec w != 2 || (decide ((codedSize w).1 ≤ 4096) && decide ((ctuGrid w).2 ≤ 64))))

/-- What INIT fixes for a sequence (R96). -/
def seqParams (w : WorkOrder) : List Nat :=
  [woField w 64 1, woField w 65 1, woField w 66 1, woField w 67 1, woField w 68 1, woField w 69 1, woField w 70 1, woField w 72 1,
   woField w 73 1, woField w 106 2, woField w 108 1, woField w 109 1, woField w 110 1, woField w 112 4, woField w 116 4,
   woField w 78 1, sfWidth w.surfIn, sfHeight w.surfIn, sfFormat w.surfIn, sfCfa w.surfIn]

/-- INIT of PIC_CTRL. -/
def encInit (w : WorkOrder) : Bool := bitOf (encCtrl w) 4

/-- The state buffer holds a sequence that the work order continues, or it starts one (R96, R97). -/
def encStreamOk (d : Device) (w : WorkOrder) : Bool :=
  encInit w || (match tfind (encKey w) d.codec.encs with | some s => !s.ended && s.params == seqParams w | none => false)

/-- Every rule that names 0x31 (R115). -/
def encFormatOk (d : Device) (w : WorkOrder) (clear : Bool) : Bool :=
  match profileOf (encCodec w) (woField w 65 1) with
  | none => false
  | some p =>
    encProfileOk w p && encSizeOk w &&
      (match encLevel w p with
       | none => false
       | some l => encTilesOk w l && encGopOk w l && encRateOk w l) &&
      encVerifyOk w clear && encFieldsOk w && encrOk w && encStreamOk d w

/-- A buffer holds at least n bytes. -/
def bufHolds (d : Device) (h n : Nat) : Bool := handleGen h != 0 && decide (n ≤ bufSize d (handleIdx h))

/-- Bytes of a staging slot with OUT_TABLE = 0 (R116). -/
def slotBytes (w : WorkOrder) : Nat := (woField w 132 4 - 65536) / max 1 (tileCount w) / 4096 * 4096

/-- Staging region of tile t: handle, offset and length (R116). -/
def stageOf (d : Device) (w : WorkOrder) (t : Nat) : Nat × Nat × Nat :=
  if woField w 136 8 = 0 then (woHandle w 1, encOff w + 65536 + t * slotBytes w, slotBytes w)
  else
    let b := woExtraOf w 136
    let h := fieldAt b (8 * t) 4
    let o := fieldAt b (8 * t + 4) 4
    (h, o, bufSize d (handleIdx h) - o)

/-- Statistics blocks of a coded picture: one a CTU (R140). -/
def statBytes (cols rows : Nat) : Nat := 512 + 32 * (cols * rows)

/-- Bytes of the ROI map (R149). -/
def roiBytes (w : WorkOrder) : Nat := ((codedSize w).1 + 63) / 64 * (((codedSize w).2 + 63) / 64)

/-- The sizes and regions whose failure is 0x20 (R98, R115, R116, R142). -/
def encSpaceOk (d : Device) (w : WorkOrder) : Bool :=
  bufHolds d (woHandle w 2) 65536 &&
    (handlesOf (woExtraOf w 144) 4).all (fun h => encGop w == 1 || bufHolds d h ((codedSamples w * 515 + 255) / 256)) &&
    (handleGen (woField w 120 4) == 0 || bufHolds d (woField w 120 4) (roiBytes w)) &&
    (handleGen (woField w 124 4) == 0 || bufHolds d (woField w 124 4) (statBytes (ctuGrid w).1 (ctuGrid w).2)) &&
    (encRing w ||
      (bufHolds d (woHandle w 1) (encOff w + woField w 132 4) && decide (65536 ≤ woField w 132 4) &&
        (if woField w 136 8 = 0 then decide (4096 ≤ slotBytes w)
         else (upto 0 (tileCount w)).all (fun t =>
           let b := woExtraOf w 136
           bufHolds d (fieldAt b (8 * t) 4) (fieldAt b (8 * t + 4) 4 + 1)))))

/-- Regions do not overlap, and OUT_TABLE offsets are multiples of 4,096 (R116). -/
def encRegionsOk (w : WorkOrder) : Bool :=
  encRing w || woField w 136 8 == 0 ||
    (let b := woExtraOf w 136
     let n := tileCount w
     noRepeat ((upto 0 n).map (fun t => handleIdx (fieldAt b (8 * t) 4))) &&
       (upto 0 n).all (fun t => fieldAt b (8 * t + 4) 4 % 4096 == 0 &&
         (handleIdx (fieldAt b (8 * t) 4) != handleIdx (woHandle w 1) || decide (encOff w + 65536 ≤ fieldAt b (8 * t + 4) 4))))

/-- The checks of an ENC or ENCR after step 7 of R77: 0 or the status of the first failure (R115, R124). -/
def encChecks (d : Device) (w : WorkOrder) (clear : Bool) : Nat :=
  let need := fun (o : Nat) => woField w o 8 == 0 || hasRecord w.extra o
  if !(need 136 && need 144 && need 152 && (!isEncr w || woField w 164 1 != 1 || hasRecord w.extra 168)) then 0x20
  else if !encFormatOk d w clear then 0x31
  else if !encSpaceOk d w then 0x20
  else if !encRegionsOk w then 0x31
  else 0

/-! The pictures of a stream (R96–R99). -/

/-- A stream that INIT starts. -/
def EncStream.fresh (w : WorkOrder) : EncStream :=
  { params := seqParams w, ended := false, keyNext := false, initNext := false, issued := 0, pos := 0, pics := [], busy := none, count := 0, debt := 0,
    full := 0, fref := 0, memos := [], refs := [], order := [], held := [] }

/-- An accepted picture joins its stream (R96, R97). -/
def encAccept (d : Device) (w : WorkOrder) : Device :=
  let key := encKey w
  let s0 : EncStream :=
    match tfind key d.codec.encs with
    | some s => if encInit w then { s with params := seqParams w, ended := false, keyNext := false, initNext := false, issued := 0 } else s
    | none => EncStream.fresh w
  let d := { d with codec := { d.codec with encs := tput key s0 d.codec.encs } }
  modEnc d key (fun s =>
    { s with
      issued := s.issued + 1
      pics := s.pics ++ [{ ticket := w.ticket, disp := s.issued, gop := (encGop w, encGopB w, encHier w), ctrl := if s.keyNext then 1 else encCtrl w % 4, endSeq := bitOf (encCtrl w) 3,
                           init := encInit w || s.initNext, fixed := none, coded := false }]
      keyNext := false, initNext := false, ended := s.ended || bitOf (encCtrl w) 3 })

/-- A picture that ends without being coded leaves the sequence (R99); when it was a key picture, the next one becomes one.
DESIGN CHOICE: a sequence that the removed picture's END_SEQ ended stays ended (log entry 77). -/
def encRemove (s : EncStream) (t : Nat) : EncStream :=
  match (picTypes s.pos s.pics).find? (fun e => e.1.ticket == t) with
  | none => s
  | some (p, _, ty) =>
    if p.coded then s
    else
      let after := ((s.pics.dropWhile (fun q => q.ticket ≠ t)).drop 1).find? (fun q => q.fixed.isNone)
      let s := { s with busy := if s.busy = some t then none else s.busy }
      if ty ≠ 0 then { s with pics := s.pics.filter (fun q => q.ticket ≠ t) }
      else match after with
        | some n => { s with pics := (s.pics.filter (fun q => q.ticket ≠ t)).map (fun q =>
            if q.ticket = n.ticket then { q with ctrl := 1, init := q.init || p.init } else q) }
        | none => { s with pics := s.pics.filter (fun q => q.ticket ≠ t), keyNext := true, initNext := s.initNext || p.init }

/-- A key picture that ends before it joined its sequence, refused at acceptance or stopped while still dispatched: the next picture becomes the
key picture (R99). Only an order whose context owns the state buffer acts on its stream. -/
def encRefused (d : Device) (w : WorkOrder) : Device :=
  if isEnc w ∧ (encCtrl w % 4 = 1 ∨ encInit w) ∧ handleStatus d (ctxOwner w.ctx) (encKey w) = 0 then
    modEnc d (encKey w) (fun s => { s with keyNext := !s.ended || s.keyNext })
  else d

end Sys2Proof.Machine
end

