-- ==== Sys2Proof/Machine/Rate.lean ====
section
/-! DEFINITION. The analysis field as an ENC reads it (R139, R144, R145), regions of interest (R149–R151) and rate control
(R152–R165). -/

namespace Sys2Proof.Machine

/-- A quotient rounded to nearest, halves away from zero. -/
def roundDiv (a : Int) (n : Nat) : Int :=
  if 0 ≤ a then (2 * a + n) / (2 * max 1 n : Nat) else -((-2 * a + n) / (2 * max 1 n : Nat))

/-! The field. -/

/-- The field header of an ENC, when it names one. -/
def fieldHead (d : Device) (w : WorkOrder) : List Byte :=
  if bitOf (woField w 111 1) 0 then bufBytes d (woHandle w 3) 0 128 else []

/-- Views of a field header that match the work order's source (R144, R145). -/
def fieldViews (h : List Byte) (w : WorkOrder) : List (List Byte) :=
  ((upto 0 4).map (fun i => (h.drop (64 + 16 * i)).take 16)).filter (fun v =>
    fieldAt v 0 2 != 0 && fieldAt v 0 2 == sfWidth w.surfIn && fieldAt v 2 2 == sfHeight w.surfIn)

/-- The field is used (R145). -/
def fieldGood (h : List Byte) (w : WorkOrder) : Bool :=
  fieldAt h 0 4 == 0x4C444946 && fieldAt h 4 2 == 1 && fieldAt h 6 1 == 1 && fieldAt h 32 2 != 0 && (fieldViews h w).length == 1

/-- COLS and ROWS of a field. -/
def fieldDims (h : List Byte) : Nat × Nat := (fieldAt h 28 2, fieldAt h 30 2)

/-- Entry i of the field in HANDLE3. -/
def fieldEntry (d : Device) (w : WorkOrder) (i : Nat) : List Byte := bufBytes d (woHandle w 3) (4096 + 8 * i) 8

/-- CPLX of entry i. -/
def fieldCplx (d : Device) (w : WorkOrder) (i : Nat) : Nat := fieldAt (fieldEntry d w i) 6 2

/-- The source position of a sample of the stream's picture (R144). -/
def fieldSource (v : List Byte) (x y : Nat) : Nat × Nat :=
  (fieldAt v 4 2 + (2 * x + 1) * fieldAt v 8 2 / (2 * fieldAt v 0 2), fieldAt v 6 2 + (2 * y + 1) * fieldAt v 10 2 / (2 * fieldAt v 2 2))

/-- The column and row that cover a sample of the stream's picture (R144). -/
def fieldCover (h v : List Byte) (x y : Nat) : Nat × Nat :=
  let a := max 1 (fieldAt h 7 1)
  let (sx, sy) := fieldSource v x y
  (min ((fieldDims h).1 - 1) (sx / a / 16), min ((fieldDims h).2 - 1) (sy / a / 16))

/-- The sample of the stream's picture that shows the centre of the entry in a column and row, none outside the crop (R144
read backwards). -/
def fieldCentre (h v : List Byte) (c r : Nat) : Option (Nat × Nat) :=
  let a := fieldAt h 7 1
  let sx := (16 * c + 8) * a
  let sy := (16 * r + 8) * a
  if fieldAt v 4 2 ≤ sx ∧ sx < fieldAt v 4 2 + fieldAt v 8 2 ∧ fieldAt v 6 2 ≤ sy ∧ sy < fieldAt v 6 2 + fieldAt v 10 2 then
    some ((sx - fieldAt v 4 2) * fieldAt v 0 2 / max 1 (fieldAt v 8 2), (sy - fieldAt v 6 2) * fieldAt v 2 2 / max 1 (fieldAt v 10 2))
  else none

/-- Sum of CPLX over the entries whose centres map into a rectangle of the picture (R160). -/
def cplxIn (d : Device) (w : WorkOrder) (x0 y0 x1 y1 : Nat) : Nat :=
  let h := fieldHead d w
  let v := (fieldViews h w).headD []
  let (cols, rows) := fieldDims h
  ((upto 0 (cols * rows)).map (fun i =>
    match fieldCentre h v (i % max 1 cols) (i / max 1 cols) with
    | some (x, y) => if x0 ≤ x ∧ x < x1 ∧ y0 ≤ y ∧ y < y1 then fieldCplx d w i else 0
    | none => 0)).foldl (· + ·) 0

/-- Sum of CPLX, and number, of the entries that cover a rectangle of the picture (R161). -/
def cplxCover (d : Device) (w : WorkOrder) (x0 y0 x1 y1 : Nat) : Nat × Nat :=
  let h := fieldHead d w
  let v := (fieldViews h w).headD []
  let (c0, r0) := fieldCover h v x0 y0
  let (c1, r1) := fieldCover h v (x1 - 1) (y1 - 1)
  let es := (upto r0 (r1 + 1 - r0)).flatMap (fun r => (upto c0 (c1 + 1 - c0)).map (fun c => fieldCplx d w (r * (fieldDims h).1 + c)))
  (es.foldl (· + ·) 0, es.length)

/-- MEAN_CPLX of a field: its entries' mean, rounded (R136). -/
def fieldMean (d : Device) (w : WorkOrder) : Nat :=
  let (cols, rows) := fieldDims (fieldHead d w)
  let n := max 1 (cols * rows)
  (((upto 0 (cols * rows)).map (fieldCplx d w)).foldl (· + ·) 0 + n / 2) / n

/-- The largest k from −m to m with a^p ≥ 2^(2k − 1) × b^p: m limits round(n × log2(a / b)) for p = 2n, and no tie can occur
because 2^(odd / p) is irrational. -/
def logRatio (p m a b : Nat) : Int :=
  (((upto 0 (2 * m)).filter (fun (i : Nat) =>
    -- step from −m + i to −m + i + 1, k = i + 1 − m
    let k : Int := (i : Int) + 1 - m
    if 1 ≤ k then decide (2 ^ (2 * k - 1).toNat * b ^ p ≤ a ^ p) else decide (b ^ p ≤ 2 ^ (1 - 2 * k).toNat * a ^ p))).length : Int) - m

/-! Regions (R149–R151). -/

/-- The ROI map byte of the region at a sample of the coded picture. -/
def roiByte (w : WorkOrder) (roi : List Byte) (x y : Nat) : Nat :=
  if bitOf (woField w 111 1) 1 then fieldAt roi (y / 64 * (((codedSize w).1 + 63) / 64) + x / 64) 1 else 0

/-- QP_OFF of a map byte. -/
def roiOff (b : Nat) : Int := signedOf 5 (b / 8)

/-- The map bytes of the regions a rectangle covers, in raster order. -/
def roiBytesIn (w : WorkOrder) (roi : List Byte) (x y rw rh : Nat) : List Nat :=
  (upto (y / 64) ((y + rh - 1) / 64 + 1 - y / 64)).flatMap (fun r =>
    (upto (x / 64) ((x + rw - 1) / 64 + 1 - x / 64)).map (fun c => roiByte w roi (64 * c) (64 * r)))

/-- The first entry of a list with the lowest QP_OFF. -/
def lowestOff (l : List Nat) : Nat := (l.drop 1).foldl (fun a b => if roiOff a ≤ roiOff b then a else b) (l.headD 0)

/-- The map byte that steers the block at (x, y) of a CU of a CTU whose corner is (cx, cy): of the region that contains it, or of the
whole AV1 superblock (R150). -/
def blockRoi (w : WorkOrder) (roi : List Byte) (cx cy x y : Nat) : Nat :=
  if encCodec w = 2 ∧ encCtuLog w = 7 then
    lowestOff (roiBytesIn w roi cx cy (min 128 ((codedSize w).1 - cx)) (min 128 ((codedSize w).2 - cy)))
  else roiByte w roi x y

/-- QP_MIN and QP_MAX of the class of a map byte. -/
def classRangeOf (w : WorkOrder) (b : Nat) : Int × Int := (encQp w (208 + 6 * (b % 8)), encQp w (210 + 6 * (b % 8)))

/-- lo ≤ v ≤ hi made so. -/
def clampI (lo hi v : Int) : Int := max lo (min hi v)

/-- The block QP (R150); `top` says that the budget of modes 1 and 3 is exhausted (R162). -/
def blockQp (w : WorkOrder) (b : Nat) (q : Int) (top : Bool) : Int :=
  let (lo, hi) := classRangeOf w b
  if top then hi else clampI lo hi (if encMode w = 4 then q else q + encU w * roiOff b)

/-- The bound of a class (R114, R150). -/
def classBound (w : WorkOrder) (b : Nat) : Nat :=
  let e := woField w (212 + 6 * (b % 8)) 2
  if e = 0xFFFF then encBound w else e

/-- The bound of a CU: the smallest of the regions it covers (R167). -/
def cuBound (w : WorkOrder) (roi : List Byte) (x y cw ch : Nat) : Nat :=
  ((roiBytesIn w roi x y cw ch).map (classBound w)).foldl min (encBound w)

/-! Picture targets (R154–R158). -/

/-- The weight of a picture type (R154). -/
def typeWeight (ty : Nat) : Nat := if ty ≤ 1 then 16 else if ty = 2 then 4 else if ty = 3 then 3 else 2

/-- The sum of weights over one GOP (R154). -/
def gopWeight (w : WorkOrder) : Nat :=
  let b := encGopB w
  let segs := encGop w / (b + 1)
  let bs := if encHier w then 3 * ((b - 1) / 2) + 2 * ((b + 1) / 2) else 2 * b
  16 + 4 * (segs - 1) + segs * bs

/-- Bits of one picture at a rate in kbit/s. -/
def rateBits (w : WorkOrder) (kbps : Nat) : Nat := kbps * 1000 * woField w 116 4 / max 1 (woField w 112 4)

/-- T_type or C_type of a rate. -/
def typeBits (w : WorkOrder) (kbps ty : Nat) : Nat :=
  if encGop w = 1 then rateBits w kbps else rateBits w kbps * encGop w * typeWeight ty / max 1 (gopWeight w)

/-- Modes with a target and a debt D = bits − T′ (R156). -/
def hasTarget (w : WorkOrder) : Bool := encMode w == 1 || encMode w == 2 || (encMode w == 5 && woField w 92 4 != 0)

/-- T′ and the limit C or H of a picture (R155). -/
def picTarget (w : WorkOrder) (s : EncStream) (ty : Nat) : Option Nat × Option Int :=
  let tk := woField w 92 4
  let mk := woField w 96 4
  let t := typeBits w tk ty
  let c := typeBits w mk ty
  let ti : Int := (t : Nat)
  let ci : Int := (c : Nat)
  if encMode w = 2 then
    let h := s.full - 512
    (some (clampI ((t / 4 : Nat) : Int) (Int.tdiv (3 * h) 4) (ti + Int.tdiv (s.full - s.fref) 4)).toNat, some h)
  else if encMode w = 1 ∨ (encMode w = 5 ∧ tk ≠ 0) then
    let t' := (clampI ((t / 4 : Nat) : Int) (2 * ti) (ti - s.debt)).toNat
    (some t', if mk = 0 then none else some ((t' * mk / tk : Nat) : Int))
  else if encMode w = 3 then
    (none, if mk = 0 then none else some (clampI ((c / 4 : Nat) : Int) (2 * ci) (ci - s.debt)))
  else if encMode w = 4 ∨ encMode w = 5 then (none, if mk = 0 then none else some ci)
  else (none, none)

/-- The class of a type in R158: key and intra, P, B. -/
def typeClass (ty : Nat) : Nat := if ty ≤ 1 then 0 else if ty = 2 then 1 else 2

/-- q_0, and the QP of the modes without a target (R152, R158). Mode 4 uses no QP field, and the spec states no other Q_base for it: a free value
of the range of R113 (log entry 78). -/
def startQp (d : Device) (w : WorkOrder) (s : EncStream) (ty : Nat) (target : Option Nat) : Int :=
  match target with
  | none =>
    if encMode w = 3 then encQp w 90
    else if encMode w = 4 then
      let (lo, hi) := qpRange w
      lo + (free d 124 % ((hi - lo).toNat + 1) : Nat)
    else encQp w 84
  | some t =>
    match (s.memos.find? (fun m => m.cls == typeClass ty)).or s.memos.head? with
    | none => encQp w 84
    | some m => clampI (encQp w 86) (encQp w 88) (m.qp + encU w * logRatio 12 6 m.bits t)

/-! Tile shares (R160). -/

/-- Weight of a rectangle of CTUs: CPLX when the field is used, otherwise its luma area. -/
def ctuWeight (d : Device) (w : WorkOrder) (used : Bool) (x0 y0 x1 y1 : Nat) : Nat :=
  let n := 2 ^ encCtuLog w
  let (cw, ch) := codedSize w
  let (a, b, c, e) := (min cw (x0 * n), min ch (y0 * n), min cw (x1 * n), min ch (y1 * n))
  if used then cplxIn d w a b c e else (c - a) * (e - b)

/-- Weight of tile t. -/
def tileWeight (d : Device) (w : WorkOrder) (used : Bool) (t : Nat) : Nat :=
  let r := tileRect w t
  ctuWeight d w used r.1.1 r.2.1 (r.1.1 + r.1.2) (r.2.1 + r.2.2)

/-- plan[k] of a rectangle of CTU columns over its rows, for a number of bits. -/
def rowPlan (d : Device) (w : WorkOrder) (used : Bool) (x0 cols y0 rows bits : Nat) : List Nat :=
  let ws := (upto y0 rows).map (fun y => ctuWeight d w used x0 y (x0 + cols) (y + 1))
  ws.map (fun k => bits * k / max 1 (ws.foldl (· + ·) 0))

/-- The budgets of a picture: one a tile, or one shared by the whole ENCR (R160, R165). -/
def picBudgets (d : Device) (w : WorkOrder) (used : Bool) (target : Option Nat) (limit : Option Int) (q0 : Int) (pre : Nat) (all : Bool) :
    Table Budget :=
  let b0 := { Budget.reset with q := q0, minimal := all }
  if isEncr w then
    [(0, { b0 with
      spent := pre, cap := limit
      plan := match target with | some t => rowPlan d w used 0 (ctuGrid w).1 0 (ctuGrid w).2 t | none => [] })]
  else
    let ws := (upto 0 (tileCount w)).map (tileWeight d w used)
    let sum := max 1 (ws.foldl (· + ·) 0)
    ((upto 0 (tileCount w)).zip ws).map (fun e =>
      let r := tileRect w e.1
      (e.1, { b0 with
        cap := limit.map (fun (c : Int) => Int.tdiv ((if encMode w = 2 then c - ((pre : Nat) : Int) else c) * ((e.2 : Nat) : Int)) ((sum : Nat) : Int))
        plan := match target with | some t => rowPlan d w used r.1.1 r.1.2 r.2.1 r.2.2 (t * e.2 / sum) | none => [] }))

/-- The reserve r of a minimal CTU (R163). -/
def ctuReserve (w : WorkOrder) : Nat := if encCtuLog w = 7 then 256 else 64

/-- Even minimal CTUs break the limit of a mode 2 picture (R164). -/
def hrdBroken (w : WorkOrder) (limit : Option Int) (pre : Nat) : Bool :=
  encMode w == 2 &&
    match limit with
    | some h => decide (h < ((pre + ctuReserve w * ((ctuGrid w).1 * (ctuGrid w).2) : Nat) : Int))
    | none => false

/-- The update of R161 after a CTU row whose bits `spent` counts; `last` says that no row follows. -/
def rowUpdate (w : WorkOrder) (b : Budget) (last : Bool) : Budget :=
  let b := { b with planned := b.planned + (b.plan[b.row]?).getD 0, row := b.row + 1 }
  if last ∨ (b.spentUp ∧ encMode w = 5) ∨ !hasTarget w then b
  else
    let e : Int := (b.spent : Int) - b.planned
    let p : Int := ((b.plan[b.row]?).getD 0 : Nat)
    let dq : Int := if p ≤ e then 2 else if p ≤ 4 * e then 1 else if e ≤ -p then -2 else if 4 * e ≤ -p then -1 else 0
    { b with q := clampI (encQp w 86) (encQp w 88) (b.q + encU w * dq) }

/-- Q_base of a CTU: the tile's, but in mode 3 steered by the field (R161). -/
def ctuBase (d : Device) (w : WorkOrder) (used : Bool) (b : Budget) (x0 y0 : Nat) : Int :=
  if encMode w ≠ 3 then b.q
  else if !used then clampI (encQp w 86) (encQp w 88) (encQp w 90)
  else
    let n := 2 ^ encCtuLog w
    let (sum, k) := cplxCover d w x0 y0 (min (codedSize w).1 (x0 + n)) (min (codedSize w).2 (y0 + n))
    clampI (encQp w 86) (encQp w 88) (encQp w 90 + encU w * logRatio 6 4 sum (fieldMean d w * k))

/-- D and F after a picture of `bits` bits (R156, R157). -/
def rateAfter (w : WorkOrder) (s : EncStream) (target : Option Nat) (limit : Option Int) (bits : Nat) : EncStream :=
  let b : Int := (bits : Nat)
  if encMode w = 1 ∨ (encMode w = 5 ∧ hasTarget w) then
    match target with | some t => { s with debt := s.debt + b - (t : Nat) } | none => s
  else if encMode w = 3 then
    match limit with | some c => { s with debt := max 0 (s.debt + b - c) } | none => s
  else if encMode w = 2 then
    { s with full := min (max (s.full - b) 0 + (rateBits w (woField w 92 4) : Nat)) ((woField w 100 4 * 1000 : Nat) : Int) }
  else s

end Sys2Proof.Machine
end

