-- ==== Sys2Proof/Machine/Search.lean ====
section
/-! DEFINITION. Motion search in a coding engine (R143–R148): predictor candidates, integer and fractional refinement, AMVR, bi-prediction,
affine motion. Vectors are in whole luma samples until fractional refinement, then in quarter samples. -/

namespace Sys2Proof.Machine

/-- A vector. -/
abbrev Vect := Int × Int

/-- A sample of a plane, its edges repeated. -/
def padAt (r : Rows) (x y : Int) : Int := (padPx r x.toNat y.toNat : Nat)

/-- One butterfly stage over a list: sums of halves, then differences. -/
def butterfly (l : List Int) : List Int :=
  let n := l.length / 2
  let a := l.take n
  let b := l.drop n
  (a.zip b).map (fun e => e.1 + e.2) ++ (a.zip b).map (fun e => e.1 - e.2)

/-- The Hadamard transform of 2^n numbers. -/
def hadamard : Nat → List Int → List Int
  | 0, l => l
  | n + 1, l =>
    let b := butterfly l
    hadamard n (b.take (b.length / 2)) ++ hadamard n (b.drop (b.length / 2))

/-- Hadamard SATD of the differences of two blocks, over 8 × 8 transforms, or 4 × 4 where the block is narrower than 8 (R101, R147). -/
def satdOf (a b : Rows) : Nat :=
  let w := (a.headD []).length
  let n := if min w a.length < 8 then 4 else 8
  ((upto 0 ((a.length + n - 1) / n)).flatMap (fun r => (upto 0 ((w + n - 1) / n)).map (fun c =>
    ((hadamard (if n = 8 then 6 else 4) ((upto (n * r) n).flatMap (fun j => (upto (n * c) n).map (fun i =>
      ((px a i j : Nat) : Int) - ((px b i j : Nat) : Int))))).foldl (fun s v => s + v.natAbs) 0)))).foldl (· + ·) 0

/-- A rectangle of a plane, its edges repeated. -/
def cutBlock (r : Rows) (b : Block) : Rows := genRows b.w b.h (fun i j => padPx r (b.x + i) (b.y + j))

/-- SAD of two blocks. -/
def sadOf (a b : Rows) : Nat :=
  ((a.zip b).map (fun e => ((e.1.zip e.2).map (fun p => (p.1 - p.2) + (p.2 - p.1))).foldl (· + ·) 0)).foldl (· + ·) 0

/-- A reference picture as a search reads it: its planes, display position, FRAME, and how its CUs were coded. -/
structure RefView where
  planes : List Rows
  disp : Nat
  frame : Nat
  cus : List CuRec

/-- What the search and the mode decision of a CTU read: the work order, the type and display position of its picture, its source at coded depth,
its reference lists, the field header and view when the field is used, the field's entries, the block QP, the tile and the CTU. -/
structure Coder where
  w : WorkOrder
  type : Nat
  disp : Nat
  src : List Rows
  refs : List (List RefView)
  field : Option (List Byte × List Byte)
  entry : Nat → List Byte
  qp : Block → Int
  bound : Block → Nat
  tile : Block
  ctu : Block

/-- Planes of the reference lists. -/
def Coder.planes (e : Coder) : List (List (List Rows)) := e.refs.map (fun l => l.map (·.planes))

/-- A tool is off by TOOL_OFF (R113). -/
def toolOff (w : WorkOrder) (i : Nat) : Bool := bitOf (woField w 162 2) i

/-- A block holds a sample. -/
def blockHolds (b : Block) (x y : Int) : Bool :=
  decide ((b.x : Int) ≤ x) && decide (x < b.x + b.w) && decide ((b.y : Int) ≤ y) && decide (y < b.y + b.h)

/-- The prediction block of coded CUs that holds a sample. -/
def partAt (cus : List CuRec) (x y : Int) : Option Part :=
  (cus.find? (fun c => blockHolds c.blk x y)).bind (fun c => c.parts.find? (fun p => blockHolds p.blk x y))

/-! Predictor candidates (R143, R144). -/

/-- A quotient of integers rounded to nearest, halves away from zero. -/
def roundFrac (a b : Int) : Int := if b < 0 then roundDiv (-a) b.natAbs else roundDiv a b.natAbs

/-- A vector in quarter samples at whole samples (R143). -/
def wholeMv (v : Vect) : Vect := (roundDiv v.1 4, roundDiv v.2 4)

/-- The vector of a prediction block for a list: that list's, or the other's. -/
def partMv (l : Nat) (p : Part) : Option Mv := (p.mvs.find? (fun m => m.list == l)).or p.mvs.head?

/-- A vector found in a picture at display position `at_`, scaled by picture distance from its own reference to one at display position
`dst` seen from `cur`, at whole samples (R143). -/
def scaleMv (at_ cur dst : Int) (m : Mv) : List Vect :=
  if at_ = m.disp then [] else [(roundFrac (m.x * (cur - dst)) (4 * (at_ - m.disp)), roundFrac (m.y * (cur - dst)) (4 * (at_ - m.disp)))]

/-- Vectors of the spatial neighbours in the same tile: left, above, above-right, above-left, below-left. -/
def spatialMvs (e : Coder) (cus : List CuRec) (b : Block) (l : Nat) (dst : Int) : List Vect :=
  let at_ := fun (x y : Int) =>
    if blockHolds e.tile x y then
      match (partAt cus x y).bind (partMv l) with | some m => scaleMv e.disp e.disp dst m | none => []
    else []
  let x : Int := b.x
  let y : Int := b.y
  at_ (x - 1) (y + b.h - 1) ++ at_ (x + b.w - 1) (y - 1) ++ at_ (x + b.w) (y - 1) ++ at_ (x - 1) (y - 1) ++ at_ (x - 1) (y + b.h)

/-- Vectors of the co-located block, bottom-right and centre. The co-located picture is the first of the list. -/
def temporalMvs (e : Coder) (b : Block) (l : Nat) (dst : Int) : List Vect :=
  match ((e.refs[l]?).getD []).head? with
  | none => []
  | some v =>
    let at_ := fun (x y : Nat) => match (partAt v.cus x y).bind (partMv l) with | some m => scaleMv v.disp e.disp dst m | none => []
    at_ (b.x + b.w) (b.y + b.h) ++ at_ (b.x + b.w / 2) (b.y + b.h / 2)

/-- Δ: FRAME of the current picture less that of a reference, signed (R144). -/
def frameDelta (e : Coder) (v : RefView) : Int := signedOf 32 ((sfFrame e.w.surfIn + 2 ^ 32 - v.frame) % 2 ^ 32)

/-- A field vector, `num` over `den` analysis-plane samples, in quarter samples of the stream (R144). -/
def fieldMv (h v : List Byte) (delta : Int) (den : Nat) (mv : Vect) : Vect :=
  let a : Int := (fieldAt h 7 1 : Nat)
  let dist : Int := (fieldAt h 32 2 : Nat)
  (roundFrac (mv.1 * a * 4 * (fieldAt v 0 2 : Nat) * delta) ((fieldAt v 8 2 : Nat) * dist * den),
   roundFrac (mv.2 * a * 4 * (fieldAt v 2 2 : Nat) * delta) ((fieldAt v 10 2 : Nat) * dist * den))

/-- The candidate of the entry that covers a sample; none with COST 0xFFFF. -/
def entryMvs (e : Coder) (h v : List Byte) (r : RefView) (x y : Nat) : List Vect :=
  let (c, row) := fieldCover h v x y
  let b := e.entry (row * (fieldDims h).1 + c)
  if fieldAt b 4 2 = 0xFFFF then []
  else [wholeMv (fieldMv h v (frameDelta e r) 1 (signedOf 16 (fieldAt b 0 2), signedOf 16 (fieldAt b 2 2)))]

/-- The global model of a field at a source position (R138), in units of 1/131,072 sample. -/
def globalAt (h : List Byte) (sx sy : Nat) : Vect :=
  let g := fun (o : Nat) => signedOf 32 (fieldAt h o 4)
  let a := max 1 (fieldAt h 7 1)
  let x : Int := 2 * (sx / a : Nat) - (fieldAt h 24 2 : Nat)
  let y : Int := 2 * (sy / a : Nat) - (fieldAt h 26 2 : Nat)
  (2 * g 40 + g 48 * x - g 52 * y, 2 * g 44 + g 52 * x + g 48 * y)

/-- Candidates 4 and 5: the global model at the block's centre, then the entries at its centre and its corners. -/
def fieldMvs (e : Coder) (b : Block) (r : RefView) : List Vect :=
  match e.field with
  | none => []
  | some (h, v) =>
    let p := fieldSource v (b.x + b.w / 2) (b.y + b.h / 2)
    (if bitOf (fieldAt h 56 2) 0 then [wholeMv (fieldMv h v (frameDelta e r) 131072 (globalAt h p.1 p.2))] else []) ++
      entryMvs e h v r (b.x + b.w / 2) (b.y + b.h / 2) ++ entryMvs e h v r b.x b.y ++ entryMvs e h v r (b.x + b.w - 1) b.y ++
      entryMvs e h v r b.x (b.y + b.h - 1) ++ entryMvs e h v r (b.x + b.w - 1) (b.y + b.h - 1)

/-- Candidates 6 and 7: the vectors of the enclosing block and of the block coded before in the CTU. -/
def pastMvs (e : Coder) (c : Option CuRec) (l : Nat) (dst : Int) : List Vect :=
  match (c.bind (fun c => c.parts.getLast?)).bind (partMv l) with
  | some m => scaleMv e.disp e.disp dst m
  | none => []

/-- Keep the first of equals. -/
def firstOnly : List Vect → List Vect
  | [] => []
  | v :: r => v :: (firstOnly r).filter (· ≠ v)

/-- The predictor candidates of a block for a reference of a list, in order (R143). -/
def candidates (e : Coder) (cus : List CuRec) (outer before : Option CuRec) (b : Block) (l : Nat) (r : RefView) : List Vect :=
  let dst : Int := r.disp
  let m : Int := (Config.mvRange (encCodec e.w) : Nat)
  firstOnly (((0, 0) :: spatialMvs e cus b l dst ++ temporalMvs e b l dst ++ fieldMvs e b r ++ pastMvs e outer l dst ++
    pastMvs e before l dst).map (fun v => (clampI (-m) m v.1, clampI (-m) m v.2)))

/-- The two lowest of a list by a cost, the earlier winning ties. -/
def twoLowest (cost : Vect → Nat) (l : List Vect) : List (Vect × Nat) :=
  let put := fun (acc : List (Vect × Nat)) (c : Vect × Nat) => (acc.filter (fun a => a.2 ≤ c.2) ++ [c] ++ acc.filter (fun a => c.2 < a.2)).take 2
  (l.map (fun v => (v, cost v))).foldl put []

/-! Integer refinement (R146). -/

/-- The best of a centre and positions around it: a position wins only with a strictly lower cost. `n` positions may still be evaluated;
those outside the window are not. -/
def ringBest (cost : Vect → Nat) (ok : Vect → Bool) : Vect × Nat → List Vect → Nat → (Vect × Nat) × Nat
  | c, [], n => (c, n)
  | c, _ :: _, 0 => (c, 0)
  | c, v :: r, n + 1 =>
    if ok v then ringBest cost ok (if cost v < c.2 then (v, cost v) else c) r n else ringBest cost ok c r (n + 1)

/-- The four positions of a diamond. -/
def diamondAt (v : Vect) (s : Int) : List Vect := [(v.1 + s, v.2), (v.1 - s, v.2), (v.1, v.2 + s), (v.1, v.2 - s)]

/-- The eight positions of a square, in the order of R146. -/
def squareAt (v : Vect) (s : Int) : List Vect :=
  [(1, 0), (1, 1), (0, 1), (-1, 1), (-1, 0), (-1, -1), (0, -1), (1, -1)].map (fun d : Vect => (v.1 + s * d.1, v.2 + s * d.2))

/-- The diamond phase from step s; a step is halved once the centre stays best. -/
def diamond (cost : Vect → Nat) (ok : Vect → Bool) : Nat → Nat → Vect × Nat → Nat → (Vect × Nat) × Nat
  | 0, _, c, n => (c, n)
  | f + 1, s, c, n =>
    if s = 0 then (c, n)
    else
      let (b, n) := ringBest cost ok c (diamondAt c.1 s) n
      if b.1 = c.1 then diamond cost ok f (s / 2) c n else diamond cost ok f s b n

/-- The square phase, k moves at most. -/
def square (cost : Vect → Nat) (ok : Vect → Bool) : Nat → Vect × Nat → Nat → Vect × Nat
  | 0, c, _ => c
  | k + 1, c, n =>
    let (b, n) := ringBest cost ok c (squareAt c.1 1) n
    if b.1 = c.1 then c else square cost ok k b n

/-- Integer refinement of a candidate: within ±16 samples of it, 96 positions at most. -/
def refineInt (cost : Vect → Nat) (c : Vect × Nat) : Vect × Nat :=
  let ok := fun (v : Vect) => decide ((v.1 - c.1.1).natAbs ≤ 16) && decide ((v.2 - c.1.2).natAbs ≤ 16)
  let (b, n) := diamond cost ok 100 8 c 96
  square cost ok 8 b n

/-! Fractional refinement (R147). -/

/-- Half-sample, then quarter-sample refinement of a vector in quarter samples. -/
def refineFrac (cost : Vect → Nat) (v : Vect) : Vect × Nat :=
  let ok := fun (_ : Vect) => true
  let h := (ringBest cost ok (v, cost v) (squareAt v 2) 8).1
  (ringBest cost ok h (squareAt h.1 1) 8).1

/-- A CU that tries one prediction block. -/
def trialCu (b : Block) (mode : Option Nat) (mvs : List Mv) (affine : List Vect) : CuRec :=
  { blk := b, parts := [{ blk := b, mode := mode, mvs := mvs, affine := affine }], chroma := 0, amvr := 0, merge := none, lossless := false }

/-- Costs in 1/256: a measure of the prediction plus λR. -/
def searchCost (e : Coder) (b : Block) (measure bits : Nat) : Nat := 256 * measure + Config.lambda (encCodec e.w) 1 (e.qp b) * bits

/-- SATD + λR(mvd) of vectors of a block, the last of which is being tried. -/
def satdCost (e : Coder) (recon : List Rows) (cus : List CuRec) (b : Block) (others : List Mv) (m : Mv) : Nat :=
  let p := Config.predict (encCodec e.w) 0 (trialCu b none (others ++ [m]) []) recon e.planes
  searchCost e b (satdOf (cutBlock ((e.src.head?).getD []) b) p) (Config.mvdBits (encCodec e.w) b cus m)

/-- The vector of a block for reference i of a list, refined from the two best candidates, with its cost; `others` are vectors of the block
that stay fixed (R143, R146, R147). -/
def searchRef (e : Coder) (recon : List Rows) (cus : List CuRec) (starts : RefView → List Vect) (b : Block) (l i : Nat) (r : RefView)
    (others : List Mv) : Mv × Nat :=
  let mk := fun (v : Vect) => ({ list := l, ref := i, disp := r.disp, x := v.1, y := v.2 } : Mv)
  let src := cutBlock ((e.src.head?).getD []) b
  let plane := (r.planes.head?).getD []
  let sad := fun (v : Vect) =>
    if others = [] then
      searchCost e b (sadOf src (genRows b.w b.h (fun x y => (padAt plane ((b.x + x : Nat) + v.1) ((b.y + y : Nat) + v.2)).toNat)))
        (Config.mvdBits (encCodec e.w) b cus (mk (4 * v.1, 4 * v.2)))
    else satdCost e recon cus b others (mk (4 * v.1, 4 * v.2))
  let frac := fun (v : Vect) => satdCost e recon cus b others (mk v)
  let done := (twoLowest sad (starts r)).map (fun c =>
    let q := (refineInt sad c).1
    let v : Vect := (4 * q.1, 4 * q.2)
    if toolOff e.w 6 then (v, frac v) else refineFrac frac v)
  match done with
  | [] => (mk (0, 0), frac (0, 0))
  | c :: rest => let best := rest.foldl (fun a b => if b.2 < a.2 then b else a) c; (mk best.1, best.2)

/-- The best vector of a block in one list. -/
def searchList (e : Coder) (recon : List Rows) (cus : List CuRec) (outer before : Option CuRec) (b : Block) (l : Nat) : Option (Mv × Nat) :=
  let rs := (e.refs[l]?).getD []
  let all := ((upto 0 rs.length).zip rs).map (fun e' =>
    searchRef e recon cus (candidates e cus outer before b l) b l e'.1 e'.2 [])
  match all with
  | [] => none
  | c :: rest => some (rest.foldl (fun a b => if b.2 < a.2 then b else a) c)

/-- The vectors of a prediction block: of one list, or of both after a joint pass over list 1 (R148, end). -/
def searchPart (e : Coder) (recon : List Rows) (cus : List CuRec) (outer before : Option CuRec) (b : Block) : Part :=
  let part := fun (l : List Mv) => ({ blk := b, mode := none, mvs := l, affine := [] } : Part)
  match searchList e recon cus outer before b 0, if 3 ≤ e.type then searchList e recon cus outer before b 1 else none with
  | none, none => part []
  | some a, none => part [a.1]
  | none, some c => part [c.1]
  | some a, some c =>
    let joint := match ((e.refs[1]?).getD [])[c.1.ref]? with
      | some r => searchRef e recon cus (fun _ => [wholeMv (c.1.x, c.1.y)]) b 1 c.1.ref r [a.1]
      | none => c
    if joint.2 < a.2 ∧ joint.2 < c.2 then part [a.1, joint.1] else if c.2 < a.2 then part [c.1] else part [a.1]

/-- A vector at a precision of 2^k quarter samples. -/
def atPrecision (k : Nat) (m : Mv) : Mv := { m with x := roundDiv m.x (2 ^ k) * 2 ^ k, y := roundDiv m.y (2 ^ k) * 2 ^ k }

/-- AMVR (R147): quarter, integer or four-sample precision, whichever costs least. -/
def chooseAmvr (e : Coder) (recon : List Rows) (cus : List CuRec) (p : Part) : Part × Nat :=
  if encCodec e.w ≠ 1 ∨ p.mvs = [] ∨ toolOff e.w 6 then (p, 0)
  else
    let cost := fun (k : Nat) => let l := p.mvs.map (atPrecision k); satdCost e recon cus p.blk l.dropLast ((l.getLast?).getD { list := 0, ref := 0, disp := 0, x := 0, y := 0 })
    let k := [2, 4].foldl (fun a b => if cost b < cost a then b else a) 0
    ({ p with mvs := p.mvs.map (atPrecision k) }, k)

/-- SATD + λR of a CU under affine motion. -/
def affineCost (e : Coder) (recon : List Rows) (cus : List CuRec) (b : Block) (mvs : List Mv) (cp : List Vect) : Nat :=
  let p := Config.predict (encCodec e.w) 0 (trialCu b none mvs cp) recon e.planes
  searchCost e b (satdOf (cutBlock ((e.src.head?).getD []) b) p)
    ((cp.map (fun v => Config.mvdBits (encCodec e.w) b cus { list := 0, ref := 0, disp := 0, x := v.1, y := v.2 })).foldl (· + ·) 0)

/-- Up to k gradient steps, each kept while it lowers the cost. -/
def affineDescend (e : Coder) (recon : List Rows) (cus : List CuRec) (b : Block) (mvs : List Mv) : Nat → List Vect → List Vect
  | 0, cp => cp
  | k + 1, cp =>
    let next := Config.affineStep (trialCu b none mvs cp) recon e.planes
    if affineCost e recon cus b mvs next < affineCost e recon cus b mvs cp then affineDescend e recon cus b mvs k next else cp

/-- Affine motion of a CU of VVC, when it beats the translational result (R148). -/
def tryAffine (e : Coder) (recon : List Rows) (cus : List CuRec) (p : Part) : Part :=
  if encCodec e.w ≠ 1 ∨ toolOff e.w 5 ∨ e.type < 2 ∨ p.blk.w < 16 ∨ p.blk.h < 16 ∨ p.mvs = [] then p
  else
    let m := (p.mvs.head?).map (fun m => ((4 * m.x, 4 * m.y) : Vect)) |>.getD (0, 0)
    let starts := (Config.affineMerge p.blk cus ++ [[m, m]]).map (fun s => (s ++ [m, m, m]).take 3)
    let tried := starts.flatMap (fun s => [affineDescend e recon cus p.blk p.mvs 4 (s.take 2), affineDescend e recon cus p.blk p.mvs 4 s])
    let flat := satdCost e recon cus p.blk p.mvs.dropLast ((p.mvs.getLast?).getD { list := 0, ref := 0, disp := 0, x := 0, y := 0 })
    let best := tried.foldl (fun (a : List Vect × Nat) cp =>
      let k := affineCost e recon cus p.blk p.mvs cp
      if k < a.2 then (cp, k) else a) ([], flat)
    { p with affine := best.1 }

end Sys2Proof.Machine
end

