-- ==== Sys2Proof/Machine/Decide.lean ====
section
/-! DEFINITION. What an encoder generates and how a CTU is decided (R95, R100–R102, R105, R163, R167–R169): the tools of a stream, intra modes in
two stages, inter shapes, block sizes bottom-up, the error check and the lossless recode of each CU. -/

namespace Sys2Proof.Machine

/-! Tools (R95). -/

/-- The Generated column of R95. -/
def generated (codec : Nat) : List Tool :=
  if codec = 0 then
    [.quadtree, .amp, .intra35, .dct32, .dst4, .transformSkip, .rdoq, .signHiding, .scalingLists, .deblocking, .sao, .transquantBypass, .rdpcm,
     .extendedPrecision, .persistentRice, .bypassAlignment, .crossComponent, .merge, .tmvp, .longTerm, .tiles, .wpp, .dependentSlices]
  else if codec = 1 then
    [.qtMtt, .intra67, .cclm, .mts, .lfnst, .dependentQuant, .transformSkip, .bdpcm, .scalingLists, .deblocking, .sao, .alf, .ccAlf, .merge,
     .mmvd, .amvr, .affine, .tmvp, .bdof, .dmvr, .tiles, .wpp]
  else if codec = 2 then
    [.tenPartitions, .intra13, .cfl, .tx16, .quantMatrices, .segmentation, .deblocking, .cdef, .loopRestoration, .compound, .globalMotion,
     .tiles]
  else [.cabac, .intraAvc, .interPartitions, .transform8, .scalingLists, .deblocking, .severalSlices]

/-- The bit of TOOL_OFF that disables a tool (R113). -/
def toolBit : Tool → Option Nat
  | .rdoq => some 0
  | .transformSkip => some 1
  | .mts | .lfnst => some 2
  | .sao | .alf | .ccAlf | .cdef | .loopRestoration => some 3
  | .deblocking => some 4
  | .affine => some 5
  | _ => none

/-- An in-loop filter. -/
def isFilter (t : Tool) : Bool := [Tool.deblocking, .sao, .alf, .ccAlf, .cdef, .loopRestoration].contains t

/-- The tools a work order's stream uses: those generated for its codec, profile and type, less those TOOL_OFF disables; in lossless and
bounded-error modes no in-loop filter, and VVC's transform skip, which makes a CU lossless, always (R95, R103, R105, R113). -/
def encTools (w : WorkOrder) : List Tool :=
  let p := woField w 65 1
  (generated (encCodec w)).filter (fun t =>
    let exact := decide (4 ≤ encMode w)
    (match toolBit t with | some i => !toolOff w i || (exact && t == .transformSkip && encCodec w == 1) | none => true) &&
      (t != .extendedPrecision || decide (5 ≤ p)) && (t != .bypassAlignment || p == 7) &&
      (t != .crossComponent || codedChroma (sfFormat w.surfIn) == some 3) && (t != .wpp || isEncr w) && (t != .dependentSlices || isEncr w) &&
      !(exact && isFilter t))

/-- How a CU is quantised (R102). -/
def codeSet (e : Coder) (b : Block) (inter exact : Bool) : CodeSet :=
  let w := e.w
  let on := !toolOff w 0
  { codec := encCodec w, tools := encTools w, depth := encDepth w, qp := e.qp b
    rdoq := on && encCodec w != 1, dependent := on && encCodec w == 1, signHiding := on && !exact && decide (encCodec w ≤ 1)
    deadZone := if on then none else some (if inter then 6 else 3), scaling := woExtraOf w 152 }

/-! Deciding. -/

/-- How far a CTU is decided: the reconstruction, the CUs coded so far, the entropy coder's state, the CUs decided and their summed cost. -/
structure Deciding where
  recon : List Rows
  cus : List CuRec
  entropy : Nat
  out : List CuOut
  cost : Nat

/-- CUs are costed by their bits alone (R101). -/
def rateOnly (w : WorkOrder) : Bool := decide (4 ≤ encMode w)

/-- The rectangle of a block in plane k. -/
def planeBlock (w : WorkOrder) (k : Nat) (b : Block) : Block :=
  let (pw, ph) := codedPlane w k
  let dx := max 1 ((codedSize w).1 / max 1 pw)
  let dy := max 1 ((codedSize w).2 / max 1 ph)
  { x := b.x / dx, y := b.y / dy, w := min (b.w / dx) (pw - b.x / dx), h := min (b.h / dy) (ph - b.y / dy) }

/-- The source of a block, plane by plane. -/
def sourceOfBlock (e : Coder) (b : Block) : List Rows :=
  ((upto 0 e.src.length).zip e.src).map (fun p => cutBlock p.2 (planeBlock e.w p.1 b))

/-- Samples made to fit a block of a plane at a depth. -/
def fitRows (dep : Nat) (b : Block) (r : Rows) : Rows := genRows b.w b.h (fun i j => px r i j % 2 ^ dep)

/-- A CU has vectors. -/
def cuInter (c : CuRec) : Bool := c.parts.any (fun p => !p.mvs.isEmpty)

/-- A CU coded in full. -/
def codeFull (e : Coder) (s : Deciding) (c : CuRec) : CodeOut :=
  Config.codeCu (codeSet e c.blk (cuInter c) c.lossless) s.entropy c s.recon e.planes (sourceOfBlock e c.blk)

/-- Cost of a CU coded in full, in 1/256: D + λR, or R alone (R101). -/
def fullCost (e : Coder) (s : Deciding) (c : CuRec) : Nat :=
  let o := codeFull e s c
  if rateOnly e.w then o.bits
  else 256 * Config.distortion o.recon (sourceOfBlock e c.blk) + Config.lambda (encCodec e.w) 0 (e.qp c.blk) * o.bits

/-- The first of a list with the lowest cost. -/
def cheapest {α : Type} (cost : α → Nat) : List α → Option α
  | [] => none
  | a :: r => some (r.foldl (fun b c => if cost c < cost b then c else b) a)

/-! Intra modes (R101). AV1 modes are numbered 7 × base mode + angle delta + 3. -/

/-- The coarse set. -/
def coarseModes (codec size : Nat) : List Nat :=
  if codec = 0 then [0, 1] ++ (upto 0 9).map (fun i => 2 + 4 * i)
  else if codec = 1 then [0, 1] ++ (upto 0 17).map (fun i => 2 + 4 * i)
  else if codec = 2 then (upto 0 13).map (fun i => 7 * i + 3)
  else upto 0 (if size = 16 then 4 else 9)

/-- An angular or directional mode. -/
def isAngular (codec m : Nat) : Bool :=
  if codec ≤ 1 then decide (2 ≤ m) else if codec = 2 then decide (1 ≤ m / 7) && decide (m / 7 ≤ 8) else false

/-- The largest mode number. -/
def lastMode (codec : Nat) : Nat := if codec = 0 then 34 else if codec = 1 then 66 else 90

/-- SATD of the prediction error of an intra mode. -/
def roughCost (e : Coder) (s : Deciding) (b : Block) (m : Nat) : Nat :=
  satdOf (cutBlock ((e.src.head?).getD []) b) (Config.predict (encCodec e.w) 0 (trialCu b (some m) [] []) s.recon e.planes)

/-- The modes a good angular mode is refined by: ±2, then ±1 of the best of those; in AV1 its angle deltas. -/
def refineMode (codec : Nat) (cost : Nat → Nat) (m : Nat) : List Nat :=
  if codec = 2 then (upto 0 7).map (fun i => m / 7 * 7 + i)
  else
    let near := fun (c k : Nat) => [c - k, c + k].filter (fun v => decide (2 ≤ v) && decide (v ≤ lastMode codec))
    let two := near m 2
    let best := two.foldl (fun a c => if cost c < cost a then c else a) m
    two ++ near best 1

/-- Insert by cost, after equals. -/
def putByCost (cost : Nat → Nat) (l : List Nat) (m : Nat) : List Nat :=
  if l.contains m then l else l.filter (fun a => cost a ≤ cost m) ++ [m] ++ l.filter (fun a => cost m < cost a)

/-- The modes of the rough stage, best first. -/
def roughModes (e : Coder) (s : Deciding) (b : Block) : List Nat :=
  let codec := encCodec e.w
  let cost := roughCost e s b
  let l := (coarseModes codec b.w).foldl (putByCost cost) []
  (((l.filter (isAngular codec)).take 2).flatMap (refineMode codec cost)).foldl (putByCost cost) l

/-- The modes coded in full: the best three and the most probable. -/
def fullModes (e : Coder) (s : Deciding) (b : Block) : List Nat :=
  (Config.mostProbable (encCodec e.w) b s.cus).foldl (fun l m => if l.contains m then l else l ++ [m]) ((roughModes e s b).take 3)

/-- Chroma modes: 0 the derived mode, 1 to 3 CCLM or 1 CfL, from 4 on the codec's other chroma modes. -/
def chromaModes (codec : Nat) : List Nat :=
  if codec = 0 then [0, 4, 5, 6, 7] else if codec = 1 then [0, 1, 2, 3, 4, 5, 6, 7] else if codec = 2 then 0 :: 1 :: upto 4 13 else upto 4 4

/-- The chroma mode of a CU, by SATD. -/
def chooseChroma (e : Coder) (s : Deciding) (c : CuRec) : CuRec :=
  if e.src.length < 3 then c
  else
    let cost := fun (m : Nat) => ([1, 2].map (fun k =>
      satdOf (cutBlock ((e.src[k]?).getD []) (planeBlock e.w k c.blk)) (Config.predict (encCodec e.w) k { c with chroma := m } s.recon e.planes))).foldl (· + ·) 0
    { c with chroma := (cheapest cost (chromaModes (encCodec e.w))).getD 0 }

/-- Blocks of an n × m grid over a block. -/
def gridOf (b : Block) (n m : Nat) : List Block :=
  (upto 0 m).flatMap (fun j => (upto 0 n).map (fun i => { x := b.x + i * (b.w / n), y := b.y + j * (b.h / m), w := b.w / n, h := b.h / m }))

/-- Intra shapes of a CU (R100): whole; N × N at 8 × 8 of HEVC; the 16, 4 and 1 blocks of an AVC macroblock. -/
def intraShapes (codec : Nat) (b : Block) : List (List Block) :=
  if codec = 0 ∧ b.w = 8 then [[b], gridOf b 2 2]
  else if codec = 3 then [[b], gridOf b 2 2, gridOf b 4 4] else [[b]]

/-- Two parts of a block, split at a quarter count of its width or height. -/
def twoParts (b : Block) (wide : Bool) (q : Nat) : List Block :=
  if wide then [{ b with w := b.w * q / 4 }, { b with x := b.x + b.w * q / 4, w := b.w - b.w * q / 4 }]
  else [{ b with h := b.h * q / 4 }, { b with y := b.y + b.h * q / 4, h := b.h - b.h * q / 4 }]

/-- Inter shapes of a CU (R100): AMP from 16 × 16 on; AVC's macroblock partitions. -/
def interShapes (codec : Nat) (b : Block) : List (List Block) :=
  if codec = 0 then
    [[b], twoParts b false 2, twoParts b true 2] ++
      (if 16 ≤ b.w then [twoParts b false 1, twoParts b false 3, twoParts b true 1, twoParts b true 3] else [])
  else if codec = 3 then [[b], twoParts b false 2, twoParts b true 2, gridOf b 2 2] else [[b]]

/-- The cheapest intra form of a CU with given parts, decided part by part. -/
def intraCu (e : Coder) (s : Deciding) (exact : Bool) (b : Block) (shape : List Block) : CuRec :=
  let start : CuRec := { blk := b, parts := [], chroma := 0, amvr := 0, merge := none, lossless := exact }
  let full := shape.foldl (fun (c : CuRec) p =>
    let withMode := fun (m : Nat) => { c with parts := c.parts ++ [{ blk := p, mode := some m, mvs := [], affine := [] }] }
    ((cheapest (fun c => fullCost e s c) ((fullModes e s p).map withMode)).getD (withMode 0))) start
  chooseChroma e s full

/-- The inter form of a CU with given parts. -/
def interCu (e : Coder) (s : Deciding) (outer : Option CuRec) (exact : Bool) (b : Block) (shape : List Block) : CuRec :=
  let before := (s.out.getLast?).map (·.cu)
  let parts := shape.map (searchPart e s.recon s.cus outer before)
  match parts with
  | [p] =>
    let (p, k) := chooseAmvr e s.recon s.cus p
    { blk := b, parts := [tryAffine e s.recon s.cus p], chroma := 0, amvr := k, merge := none, lossless := exact }
  | _ => { blk := b, parts := parts, chroma := 0, amvr := 0, merge := none, lossless := exact }

/-- The merge forms of a CU. -/
def mergeCus (e : Coder) (s : Deciding) (exact : Bool) (b : Block) : List CuRec :=
  let l := Config.mergeList (encCodec e.w) b s.cus
  ((upto 0 l.length).zip l).map (fun m =>
    { blk := b, parts := [{ blk := b, mode := none, mvs := m.2, affine := [] }], chroma := 0, amvr := 0, merge := some m.1, lossless := exact })

/-- decide(cu) of R169. -/
def decideCu (e : Coder) (s : Deciding) (outer : Option CuRec) (exact : Bool) (b : Block) : CuRec :=
  let intra := (intraShapes (encCodec e.w) b).map (intraCu e s exact b)
  let inter := if 2 ≤ e.type then (interShapes (encCodec e.w) b).map (interCu e s outer exact b) ++ mergeCus e s exact b else []
  (cheapest (fun c => fullCost e s c) (intra ++ inter)).getD
    { blk := b, parts := [], chroma := 0, amvr := 0, merge := none, lossless := exact }

/-! The error of a CU (R167–R169). -/

/-- Largest difference of a reconstruction from the source over the samples of a block that lie inside the source picture (R167). -/
def blockError (e : Coder) (b : Block) (recon : List Rows) : Nat :=
  ((upto 0 e.src.length).flatMap (fun k =>
    let src := (e.src[k]?).getD []
    let p := planeBlock e.w k b
    (upto 0 (min p.h (src.length - p.y))).flatMap (fun j => (upto 0 (min p.w ((src.headD []).length - p.x))).map (fun i =>
      let a := px ((recon[k]?).getD []) i j
      let c := px src (p.x + i) (p.y + j)
      (a - c) + (c - a))))).foldl max 0

/-- The reconstruction of a CU coded in full, made to fit its planes; a lossless CU's is its source (R105). -/
def cuRecon (e : Coder) (s : Deciding) (c : CuRec) : List Rows :=
  if c.lossless then sourceOfBlock e c.blk
  else
    let r := (codeFull e s c).recon
    (upto 0 e.src.length).map (fun k => fitRows (encDepth e.w) (planeBlock e.w k c.blk) ((r[k]?).getD []))

/-- Luma SAD of the final prediction of an inter CU (R141). -/
def cuSad (e : Coder) (s : Deciding) (c : CuRec) : Option Nat :=
  if (cuInter c) then some (sadOf (cutBlock ((e.src.head?).getD []) c.blk) (Config.predict (encCodec e.w) 0 c s.recon e.planes)) else none

/-- Sum of the 8 × 8 SATDs of a block's best rough mode (R141). -/
def roughBest (e : Coder) (s : Deciding) (b : Block) : Nat :=
  match roughModes e s b with | m :: _ => roughCost e s b m | [] => 0

/-- A CU coded as decided, its bits and bytes with it. -/
def cuOut (e : Coder) (s : Deciding) (c : CuRec) (recoded : Bool) : CuOut :=
  let o := codeFull e s c
  let r := cuRecon e s c
  { cu := c, bits := o.bits, err := blockError e c.blk r, recoded := recoded, skip := o.skip && (cuInter c), sad := cuSad e s c
    cost := roughBest e s c.blk, qp := e.qp c.blk, entropy := o.entropy, bytes := o.bytes, recon := r }

/-- The loop of R169 for one CU: decided, coded, checked against its bound, and recoded losslessly when it misses it. A CU whose bound is 0, and
every CU of mode 4, is lossless from the start (R168). -/
def loopCu (e : Coder) (s : Deciding) (outer : Option CuRec) (b : Block) : CuOut :=
  if encMode e.w = 4 ∨ (encMode e.w = 5 ∧ e.bound b = 0) then cuOut e s (decideCu e s outer true b) false
  else
    let c := decideCu e s outer false b
    let o := cuOut e s c false
    if encMode e.w = 5 ∧ e.bound b < o.err then cuOut e s { c with lossless := true } true else o

/-- Replace a rectangle of a plane by rows of samples. -/
def putBlock (plane : Rows) (x y : Nat) (block : Rows) : Rows :=
  ((upto 0 plane.length).zip plane).map (fun e =>
    if y ≤ e.1 ∧ e.1 < y + block.length then
      let b := (block[e.1 - y]?).getD []
      e.2.take x ++ b.take (e.2.length - x) ++ e.2.drop (x + b.length)
    else e.2)

/-- A CU's reconstruction in place in the picture's. -/
def putCu (w : WorkOrder) (planes : List Rows) (o : CuOut) : List Rows :=
  ((upto 0 planes.length).zip planes).map (fun p =>
    let b := planeBlock w p.1 o.cu.blk
    putBlock p.2 b.x b.y ((o.recon[p.1]?).getD []))

/-- A CTU with one more CU decided. -/
def leafCu (e : Coder) (outer : Option CuRec) (b : Block) (s : Deciding) : Deciding :=
  let o := loopCu e s outer b
  { recon := putCu e.w s.recon o, cus := s.cus ++ [o.cu], entropy := o.entropy, out := s.out ++ [o], cost := s.cost + fullCost e s o.cu }

/-! Block sizes (R100, R101). -/

/-- Parts of a block at fractions of its width or height, in sixteenths of it. -/
def cutAt (b : Block) (wide : Bool) (cuts : List (Nat × Nat)) : List Block :=
  cuts.map (fun c => if wide then { b with x := b.x + b.w * c.1 / 16, w := b.w * c.2 / 16 } else { b with y := b.y + b.h * c.1 / 16, h := b.h * c.2 / 16 })

/-- Ways to split a block, each with the MTT depth of its parts (R100). -/
def splitsOf (codec : Nat) (b : Block) (mtt : Nat) : List (List Block × Nat) :=
  let two := [(0, 8), (8, 8)]
  let three := [(0, 4), (4, 8), (12, 4)]
  let four := [(0, 4), (4, 4), (8, 4), (12, 4)]
  if codec = 0 then (if 16 ≤ b.w then [(gridOf b 2 2, 0)] else [])
  else if codec = 1 then
    (if b.w = b.h ∧ 32 ≤ b.w ∧ mtt = 0 then [(gridOf b 2 2, 0)] else []) ++
      (if mtt < 2 ∧ b.w ≤ 64 ∧ b.h ≤ 64 then
        (if 16 ≤ b.h then [(cutAt b false two, mtt + 1)] else []) ++ (if 16 ≤ b.w then [(cutAt b true two, mtt + 1)] else []) ++
          (if 32 ≤ b.h then [(cutAt b false three, mtt + 1)] else []) ++ (if 32 ≤ b.w then [(cutAt b true three, mtt + 1)] else [])
       else [])
  else if codec = 2 then
    (if b.w = b.h ∧ 16 ≤ b.w ∧ mtt = 0 then
      let q := gridOf b 2 2
      let h := cutAt b false two
      let v := cutAt b true two
      [(q, 0), (h, 1), (v, 1), (q.take 2 ++ h.drop 1, 1), (h.take 1 ++ q.drop 2, 1),
       ([q[0]?, q[2]?].filterMap id ++ v.drop 1, 1), (v.take 1 ++ [q[1]?, q[3]?].filterMap id, 1)] ++
        (if 32 ≤ b.w ∧ b.w ≤ 64 then [(cutAt b false four, 1), (cutAt b true four, 1)] else [])
     else [])
  else []

/-- A block reaches past the coded picture. -/
def crosses (w : WorkOrder) (b : Block) : Bool := decide ((codedSize w).1 < b.x + b.w) || decide ((codedSize w).2 < b.y + b.h)

/-- A block lies outside the coded picture. -/
def outside (w : WorkOrder) (b : Block) : Bool := decide ((codedSize w).1 ≤ b.x) || decide ((codedSize w).2 ≤ b.y)

/-- A block decided bottom-up: coded whole, or split in the way that costs least (R101). A block that reaches past the picture is split, down to
the smallest block. `fuel` bounds the depth. -/
def decideBlock (e : Coder) : Nat → Nat → Option CuRec → Block → Deciding → Deciding
  | 0, _, outer, b, s => leafCu e outer b s
  | fuel + 1, mtt, outer, b, s =>
    if outside e.w b then s
    else
      let whole := leafCu e outer b s
      let here := (whole.out.getLast?).map (·.cu)
      let split := (splitsOf (encCodec e.w) b mtt).map (fun p =>
        p.1.foldl (fun s part => decideBlock e fuel p.2 here part s) s)
      let all := if crosses e.w b && !split.isEmpty then split else whole :: split
      (cheapest (fun (x : Deciding) => x.cost) all).getD whole

/-- A CTU in minimal form (R163): one skip CU of merge candidate 0, or one DC intra CU, without residual. -/
def minimalCtu (e : Coder) (s : Deciding) : Deciding :=
  let codec := encCodec e.w
  let b := { e.ctu with w := min e.ctu.w ((codedSize e.w).1 - e.ctu.x), h := min e.ctu.h ((codedSize e.w).2 - e.ctu.y) }
  let inter := decide (2 ≤ e.type)
  let part : Part :=
    if inter then { blk := b, mode := none, mvs := (Config.mergeList codec b s.cus).headD [], affine := [] }
    else { blk := b, mode := some (if codec ≤ 1 then 1 else if codec = 2 then 3 else 2), mvs := [], affine := [] }
  let c : CuRec := { blk := b, parts := [part], chroma := 0, amvr := 0, merge := if inter then some 0 else none, lossless := false }
  let r := (upto 0 e.src.length).map (fun k =>
    fitRows (encDepth e.w) (planeBlock e.w k b) (Config.predict codec k c s.recon e.planes))
  let o := codeFull e s c
  let cu : CuOut :=
    { cu := c, bits := min o.bits (ctuReserve e.w), err := 0, recoded := false, skip := inter, sad := cuSad e s c, cost := roughBest e s b
      qp := e.qp b, entropy := o.entropy, bytes := o.bytes, recon := r }
  { recon := putCu e.w s.recon cu, cus := s.cus ++ [c], entropy := o.entropy, out := [cu], cost := 0 }

/-- Every CU of a CTU. -/
def decideCtu (e : Coder) (s : Deciding) : Deciding := decideBlock e 8 0 none e.ctu { s with out := [], cost := 0 }

end Sys2Proof.Machine
end

