-- ==== Sys2Proof/Machine/Micro.lean ====
section
/-! DEFINITION. The microcode sequencer of a coding engine (R202–R208): its control stores, its micro-address, condition sources, and issuing words up
to an engine instruction boundary. -/

namespace Sys2Proof.Machine

/-! Control stores (R202, R211, R216). -/

/-- The patch engine u runs. -/
def storeAt (d : Device) (u : Nat) : Retained := tget Retained.reset u d.codec.store

/-- The micro-word of engine u at an address: the patch's, or the base image's. -/
def microWord (d : Device) (u a : Nat) : Nat := ((storeAt d u).micro.find? (fun e => e.1 == a)).elim (Config.microBase a % 2 ^ 24) (·.2)

/-- The nano-word of engine u at an address. -/
def nanoWord (d : Device) (u a : Nat) : Nat := ((storeAt d u).nano.find? (fun e => e.1 == a)).elim (Config.nanoBase a % 2 ^ 192) (·.2)

/-! What an engine keeps of a work order (R177, R207–R209). -/

/-- The place of a work order's sequencer state on an engine. -/
def microKey (u t : Nat) : Nat := u * 2 ^ 32 + t % 2 ^ 32

/-- Sequencer state of a work order on engine u. -/
def microOf (d : Device) (u t : Nat) : EngProg := tget EngProg.reset (microKey u t) d.codec.progs

/-- Change it. -/
def setMicroOf (d : Device) (u t : Nat) (p : EngProg) : Device :=
  { d with codec := { d.codec with progs := tset EngProg.reset (microKey u t) p d.codec.progs } }

/-- Micro-address of engine u: the idle point 0 without current work (R202, R207). -/
def microAt (d : Device) (u : Nat) : Nat := match (engineAt d u).cur with | some t => (microOf d u t).addr | none => 0

/-- CE_PROGRESS of an engine: the long instruction running on it, or suspended (R209). -/
def progAt (d : Device) (u : Nat) : EngProg :=
  let e := engineAt d u
  (((e.cur.toList ++ e.susp).map (microOf d u)).find? (fun p => p.routine != 0)).getD EngProg.reset

/-! Sequencing (R203–R206). -/

/-- What a micro-word does after its cycle (R203). -/
inductive MicroSeq where
  /-- Continue at the next address. -/
  | next
  /-- Branch. -/
  | br
  /-- Engine instruction boundary, then branch. -/
  | bnd
  /-- Progress point, then branch. -/
  | prog
  deriving DecidableEq, Repr

/-- SEQ of a micro-word. -/
def microSeq (m : Nat) : MicroSeq := match bitsOf m 13 12 with | 0 => .next | 1 => .br | 2 => .bnd | _ => .prog

/-- Values of the condition sources in one cycle (R205). -/
structure CondSources where
  stepDone : Bool
  split : Bool
  inter : Bool
  errAbove : Bool
  budgetFails : Bool
  outFull : Bool
  cuEnds : Bool
  rowEnds : Bool
  tileEnds : Bool
  levelsZero : Bool
  lossless : Bool
  syntaxError : Bool
  refMissing : Bool
  loopZero : Bool
  sampled : Bool
  deriving DecidableEq, Repr

/-- The source of a code; source 0 is constant 0 (R205). -/
def condSource (c : CondSources) (code : Nat) : Bool :=
  match code with
  | 1 => c.stepDone
  | 2 => c.split
  | 3 => c.inter
  | 4 => c.errAbove
  | 5 => c.budgetFails
  | 6 => c.outFull
  | 7 => c.cuEnds
  | 8 => c.rowEnds
  | 9 => c.tileEnds
  | 10 => c.levelsZero
  | 11 => c.lossless
  | 12 => c.syntaxError
  | 13 => c.refMissing
  | 14 => c.loopZero
  | 15 => c.sampled
  | _ => false

/-- Sources in cycle k of a command: their values inside an engine instruction are not given, so open. -/
def openSources (d : Device) (k : Nat) : CondSources :=
  let b := fun (i : Nat) => free d (2 ^ 44 + 16 * k + i) % 2 == 1
  { stepDone := b 1, split := b 2, inter := b 3, errAbove := b 4, budgetFails := b 5, outFull := b 6, cuEnds := b 7, rowEnds := b 8, tileEnds := b 9
    levelsZero := b 10, lossless := b 11, syntaxError := b 12, refMissing := b 13, loopZero := b 14, sampled := b 15 }

/-- The next micro-address from address a (R203–R205). -/
def microNext (d : Device) (u a : Nat) (s : CondSources) : Nat :=
  let m := microWord d u a
  match microSeq m with
  | .next => (a + 1) % 4096
  | .br | .bnd | .prog =>
    let n := nanoWord d u (bitsOf m 23 14)
    let c := fun (i : Nat) => ofFlag (condSource s (bitsOf n (179 + 4 * i) (176 + 4 * i)))
    bitsOf m 11 0 ||| (c 0 + 2 * c 1 + 4 * c 2 + 8 * c 3)

/-- Issue words of engine u, a cycle each, until one of a kind stands at the micro-address, at most n. -/
def microRun (d : Device) (u : Nat) (kind : MicroSeq) : Nat → Nat → Nat
  | 0, a => a
  | n + 1, a => if microSeq (microWord d u a) = kind then a else microRun d u kind n (microNext d u a (openSources d n))

/-- Engine u runs its current work to the end of an engine instruction: up to a word of a kind, which it issues with the sources of that cycle. No
instruction passes 4,096 cycles without such a word (R208). -/
def microTo (d : Device) (u : Nat) (kind : MicroSeq) (s : CondSources) : Device :=
  match (engineAt d u).cur with
  | none => d
  | some t =>
    let p := microOf d u t
    let a := microRun d u kind 4096 p.addr
    setMicroOf d u t { p with addr := microNext d u a s }

end Sys2Proof.Machine
end

