-- ==== Sys2Proof/Machine/EncRun.lean ====
section
/-! DEFINITION. Coding a picture (R96–R126, R145–R175): picture start, CUs, rows of an ENCR, output in buffers and rings, the end of
coding, verification, and the end of the work order. -/

namespace Sys2Proof.Machine

/-! Pictures under way. -/

/-- The run of a ticket. -/
def encRunAt (d : Device) (t : Nat) : Option EncRun := d.codec.runs.find? (fun r => r.ticket == t)

/-- Change the run of a ticket. -/
def modEncRun (d : Device) (t : Nat) (f : EncRun → EncRun) : Device :=
  { d with codec := { d.codec with runs := d.codec.runs.map (fun r => if r.ticket = t then f r else r) } }

/-- Take the run of a ticket away. -/
def dropRun (d : Device) (t : Nat) : Device := { d with codec := { d.codec with runs := d.codec.runs.filter (fun r => r.ticket ≠ t) } }

/-- A tile of a run. -/
def runTile (r : EncRun) (t : Nat) : TileRun := tget TileRun.reset t r.tiles

/-- The budget of a tile: its own, or the picture's of an ENCR (R165). -/
def runBudget (w : WorkOrder) (r : EncRun) (t : Nat) : Budget := tget Budget.reset (if isEncr w then 0 else t) r.budgets

/-- A tile is coded in full. -/
def tileDone (w : WorkOrder) (r : EncRun) (t : Nat) : Bool := decide (tileCtus w t ≤ (runTile r t).ctu)

/-- The requester of the analysis unit of the truss that holds FIRST (R142). -/
def statReq (w : WorkOrder) : Nat := engineReq (135 + trussOf w.unit)

/-- Add one to a truss counter that wraps at m. -/
def bump (m k : Nat) (t : Table Nat) : Table Nat := tset 0 k ((tget 0 k t + 1) % m) t

/-! Samples. -/

/-- A source sample at coded depth (R93). -/
def codedSample (f dep v : Nat) : Nat := if dep < f then min ((v + 2 ^ (f - dep - 1)) / 2 ^ (f - dep)) (2 ^ dep - 1) else v

/-- The planes of the source picture at coded depth, packed under R110. -/
def codedPlanes (d : Device) (w : WorkOrder) : List Rows :=
  let s := w.surfIn
  let f := fmtDepth (sfFormat s)
  (upto 0 (sfPlanes s).length).map (fun k =>
    let rows := surfRows d s k
    let rows := if woField w 70 1 = 1 then cfaSplit (sfCfa s) (sfWidth s) (sfHeight s) rows else rows
    rows.map (fun r => r.map (codedSample f (encDepth w))))

/-- Planes of the coded picture with nothing in them yet. -/
def blankRecon (w : WorkOrder) (n : Nat) : List Rows :=
  (upto 0 n).map (fun k => genRows (codedPlane w k).1 (codedPlane w k).2 (fun _ _ => 0))

/-- The samples of tile t as a block. -/
def tileBlock (w : WorkOrder) (t : Nat) : Block :=
  let r := tileRect w t
  let n := 2 ^ encCtuLog w
  { x := r.1.1 * n, y := r.2.1 * n, w := (tileSize w t).1, h := (tileSize w t).2 }

/-- Edges between neighbouring tiles, as the tile before and the tile below or to the right, whose engine filters them (R108). -/
def tileEdges (w : WorkOrder) : List (Nat × Nat) :=
  let (c, r) := tileGrid w
  (upto 0 (c * r)).flatMap (fun t => (if t % max 1 c = 0 then [] else [(t - 1, t)]) ++ (if t < c then [] else [(t - c, t)]))

/-- Loop filtering crosses tile edges: with XFILT, always in AV1, and between the rows of an ENCR that are no tiles (R108, R126). -/
def acrossTiles (w : WorkOrder) : Bool := bitOf (woField w 74 1) 0 || encCodec w == 2 || isEncr w

/-- The picture after its in-loop filters (R103, R108): in lossy modes each tile's interior, then, where filtering crosses tile edges, the band on
each shared edge; in lossless and bounded-error modes the reconstruction as it stands. -/
def finalPlanes (w : WorkOrder) (recon : List Rows) : List Rows :=
  if 4 ≤ encMode w then recon
  else
    let c := encCodec w
    let on := fun (t : Tool) => (encTools w).contains t
    let deb := on .deblocking
    let other := on .sao || on .alf || on .ccAlf || on .cdef || on .loopRestoration
    if !deb ∧ !other then recon
    else
      let inner := (upto 0 (tileCount w)).foldl (fun p t => Config.filterTile c deb other (tileBlock w t) p) recon
      let out := if acrossTiles w then
          (tileEdges w).foldl (fun p e => Config.filterEdge c deb other (tileBlock w e.1) (tileBlock w e.2) p) inner
        else inner
      (upto 0 recon.length).map (fun k =>
        fitRows (encDepth w) { x := 0, y := 0, w := (codedPlane w k).1, h := (codedPlane w k).2 } ((out[k]?).getD []))

/-- The arrangement of a reference picture as a dressed surface (R238). -/
def refSurface (w : WorkOrder) (h : Nat) : List Byte :=
  let n := match codedChroma (sfFormat w.surfIn) with | some 0 => 1 | _ => 3
  let size := fun (k : Nat) => 2 * ((codedPlane w k).1 * (codedPlane w k).2)
  let o1 := if n = 3 then size 0 else 0
  let o2 := if n = 3 then size 0 + size 1 else 0
  leBytes 4 h ++ leBytes 4 0 ++ leBytes 4 (8 * (codedSize w).1) ++ leBytes 2 (codedSize w).1 ++ leBytes 2 (codedSize w).2 ++
    leBytes 1 (if isCfa (sfFormat w.surfIn) then 1 else sfFormat w.surfIn) ++ leBytes 1 2 ++ leBytes 2 0 ++ leBytes 4 o1 ++ leBytes 4 o2 ++
    leBytes 4 0 ++ leBytes 4 (size 0 + (if n = 3 then size 1 + size 2 else 0)) ++ leBytes 4 (8 * (codedPlane w 1).1) ++ leBytes 24 0

/-! The bitstream (R112, R117–R119, R175). -/

/-- Emulation prevention: a byte of 3 or less after two zero bytes is preceded by 3. -/
def guardBytes : Nat → List Byte → List Byte
  | _, [] => []
  | z, b :: r =>
    if 2 ≤ z ∧ b.toNat ≤ 3 then 3 :: b :: guardBytes (if b = 0 then 1 else 0) r
    else b :: guardBytes (if b = 0 then z + 1 else 0) r

/-- The bytes of a UUID. -/
def uuidBytes (n : Nat) : List Byte := (leBytes 16 n).reverse

/-- A unit of declared data: a user data unregistered SEI, or an AV1 metadata OBU (R112, R175). -/
def dataUnit (codec uuid kind : Nat) (payload : List Byte) : List Byte :=
  if codec = 2 then leBytes 1 0x28 ++ leBytes 1 kind ++ payload ++ leBytes 1 0x80
  else
    (if codec = 0 then leBytes 2 0x014E else leBytes 2 0xB900) ++
      guardBytes 0 (leBytes 1 5 ++ leBytes 1 (16 + payload.length) ++ uuidBytes uuid ++ payload ++ leBytes 1 0x80)

/-- The packing payload (R112). -/
def packPayload (w : WorkOrder) : List Byte :=
  leBytes 1 1 ++ leBytes 1 1 ++ leBytes 1 (sfCfa w.surfIn) ++ leBytes 1 0 ++ (leBytes 2 (sfWidth w.surfIn / 2)).reverse ++
    (leBytes 2 (sfHeight w.surfIn / 2)).reverse

/-- The bound declaration (R175); `classes` are the ROI classes of the picture's blocks. -/
def boundPayload (w : WorkOrder) (classes : List Nat) : List Byte :=
  let e := if encMode w = 4 then 0 else encBound w
  leBytes 1 1 ++ leBytes 1 (encMode w) ++ (leBytes 2 e).reverse ++ leBytes 1 (encDepth w) ++ leBytes 1 (fmtDepth (sfFormat w.surfIn)) ++
    leBytes 1 (((upto 0 8).filter (fun i => classes.contains i && decide (classBound w i < e))).map (2 ^ ·) |>.foldl (· + ·) 0) ++
    leBytes 1 0

/-- Units the device declares in the prefix: the packing description and the bound. -/
def declUnits (w : WorkOrder) (classes : List Nat) : List (List Byte) :=
  (if woField w 70 1 = 1 then [dataUnit (encCodec w) 0x7D3A91C45E024B8FA6D109E4C27B5F33 25 (packPayload w)] else []) ++
    (if 4 ≤ encMode w then [dataUnit (encCodec w) 0x3C8E1F0A92B74D658E215AF07C94D2B8 26 (boundPayload w classes)] else [])

/-- LEB128, in n bytes at most. -/
def leb128 : Nat → Nat → List Byte
  | 0, _ => []
  | n + 1, v => if v < 128 then leBytes 1 v else leBytes 1 (128 + v % 128) ++ leb128 n (v / 128)

/-- A unit in the framing of OUT_MODE: as it is, or with a start code or obu_size (R118); `more` bytes of the unit follow it elsewhere. -/
def framedWith (w : WorkOrder) (u : List Byte) (more : Nat) : List Byte :=
  if !bitOf (woField w 79 1) 1 ∨ u = [] then u
  else if encCodec w = 2 then leBytes 1 (fieldAt u 0 1 ||| 2) ++ leb128 8 (u.length - 1 + more) ++ u.drop 1
  else leBytes 4 0x01000000 ++ u

/-- A whole unit in the framing of OUT_MODE. -/
def framed (w : WorkOrder) (u : List Byte) : List Byte := framedWith w u 0

/-- The AV1 hash OBU of metadata_type 24 (R112): VERSION 1, the plane count, and the CRC-32C of each plane's samples, big-endian. -/
def hashObu (planes : List Rows) : List Byte :=
  dataUnit 2 0 24 (leBytes 1 1 ++ leBytes 1 planes.length ++
    planes.flatMap (fun p => beBytes 4 (crc32c (p.flatten.flatMap (beBytes 2)))))

/-- The hashes of planes by the method of HASH (R112, R189): CRC-32C in AV1, the standard's MD5, CRC or checksum otherwise. -/
def planeHashes (codec kind depth : Nat) (planes : List Rows) : List (List Byte) :=
  planes.map (fun p => if codec = 2 then beBytes 4 (crc32c (p.flatten.flatMap (beBytes 2))) else Config.planeHash kind depth p)

/-- The picture has a suffix, holding its hash (R112, R117). -/
def hasSuffix (w : WorkOrder) : Bool := decide (encCodec w ≤ 1) && woField w 77 1 != 0

/-- The parts of n CTUs in c parts (R106). -/
def spans (n c : Nat) : List Nat := (upto 0 c).map (fun i => (tileSpan n c i).2)

/-- The HRD parameters of a CBR stream: bit_rate, cpb_size, initial removal delay, cbr_flag (R157). -/
def encHrd (w : WorkOrder) (fref : Int) : Option (Nat × Nat × Nat × Bool) :=
  if encMode w = 2 then some (woField w 92 4 * 1000, woField w 100 4 * 1000, fref.toNat, false) else none

/-- The level signalled (R94). -/
def levelCode (w : WorkOrder) : Nat :=
  if woField w 66 1 ≠ 0 then woField w 66 1
  else match (profileOf (encCodec w) (woField w 65 1)).bind (encLevel w) with
    | some (some l) => l.code
    | _ => openLevel (encCodec w)

/-- What a stream signals of its sequence (R92–R108, R126, R157). -/
def seqSyntax (w : WorkOrder) (fref : Int) : SeqSyntax :=
  let (cw, ch) := codedSize w
  let exact := decide (4 ≤ encMode w)
  let c := encCodec w
  let on := fun (t : Tool) => (encTools w).contains t
  { profile := woField w 65 1, level := levelCode w, tier := woField w 67 1, chroma := (codedChroma (sfFormat w.surfIn)).getD 0
    depth := encDepth w, width := sfWidth w.surfIn, height := sfHeight w.surfIn, codedWidth := cw, codedHeight := ch
    cropRight := cw - sfWidth w.surfIn, cropBottom := ch - sfHeight w.surfIn, ctuLog := encCtuLog w, minCbLog := 3
    identityMatrix := sfFormat w.surfIn == 0x20, tools := encTools w, transquantBypass := exact && c == 0
    minTsQp := if exact ∧ c = 1 then some 4 else none, losslessSegment := if exact ∧ c = 2 then some 7 else none
    uniformTiles := decide (c ≤ 1), tileCols := spans (ctuGrid w).1 (stdTiles w).1, tileRows := spans (ctuGrid w).2 (stdTiles w).2
    acrossTiles := bitOf (woField w 74 1) 0 || c == 2, deblockingOff := !on .deblocking
    filtersOff := !(on .sao || on .alf || on .ccAlf || on .cdef || on .loopRestoration), wpp := isEncr w && decide (c ≤ 1)
    numRef := if encGop w = 1 then 0 else woField w 109 1, hrd := encHrd w fref }

/-- The kind of a picture (R97). -/
def picKind (w : WorkOrder) (type : Nat) : PicKind :=
  if type ≠ 0 then .trailing
  else if encCodec w = 2 then .keyFrame
  else if encCodec w ≤ 1 ∧ bitOf (woField w 110 1) 0 then .cra else .idr

/-- What a picture's header signals when its coding starts (R97, R98, R104, R147, R150). -/
def picSyntax (w : WorkOrder) (type disp pic : Nat) (lists : List (List RefPic)) (q0 : Int) : PicSyntax :=
  let av1 := encCodec w == 2
  { kind := picKind w type, type := type, order := (disp : Nat), pic := pic, refs := lists.map (fun l => l.map (fun r => ((r.disp : Nat) : Int)))
    qp := q0, dependentRow := none, entryPoints := [], noEndUpdate := av1, regularFilter := av1, highPrecision := false
    deltaRes := if av1 then 4 else 1, endSeq := bitOf (encCtrl w) 3 }

/-- The stream's header of a picture, or of row or slice k of one. -/
def headOf (w : WorkOrder) (fref : Int) (p : PicSyntax) : List Byte := Config.headUnit (encCodec w) (seqSyntax w fref) p

/-- Whole units of the prefix, before the slice or frame header (R112, R113, R117, R157, R175): the AV1 temporal delimiter; parameter sets on key
pictures and with EMIT_PARAMS; SEIs; the packing description and the bound; in AV1 with HASH 2 the hash of the planes. -/
def prefixUnits (w : WorkOrder) (fref : Int) (type pic : Nat) (classes : List Nat) (planes : List Rows) : List (List Byte) :=
  let c := encCodec w
  let sei := woField w 160 2
  let hrd := bitOf sei 1 || encMode w == 2
  (if c = 2 then [Config.temporalUnit] else []) ++
    (if type = 0 ∨ bitOf (encCtrl w) 2 then Config.paramUnits c (seqSyntax w fref) else []) ++
    (if hrd ∧ c ≠ 2 then
      (if type = 0 then [Config.seiUnit c (.bufferingPeriod (encHrd w fref))] else []) ++ [Config.seiUnit c (.pictureTiming pic)] else []) ++
    (if bitOf sei 0 then [Config.seiUnit c (.timeCode (sfTime w.surfIn))] else []) ++ declUnits w classes ++
    (if c = 2 ∧ woField w 77 1 = 2 then [hashObu planes] else [])

/-- The suffix unit, holding the picture's hash (R112, R117). -/
def suffixUnit (w : WorkOrder) (planes : List Rows) : List Byte :=
  if hasSuffix w then
    Config.seiUnit (encCodec w) (.pictureHash (woField w 77 1) (planeHashes (encCodec w) (woField w 77 1) (encDepth w) planes))
  else []

/-- A unit ends with tile t: an AVC slice, a row of an ENCR, or the last tile. -/
def unitEnds (w : WorkOrder) (t : Nat) : Bool := isEncr w || encCodec w == 3 || t + 1 == tileCount w

/-- The SOP entry of a unit (R119). -/
def sopEntry (w : WorkOrder) (r : EncRun) (row : Nat) (last : Bool) : Entry :=
  { data := leBytes 1 (if encCodec w = 2 then 2 else 1) ++
      leBytes 1 (ofFlag (r.units == 0) + 2 * ofFlag last + 4 * ofFlag (r.type == 0) + 8 * ofFlag (bitOf (encCtrl w) 3)) ++ leBytes 2 row ++
      leBytes 4 r.pic ++ leBytes 8 (sfTime w.surfIn) ++ leBytes 4 (sfFrame w.surfIn) ++ leBytes 12 0
    sop := true, eop := false }

/-- Full payload entries of a byte string, and what is left. -/
def payEntries : Nat → List Byte → List Entry × List Byte
  | 0, b => ([], b)
  | n + 1, b =>
    if b.length < 32 then ([], b)
    else let (e, r) := payEntries n (b.drop 32); ({ data := b.take 32, sop := false, eop := false } :: e, r)

/-- The entries that end a unit (R119). A remainder of 29 to 31 bytes, for which R119 gives no form, takes a payload entry filled with
free bytes and an EOP entry of no bytes. -/
def eopEntries (d : Device) (b : List Byte) : List Entry :=
  let eop := fun (l : List Byte) => { data := padTo 28 l ++ leBytes 2 l.length ++ leBytes 2 0, sop := false, eop := true : Entry }
  if b.length ≤ 28 then [eop b]
  else [{ data := (b ++ leBytes 3 (free d 120)).take 32, sop := false, eop := false }, eop []]

/-- A unit begins, unless it has: with FORMAT 0 its SOP entry is queued at once. -/
def openUnit (w : WorkOrder) (row : Nat) (last : Bool) (r : EncRun) : EncRun :=
  if r.open_ then r
  else
    let r := { r with queue := if bitOf (woField w 79 1) 1 then r.queue else r.queue ++ [sopEntry w r row last], open_ := true }
    { r with units := r.units + 1 }

/-- Bytes join the unit being pushed; with FORMAT 0 its full payload entries are queued. -/
def feedUnit (w : WorkOrder) (b : List Byte) (r : EncRun) : EncRun :=
  let p := r.part ++ b
  let r := { r with pushed := r.pushed + b.length }
  if bitOf (woField w 79 1) 1 then { r with part := p }
  else let (e, rest) := payEntries p.length p; { r with queue := r.queue ++ e, part := rest }

/-- The unit being pushed ends; with FORMAT 1 all of its entries are queued now. -/
def closeUnit (d : Device) (w : WorkOrder) (row : Nat) (last : Bool) (r : EncRun) : EncRun :=
  if bitOf (woField w 79 1) 1 then
    let u := framed w r.part
    let (e, rest) := payEntries u.length u
    { r with queue := r.queue ++ [sopEntry w { r with units := r.units - 1 } row last] ++ e ++ eopEntries d rest, part := [], open_ := false
             pushed := r.pushed + (u.length - r.part.length) }
  else { r with queue := r.queue ++ eopEntries d r.part, part := [], open_ := false }

/-- A whole unit. -/
def putUnit (d : Device) (w : WorkOrder) (last : Bool) (r : EncRun) (u : List Byte) : EncRun :=
  closeUnit d w 0xFFFF last (feedUnit w u (openUnit w 0xFFFF last r))

/-- First CTU row of tile t. -/
def tileRow0 (w : WorkOrder) (t : Nat) : Nat := (tileRect w t).2.1

/-- Bytes of tiles whose turn has come join the stream (R119): tiles and rows follow one another. -/
def pumpTiles (d : Device) (w : WorkOrder) : Nat → EncRun → EncRun
  | 0, r => r
  | n + 1, r =>
    let t := r.cursor
    let x := runTile r t
    let passed := tileDone w r t
    if !r.opened ∨ tileCount w ≤ t ∨ (x.late = [] ∧ !passed) then r
    else
      let last := t + 1 == tileCount w && !hasSuffix w
      let r := feedUnit w x.late (openUnit w (tileRow0 w t) (last || (!isEncr w && encCodec w != 3 && !hasSuffix w)) r)
      let r := { r with tiles := tset TileRun.reset t { x with late := [] } r.tiles }
      if !passed then r
      else pumpTiles d w n { (if unitEnds w t then closeUnit d w (tileRow0 w t) last r else r) with cursor := t + 1 }

/-- Push queued entries until the ring is full. -/
def pushQueue (ring : Nat) : List Entry → Device → Device × List Entry
  | [], d => (d, [])
  | e :: r, d =>
    match unitPush d ring e false with
    | (d, .full) => (d, e :: r)
    | (d, _) => pushQueue ring r d

/-- Push what a run has queued. -/
def pushRun (d : Device) (w : WorkOrder) (t : Nat) : Device :=
  match encRunAt d t with
  | none => d
  | some r => let (d, q) := pushQueue (woField w 82 2) r.queue d; modEncRun d t (fun r => { r with queue := q })

/-- Payload bytes of entries that have not left. -/
def queuedBytes (q : List Entry) : Nat :=
  (q.map (fun e => if e.sop then 0 else if e.eop then fieldAt e.data 28 2 else 32)).foldl (· + ·) 0

/-! The end of a picture's work. -/

/-- Bytes of tile t as staged, the size field of AV1 among them (R118). -/
def tileLen (w : WorkOrder) (r : EncRun) (t : Nat) : Nat :=
  (runTile r t).bytes + (if encCodec w = 2 ∧ t + 1 ≠ tileCount w then 4 else 0)

/-- Bytes written or pushed (R121). Of AV1 tiles the size fields count once they are written, with the extents' last writes. -/
def runBytes (w : WorkOrder) (r : EncRun) : Nat :=
  if encRing w then r.pushed - r.part.length - queuedBytes r.queue
  else r.header + ((upto 0 (tileCount w)).map (fun t => if r.coded then tileLen w r t else (runTile r t).bytes)).foldl (· + ·) 0

/-- QP_AVG (R121). -/
def runQp (r : EncRun) : Int := roundDiv r.qpSum r.qpCount

/-- A signed number in n bytes. -/
def sBytes (n : Nat) (v : Int) : List Byte := leBytes n (v % (2 ^ (8 * n) : Nat)).toNat

/-- RESULT of an ENC or ENCR (R121). -/
def encResult (w : WorkOrder) (r : EncRun) : List Byte :=
  leBytes 4 (runBytes w r) ++ leBytes 4 r.pic ++ leBytes 2 (if 4 ≤ encMode w then r.maxErr else 0xFFFF) ++ leBytes 2 (min 0xFFFF r.recoded) ++
    leBytes 1 r.type ++ leBytes 1 (min 0xFF r.bad) ++ sBytes 2 (runQp r)

/-- RESULT of a picture that ends before it starts: nothing written.
DESIGN CHOICE: PIC and PIC_TYPE are 0 and MAX_ERR is 0xFFFF in every mode; the spec gives no values for them here (log entry 79). -/
def encEmpty : List Byte := leBytes 8 0 ++ leBytes 2 0xFFFF ++ leBytes 2 0 ++ leBytes 4 0

/-- Final records follow coding order (R96): the records of a stream's pictures whose work is over, as far as no earlier picture
still works. -/
def flushEnds (key : Nat) : Nat → Device → Device
  | 0, d => d
  | n + 1, d =>
    match tfind key d.codec.encs with
    | none => d
    | some s =>
      match s.order with
      | [] => d
      | t :: rest =>
        match s.held.find? (fun h => h.1 == t) with
        | none => d
        | some (_, st, fl, res) =>
          flushEnds key n (finishWo (modEnc d key (fun s => { s with order := rest, held := s.held.filter (fun h => h.1 ≠ t) })) t st fl res)

/-- The work of a started picture is over: its record waits for those before it in coding order. A picture that was not coded leaves the
sequence and waits for nobody (R96, R99). -/
def encOver (d : Device) (t status flags : Nat) : Device :=
  match woAt d t, encRunAt d t with
  | some w, some r =>
    let res := encResult w r
    let d := dropRun (freeEngines d t) t
    let d := if bitOf flags 2 then
        { d with codec := { d.codec with exhausted := bump 256 (trussOf w.unit) d.codec.exhausted } } else d
    if r.coded then
      let d := modEnc d r.key (fun s => { s with held := s.held ++ [(t, status, flags, res)] })
      match tfind r.key d.codec.encs with
      | some s => flushEnds r.key s.order.length d
      | none => d
    else
      let d := modEnc d r.key (fun s => { encPrune (encRemove s t) with order := s.order.filter (· ≠ t), count := s.count - 1 })
      finishWo d t status flags res
  | _, _ => d

/-- The picture exhausted a budget or used the minimal form (R166). -/
def runShort (r : EncRun) : Bool := r.budgets.any (fun e => e.2.spentUp || e.2.minimal)

/-- FLAGS of a picture: budget, verification. -/
def runFlags (r : EncRun) (verified : Bool) : Nat := 4 * ofFlag (runShort r) + 8 * ofFlag verified

/-! Statistics (R140–R142). -/

/-- Sum and sum of squares over a rectangle of the luma plane, and the number of samples. -/
def sumsOf (rows : Rows) (x y n m : Nat) : Nat × Nat × Nat :=
  let v := (upto y m).flatMap (fun j => (upto x n).map (fun i => padPx rows i j))
  (v.foldl (· + ·) 0, v.foldl (fun a b => a + b * b) 0, v.length)

/-- VARIANCE (R141). -/
def varianceOf (s : Nat × Nat × Nat) : Nat := min 0xFFFFFFFF ((s.2.2 * s.2.1 - s.1 * s.1) / max 1 (s.2.2 * s.2.2))

/-- The record of a CTU (R141). -/
def ctuRecord (d : Device) (w : WorkOrder) (r : EncRun) (a : CtuAcc) (cx cy : Nat) : List Byte :=
  let n := 2 ^ encCtuLog w
  let (cw, ch) := codedSize w
  let s := sumsOf ((codedPlanes d w).headD []) (cx * n) (cy * n) (min n (cw - cx * n)) (min n (ch - cy * n))
  sBytes 2 a.mvx ++ sBytes 2 a.mvy ++ leBytes 1 a.ref ++
    leBytes 1 (ofFlag a.intra + 2 * ofFlag a.skip + 4 * ofFlag (decide (0 < a.recoded))) ++ sBytes 2 (roundDiv a.qp a.cus) ++
    leBytes 4 (a.sad.getD 0xFFFFFFFF) ++ leBytes 4 (min 0xFFFFFFFF a.cost) ++ leBytes 4 (varianceOf s) ++ leBytes 4 a.bits ++
    leBytes 2 (if 4 ≤ encMode w then a.err else 0xFFFF) ++ leBytes 2 (blockRoi w r.roi (cx * n) (cy * n) (cx * n) (cy * n)) ++ leBytes 4 0

/-- A luma histogram of 64 bins (R140). -/
def histBytes (rows : Rows) (depth : Nat) : List Byte :=
  let all := rows.flatten
  (upto 0 64).flatMap (fun b => leBytes 4 (all.filter (fun s => s / 2 ^ (depth - 6) = b)).length)

/-- Complete CTU rows of a picture, from the top. -/
def rowsDone (w : WorkOrder) (r : EncRun) : Nat :=
  let (cols, _) := tileGrid w
  let done := fun (y : Nat) => (upto 0 (tileCount w)).all (fun t =>
    let q := tileRect w t
    !(decide (q.2.1 ≤ y) && decide (y < q.2.1 + q.2.2)) || decide ((y + 1 - q.2.1) * q.1.2 ≤ (runTile r t).ctu))
  if cols = 0 then 0 else ((upto 0 (ctuGrid w).2).takeWhile done).length

/-- The statistics header, written last (R140). -/
def encStats (d : Device) (w : WorkOrder) (r : EncRun) : Device :=
  if !bitOf (woField w 111 1) 2 then d
  else
    let (cols, rows) := ctuGrid w
    (bufWrite d (statReq w) (woField w 124 4) 0
      (leBytes 4 0x54535453 ++ leBytes 1 1 ++ leBytes 1 1 ++ leBytes 1 (encCtuLog w) ++
        leBytes 1 (ofFlag r.fieldUsed + 2 * ofFlag (bitOf (woField w 111 1) 1) + 4 * ofFlag r.fieldMiss) ++ leBytes 4 (sfFrame w.surfIn) ++
        leBytes 4 r.pic ++ leBytes 8 (sfTime w.surfIn) ++ leBytes 2 cols ++ leBytes 2 rows ++ leBytes 4 (rowsDone w r) ++ leBytes 1 r.type ++
        leBytes 1 (encDepth w) ++ leBytes 222 0 ++ histBytes ((codedPlanes d w).headD []) (encDepth w))).1

/-- A started picture stops with an error or an abort (R84, R120): what is written stays, no extent list follows. -/
def encStop (d : Device) (t status : Nat) : Device :=
  match woAt d t, encRunAt d t with
  | some w, some r => encOver (encStats d w r) t status (runFlags r false)
  | _, _ => d

/-! Picture start (R96, R145, R151, R155). -/

/-- The ROI map (R149). -/
def roiMap (d : Device) (w : WorkOrder) : List Byte :=
  if bitOf (woField w 111 1) 1 then bufBytes d (woField w 120 4) 0 (roiBytes w) else []

/-- The ROI classes of a map. -/
def roiClasses (w : WorkOrder) (roi : List Byte) : List Nat := if bitOf (woField w 111 1) 1 then roi.map (fun b => b.toNat % 8) else [0]

/-- The picture may start: it is next in its stream, no picture of the stream is being coded, its engines are free. -/
def encReady (d : Device) (w : WorkOrder) : Option (EncPic × Nat × Nat) :=
  match tfind (encKey w) d.codec.encs with
  | none => none
  | some s =>
    match encNext s with
    | none => none
    | some e => if isEnc w && s.busy == none && e.1.ticket == w.ticket && canStart d w then some e else none

/-- The rate state when a picture starts: INIT begins it afresh (R156, R157). -/
def rateInit (w : WorkOrder) (init : Bool) (s : EncStream) : EncStream :=
  if init then
    let f : Int := ((woField w 100 4 * woField w 104 2 : Nat) : Int)
    { s with debt := 0, full := f, fref := f, memos := [], refs := [], count := 0 }
  else s

/-- The most recent reference pictures in coding order, n at most, the latest key picture among them under LTR (R98). -/
def recentRefs (w : WorkOrder) (n : Nat) (l : List RefPic) : List RefPic :=
  match if bitOf (woField w 110 1) 2 then l.find? (fun e => e.isKey) else none with
  | some k => if (l.take n).contains k then l.take n else l.take (n - 1) ++ [k]
  | none => l.take n

/-- The reference lists of a picture of a type (R98): a P picture takes the most recent reference pictures from the last key picture on; a B
picture the nearest anchor on each side, and earlier reference pictures up to NUM_REF. -/
def refLists (w : WorkOrder) (s : EncStream) (type disp : Nat) : List (List RefPic) :=
  let n := woField w 109 1
  let lastKey := ((s.refs.find? (fun e => e.isKey)).map (·.pic)).getD 0
  if type ≤ 1 then []
  else if type = 2 then [recentRefs w n (s.refs.filter (fun e => decide (lastKey ≤ e.pic)))]
  else
    let anchors := s.refs.filter (fun e => e.anchor)
    let past := (cheapest (fun e => disp - e.disp) (anchors.filter (fun e => decide (e.disp < disp)))).toList
    let next := (cheapest (fun e => e.disp - disp) (anchors.filter (fun e => decide (disp < e.disp)))).toList
    let fill := (s.refs.filter (fun e => !(past ++ next).contains e)).take (n - (past ++ next).length)
    [if past = [] then next ++ fill else past ++ fill, if next = [] then past else next]

/-- Write what a picture's prefix holds, once it is known: in AV1 with HASH 2 not before the picture is coded. -/
def prefixReady (w : WorkOrder) (coded : Bool) : Bool := coded || !(encCodec w == 2 && woField w 77 1 == 2)

/-- The prefix goes to the ring (R117, R119, R126): whole units, then the header, which opens its unit in an ENC of HEVC, VVC or AV1. -/
def openStream (d : Device) (w : WorkOrder) (fref : Int) (planes : List Rows) (r : EncRun) : EncRun :=
  if r.opened then r
  else
    let r := (prefixUnits w fref r.type r.pic r.classes planes).foldl (putUnit d w false) { r with opened := true }
    if encCodec w = 3 ∨ (isEncr w ∧ encCodec w ≤ 1) then r
    else
      let h := headOf w fref r.head
      if isEncr w then putUnit d w false r h
      else feedUnit w h (openUnit w 0 (!hasSuffix w) r)

/-- F_ref of a run's stream. -/
def runFref (d : Device) (r : EncRun) : Int := match tfind r.key d.codec.encs with | some s => s.fref | none => 0

/-- Start a picture: what the field, the regions, the rate state and the references of its stream give it. The prefix is counted as it will stand,
its hash and its entry points still without values (R160). -/
def encStart (d : Device) (t : Nat) : Device :=
  match woAt d t with
  | none => d
  | some w =>
    match encReady d w with
    | none => d
    | some (p, pos, ty) =>
      let key := encKey w
      let d := takeEngines d w
      let h := fieldHead d w
      let want := bitOf (woField w 111 1) 0
      let used := want && fieldGood h w
      let d := if want && !used then
          { d with codec := { d.codec with fieldMiss := bump 65536 (trussOf w.unit) d.codec.fieldMiss } } else d
      let d := modEnc d key (fun s =>
        let s := rateInit w p.init s
        { s with busy := some t, count := s.count + 1, order := s.order ++ [t]
                 pics := s.pics.map (fun q => if q.ticket = t then { q with fixed := some (pos, ty) } else q) })
      match tfind key d.codec.encs with
      | none => d
      | some s =>
        let roi := if isEncr w then [] else roiMap d w
        let classes := roiClasses w roi
        let src := codedPlanes d w
        let (target, limit) := picTarget w s ty
        let q0 := startQp d w s ty target
        let lists := refLists w s ty p.disp
        let head := picSyntax w ty p.disp s.count lists q0
        let start := ((prefixUnits w s.fref ty s.count classes src).map (fun u => (framed w u).length)).foldl (· + ·) 0 +
          (if encCodec w = 3 then 0 else (headOf w s.fref head).length)
        let broken := hrdBroken w limit (8 * start)
        let d := if broken then { d with codec := { d.codec with hrd := bump 256 (trussOf w.unit) d.codec.hrd } } else d
        let r : EncRun :=
          { ticket := t, key := key, type := ty, pic := s.count, disp := p.disp, lists := lists, cus := [], recon := blankRecon w src.length,
            head := head, opened := false, target := target, limit := limit, start := 8 * start, fieldUsed := used,
            fieldMiss := want && !used, roi := roi, budgets := picBudgets d w used target limit q0 (8 * start) broken
            tiles := if isEncr w then []
              else (upto 0 (tileCount w)).map (fun k =>
                (k, { TileRun.reset with started := true, entropy := Config.entropyInit (encCodec w) ty q0 })),
            maxErr := 0, recoded := 0, fault := false, qpSum := 0, qpCount := 0, classes := classes, header := 0,
            suffix := 0, cursor := 0, part := [], open_ := false, units := 0, queue := [], pushed := 0, coded := false, verify := false,
            bad := 0 }
        let r := if encRing w && prefixReady w false then openStream d w s.fref src r else r
        let d := { d with codec := { d.codec with runs := d.codec.runs ++ [r] } }
        if encRing w then pushRun d w t else d

/-! Readiness and requests (R125, R176, R177, R207). -/

/-- Source rows that CTU row k needs: those of rows k and k + 1, or of k alone when it is the last (R125). -/
def rowNeeds (w : WorkOrder) (k : Nat) : Nat := min (sfHeight w.surfIn) ((k + 2) * 2 ^ encCtuLog w)

/-- The source rows of CTU row k are there (R125). -/
def rowsThere (d : Device) (w : WorkOrder) (k : Nat) : Device × Bool :=
  if woField w 164 1 = 0 then (d, true)
  else
    match progressGet d (engineReq w.unit) (fieldAt (woExtraOf w 168) 0 8) with
    | (d, none) => (d, false)
    | (d, some (frame, rows)) => (d, frame == sfFrame w.surfIn && decide (rowNeeds w k ≤ rows))

/-- Rows of a running ENCR on engine u that may be coded now (R125). -/
def encrRunnable (d : Device) (w : WorkOrder) (u : Nat) : Bool :=
  match encRunAt d w.ticket with
  | none => false
  | some r =>
    (upto 0 (tileCount w)).any (fun k => tileEngine w k == u && !tileDone w r k && ((runTile r k).started || (rowsThere d w k).2))

/-- Queued work that is ready to run on its engines when they are freed: none of them is held by a patch load, and row 0 of an ENCR is codable (R177,
R214). -/
def queuedReady (d : Device) (w : WorkOrder) : Bool :=
  w.phase == .queued && onEngines w.kind && orderReady d w && (!isEncr w || (rowsThere d w 0).2) &&
    (woEngines w).all (fun u => !engineHeld d u)

/-- Work q may take engine u from work of priority p: live, above p, and queued there ready or suspended there runnable (R176, R177). -/
def mayPreempt (d : Device) (u p q : Nat) : Bool :=
  match woAt d q with
  | none => false
  | some w =>
    decide (6 ≤ w.effPrio) && decide (p < w.effPrio) && w.kind != .ana && (woEngines w).contains u &&
      ((engineAt d u).susp.contains q && (!isEncr w || encrRunnable d w u) ||
        (queuedReady d w && woFirst d (fun v => queuedReady d v && (woEngines v).contains u) w))

/-- An abort or a preemption is asked of engine u, which runs w: what it samples at its boundaries (R207). -/
def sampled (d : Device) (w : WorkOrder) (u : Nat) : Bool := w.abort.isSome || d.wos.any (fun v => mayPreempt d u w.effPrio v.ticket)

/-! Coding (R161–R169). -/

/-- A tile may be coded now: its engine runs the work, it has begun, earlier tiles of its engine are done, nothing waits for ring space,
and in an ENCR the row above is two CTUs ahead (R107, R119, R126). -/
def tileOpen (d : Device) (w : WorkOrder) (r : EncRun) (t : Nat) : Bool :=
  let n := woField w 21 1
  decide (t < tileCount w) && !r.coded && !tileDone w r t && (runTile r t).started && r.queue == [] &&
    (engineAt d (tileEngine w t)).cur == some w.ticket &&
    (upto 0 t).all (fun k => k % max 1 n != t % max 1 n || tileDone w r k) &&
    (!isEncr w || encCodec w == 2 || t == 0 || tileDone w r (t - 1) || decide ((runTile r t).ctu + 2 ≤ (runTile r (t - 1)).ctu))

/-- A reference picture as the search reads it: its planes from its buffer, as they stand there now (R98). -/
def refView (d : Device) (w : WorkOrder) (planes : Nat) (e : RefPic) : RefView :=
  let sf := refSurface w (fieldAt (woExtraOf w 144) (4 * e.slot) 4)
  { planes := (upto 0 planes).map (surfRows d sf), disp := e.disp, frame := e.frame, cus := e.cus }

/-- What the decision of CTU i of a tile reads (R101, R143–R150, R161, R162, R167). -/
def coderAt (d : Device) (w : WorkOrder) (r : EncRun) (b : Budget) (tile i : Nat) : Coder :=
  let n := 2 ^ encCtuLog w
  let (cx, cy) := ctuPos w tile i
  let base := ctuBase d w r.fieldUsed b (cx * n) (cy * n)
  let src := codedPlanes d w
  { w := w, type := r.type, disp := r.disp, src := src, refs := r.lists.map (fun l => l.map (refView d w src.length))
    field := if r.fieldUsed then some (fieldHead d w, (fieldViews (fieldHead d w) w).headD []) else none, entry := fieldEntry d w
    qp := fun k => blockQp w (blockRoi w r.roi (cx * n) (cy * n) k.x k.y) base (b.spentUp && (encMode w == 1 || encMode w == 3))
    bound := fun k => cuBound w r.roi k.x k.y k.w k.h, tile := tileBlock w tile, ctu := { x := cx * n, y := cy * n, w := n, h := n } }

/-- The CTU in progress with one more CU: the record of R141 takes the vector of the prediction block that covers the CTU's centre. -/
def accAdd (a : CtuAcc) (o : CuOut) (centre : Nat × Nat) : CtuAcc :=
  let a := { a with
    bits := a.bits + o.bits, err := max a.err o.err, cus := a.cus + 1, recoded := a.recoded + ofFlag o.recoded, qp := a.qp + o.qp
    intra := a.intra || !cuInter o.cu, skip := a.skip || o.skip
    sad := match o.sad with | some v => some (a.sad.getD 0 + v) | none => a.sad
    cost := a.cost + o.cost }
  match o.cu.parts.find? (fun p => blockHolds p.blk centre.1 centre.2) with
  | none => a
  | some p =>
    match partMv 0 p with
    | some m => { a with mvx := m.x, mvy := m.y, ref := m.ref + 128 * m.list }
    | none => { a with mvx := 0, mvy := 0, ref := 0xFF }

/-- The centre of a CTU, inside the coded picture. -/
def ctuCentre (w : WorkOrder) (tile i : Nat) : Nat × Nat :=
  let n := 2 ^ encCtuLog w
  let (cx, cy) := ctuPos w tile i
  (min ((codedSize w).1 - 1) (cx * n + n / 2), min ((codedSize w).2 - 1) (cy * n + n / 2))

/-- CTUs still to code after the one in progress: of the tile, or of the whole ENCR (R163, R165). -/
def ctusLeft (w : WorkOrder) (r : EncRun) (t : Nat) : Nat :=
  if isEncr w then (ctuGrid w).1 * (ctuGrid w).2 - (r.tiles.map (fun e => e.2.ctu)).foldl (· + ·) 0 - 1
  else tileCtus w t - (runTile r t).ctu - 1

/-- Committing the CTU would break H (R163). -/
def breaksHard (w : WorkOrder) (r : EncRun) (b : Budget) (t bits : Nat) : Bool :=
  encMode w == 2 && match b.cap with | some h => decide (h < ((b.spent + bits + ctusLeft w r t * ctuReserve w : Nat) : Int)) | none => false

/-- The zeros a string of bytes ends with, when `z` stand before it. -/
def zerosAfter (z : Nat) (l : List Byte) : Nat := l.foldl (fun n b => if b = 0 then n + 1 else 0) z

/-- What stands before the data of a tile: the header of an AVC slice or of an ENCR's row, which begin units of their own (R117, R118, R126). -/
def tileLead (w : WorkOrder) (fref : Int) (r : EncRun) (tile : Nat) : List Byte :=
  if encCodec w = 3 ∨ isEncr w then
    let h := headOf w fref { r.head with dependentRow := if encCodec w ≠ 3 ∧ encCodec w ≠ 2 ∧ tile = 0 then none else some (tileRect w tile).2.1 }
    if encRing w then h else framed w h
  else []

/-- The largest number of bytes the data of a tile takes in modes 4 and 5: 17/8 bytes a sample of every plane (R120, R173). -/
def tileWorst (w : WorkOrder) (tile : Nat) : Nat :=
  ((upto 0 (match codedChroma (sfFormat w.surfIn) with | some 0 => 1 | _ => 3)).map (fun k =>
    let b := planeBlock w k (tileBlock w tile)
    b.w * b.h)).foldl (· + ·) 0 * 17 / 8

/-- The bytes of a CTU as they are staged (R118, R173): emulation prevention applied outside AV1, the end of the tile closed by the entropy coder
and never zero. -/
def ctuBytes (w : WorkOrder) (fref : Int) (r : EncRun) (tile : Nat) (x : TileRun) (bytes : List Byte) : List Byte × Nat :=
  let done := x.ctu + 1 == tileCtus w tile
  let data := bytes ++ (if done then Config.entropyEnd (encCodec w) x.entropy else [])
  let data := if encCodec w = 2 then data else guardBytes (min 2 x.zeros) data
  let data := if 4 ≤ encMode w then data.take (tileWorst w tile - x.bytes) else data
  let lead := if x.ctu = 0 then tileLead w fref r tile else []
  let all := lead ++ data
  (if done ∧ encCodec w ≠ 2 ∧ all.getLast? = some 0 then all ++ [3] else all, zerosAfter x.zeros data)

/-- The bytes of a CTU go to its staging region, or wait for their turn in the ring's stream; false when they pass the region (R120). -/
def stageBytes (d : Device) (w : WorkOrder) (t tile : Nat) (b : List Byte) : Device × Bool :=
  match encRunAt d t with
  | none => (d, true)
  | some r =>
    let x := runTile r tile
    let put := fun (r : EncRun) (late : List Byte) => { r with tiles := tset TileRun.reset tile { x with bytes := x.bytes + b.length, late := late } r.tiles }
    if encRing w then (pushRun (modEncRun d t (fun r => pumpTiles d w (tileCount w + 1) (put r (x.late ++ b)))) w t, true)
    else
      let (h, o, n) := stageOf d w tile
      let lead := if encCodec w = 2 ∧ tile + 1 ≠ tileCount w then 4 else 0
      if n < lead + x.bytes + b.length then (d, false)
      else match bufWrite d (engineReq (tileEngine w tile)) h (o + lead + x.bytes) b with
        | (d, ok) => (modEncRun d t (fun r => put r []), ok)

/-- The rectangle of CTU i of a tile. -/
def ctuRect (w : WorkOrder) (tile i : Nat) : Block :=
  let n := 2 ^ encCtuLog w
  let (cx, cy) := ctuPos w tile i
  { x := cx * n, y := cy * n, w := n, h := n }

/-- Events of malformed dressed tiles of a source, for those that engine u meets for the first time (R237). -/
def dressEvents (d : Device) (s : List Byte) (u t : Nat) (met : Block → Bool) : Device :=
  ((badTilesIn d s (sfHeight s)).filter met).foldl (fun d _ => plumbEvent d (336 + u) t) d

/-- A CTU is committed: counts, budget, statistics record, bytes. -/
def commitCtu (d : Device) (w : WorkOrder) (t tile : Nat) (b : Budget) (a : CtuAcc) (entropy : Nat) (bytes : List Byte) : Device :=
  match encRunAt d t with
  | none => d
  | some r =>
    let x := runTile r tile
    let (cols, rows) := tileDims w tile
    let (cx, cy) := ctuPos w tile x.ctu
    let n := 2 ^ encCtuLog w
    let e := tileEngine w tile
    let area := min n ((codedSize w).1 - cx * n) * min n ((codedSize w).2 - cy * n)
    let rowEnd := (x.ctu + 1) % max 1 cols == 0
    let b := { b with spent := b.spent + a.bits }
    let last := if isEncr w then b.row + 1 == (ctuGrid w).2 else x.ctu + 1 == cols * rows
    let b := if rowEnd then rowUpdate w b last else b
    let (out, zeros) := ctuBytes w (runFref d r) r tile { x with entropy := entropy } bytes
    let r' := { r with
      budgets := tset Budget.reset (if isEncr w then 0 else tile) b r.budgets
      tiles := tset TileRun.reset tile { x with
        ctu := x.ctu + 1, acc := CtuAcc.reset, plan := [], held := [], entropy := entropy, atCtu := entropy, zeros := zeros
        sync := if x.sync.length < 2 then x.sync ++ [entropy] else x.sync } r.tiles
      maxErr := max r.maxErr a.err, recoded := r.recoded + a.recoded, qpSum := r.qpSum + a.qp, qpCount := r.qpCount + a.cus }
    let isS := (ctxAt d w.ctx).isSealed
    let place := w.ticket + 2 ^ 32 * (cy * (ctuGrid w).1 + cx)
    let d := dressEvents d w.surfIn e t (fun b =>
      blocksMeet b (ctuRect w tile x.ctu) && (upto 0 x.ctu).all (fun i => !blocksMeet b (ctuRect w tile i)))
    let d := perfEvent d 2 1 e area isS place e
    let d := perfEvent d 2 3 e a.recoded isS place e
    let d := perfEvent d 2 4 e a.bits isS place e
    let d := modEncRun d t (fun _ => r')
    let d := if bitOf (woField w 111 1) 2 then
        (bufWrite d (statReq w) (woField w 124 4) (512 + 32 * (cy * (ctuGrid w).1 + cx)) (ctuRecord d w r a cx cy)).1 else d
    match stageBytes d w t tile out with
    | (d, true) => d
    | (d, false) => encStop d t 0x20

/-- A CU whose lossless recode still differs from its source by `fail`, which only an engine that has failed gives (R172): where it differs is open. -/
def faultyCu (d : Device) (w : WorkOrder) (fail : Nat) (o : CuOut) : CuOut :=
  if !o.recoded ∨ fail = 0 then o
  else
    let top := 2 ^ encDepth w - 1
    let e := min fail top
    { o with
      err := e
      recon := ((upto 0 o.recon.length).zip o.recon).map (fun p =>
        genRows (p.2.headD []).length p.2.length (fun x y =>
          let s := px p.2 x y
          let g := free d (2 ^ 40 + p.1 * 2 ^ 36 + y * 2 ^ 16 + x)
          (s - min s e) + g % (min top (s + e) - (s - min s e) + 1))) }

/-- The test of R162, before a CTU's first CU: the tile's budget is exhausted. -/
def budgetTest (w : WorkOrder) (b : Budget) : Budget :=
  let hit := encMode w != 2 && match b.cap with | some k => decide (k ≤ (b.spent : Int)) | none => false
  { b with spentUp := b.spentUp || hit }

/-- The CUs of the CTU that tile t codes now, decided when its first CU is coded (R101, R163). -/
def ctuPlan (d : Device) (w : WorkOrder) (r : EncRun) (b : Budget) (tile : Nat) : List CuOut :=
  let x := runTile r tile
  if x.acc.cus ≠ 0 then x.plan
  else
    let e := coderAt d w r b tile x.ctu
    let s : Deciding := { recon := r.recon, cus := r.cus, entropy := x.entropy, out := [], cost := 0 }
    (if b.minimal then minimalCtu e s else decideCtu e s).out

/-- The CUs of a picture outside a CTU. -/
def cusOutside (w : WorkOrder) (tile i : Nat) (l : List CuRec) : List CuRec :=
  let n := 2 ^ encCtuLog w
  let (cx, cy) := ctuPos w tile i
  l.filter (fun c => !blockHolds { x := cx * n, y := cy * n, w := n, h := n } c.blk.x c.blk.y)

/-- The condition sources of an engine when it ends a CU (R205, R206): `last` when the CU ends its CTU. -/
def cuSources (d : Device) (w : WorkOrder) (r : EncRun) (tile : Nat) (b : Budget) (o : CuOut) (last : Bool) : CondSources :=
  let x := runTile r tile
  { openSources d 4096 with
    inter := cuInter o.cu, errAbove := o.recoded, budgetFails := b.spentUp || b.minimal, outFull := r.queue != [], cuEnds := true
    rowEnds := last && (x.ctu + 1) % max 1 (tileDims w tile).1 == 0, tileEnds := last && x.ctu + 1 == tileCtus w tile
    levelsZero := o.skip || free d (2 ^ 44 - 1) % 2 == 1, syntaxError := false, refMissing := false
    lossless := o.recoded || encMode w == 4 || (encMode w == 5 && cuBound w r.roi o.cu.blk.x o.cu.blk.y o.cu.blk.w o.cu.blk.h == 0)
    sampled := sampled d w (tileEngine w tile) }

/-- One CU of a tile (R161–R169, R172): the next of its CTU is committed; with the last one the CTU is, in minimal form when it would break the
limit of mode 2. -/
def encCu (d : Device) (t tile fail : Nat) : Device :=
  match woAt d t, encRunAt d t with
  | some w, some r =>
    if !isEnc w ∨ w.phase ≠ .running ∨ !tileOpen d w r tile then d
    else
      let x := runTile r tile
      let b := runBudget w r tile
      let b := if x.acc.cus = 0 then budgetTest w b else b
      match ctuPlan d w r b tile with
      | [] => d
      | o :: rest =>
        let o := faultyCu d w fail o
        let d := if o.recoded ∧ o.err ≠ 0 then
            plumbEvent (modEncRun d t (fun r => { r with fault := true })) (240 + tileEngine w tile) t else d
        let a := accAdd x.acc o (ctuCentre w tile x.ctu)
        let x' := { x with acc := a, plan := rest, held := x.held ++ o.bytes, entropy := o.entropy
                           atCtu := if x.acc.cus = 0 then x.entropy else x.atCtu }
        let d := modEncRun d t (fun r => { r with
          recon := putCu w r.recon o, cus := r.cus ++ [o.cu], tiles := tset TileRun.reset tile x' r.tiles
          budgets := tset Budget.reset (if isEncr w then 0 else tile) b r.budgets })
        let d := microTo d (tileEngine w tile) .bnd (cuSources d w r tile b o (rest == []))
        if rest ≠ [] then d
        else if !b.minimal && breaksHard w r b tile a.bits then
          -- the coded CTU is discarded, and coded again from the state at its start (R163)
          let m := minimalCtu (coderAt d w r b tile x.ctu)
            { recon := r.recon, cus := cusOutside w tile x.ctu r.cus, entropy := x'.atCtu, out := [], cost := 0 }
          let d := modEncRun d t (fun r => { r with recon := m.recon, cus := m.cus })
          commitCtu d w t tile { b with minimal := true }
            (m.out.foldl (fun a o => accAdd a o (ctuCentre w tile x.ctu)) CtuAcc.reset) m.entropy (m.out.flatMap (·.bytes))
        else commitCtu d w t tile b a o.entropy x'.held
  | _, _ => d

/-! Rows of an ENCR (R124–R127). -/

/-- CTU row k of an ENCR starts; with row 0 the ROI map is copied (R125, R151). -/
def encrRow (d : Device) (t k : Nat) : Device :=
  match woAt d t, encRunAt d t with
  | some w, some r =>
    let n := max 1 (woField w 21 1)
    if !isEncr w ∨ w.phase ≠ .running ∨ tileCount w ≤ k ∨ (runTile r k).started ∨ (engineAt d (tileEngine w k)).cur ≠ some t ∨
        !(upto 0 k).all (fun j => j % n != k % n || tileDone w r j) ∨
        !(encCodec w == 2 || k == 0 || tileDone w r (k - 1) || decide (2 ≤ (runTile r (k - 1)).ctu)) then d
    else
      match rowsThere d w k with
      | (d, false) => d
      | (d, true) =>
        let roi := roiMap d w
        let entropy := if encCodec w = 2 ∨ k = 0 then Config.entropyInit (encCodec w) r.type r.head.qp
          else Config.wppInit (encCodec w) r.type r.head.qp (runTile r (k - 1)).sync
        modEncRun d t (fun r => { r with
          tiles := tput k { runTile r k with started := true, entropy := entropy } r.tiles
          roi := if k = 0 then roi else r.roi, classes := if k = 0 then roiClasses w roi else r.classes })
  | _, _ => d

/-! The end of coding (R96, R109, R117, R156). -/

/-- Extent k of the list: handle, offset, length. -/
def extentBytes (e : Nat × Nat × Nat) : List Byte := leBytes 4 e.1 ++ leBytes 4 e.2.1 ++ leBytes 4 e.2.2 ++ leBytes 4 0

/-- The extents of a coded picture in list order (R117). -/
def encExtents (d : Device) (w : WorkOrder) (r : EncRun) : List (Nat × Nat × Nat) :=
  (woHandle w 1, encOff w + 8192, r.header - r.suffix) ::
    (upto 0 (tileCount w)).map (fun t => let (h, o, _) := stageOf d w t; (h, o, tileLen w r t)) ++
    (if hasSuffix w then [(woHandle w 1, encOff w + 8192 + (r.header - r.suffix), r.suffix)] else [])

/-- The extent list (R117). -/
def extentList (d : Device) (w : WorkOrder) (r : EncRun) : List Byte :=
  let es := encExtents d w r
  leBytes 2 es.length ++ leBytes 2 (ofFlag (r.type == 0) + 2 * ofFlag (bitOf (encCtrl w) 3)) ++
    leBytes 4 ((es.map (fun e => e.2.2)).foldl (· + ·) 0) ++ leBytes 8 (sfTime w.surfIn) ++ es.flatMap extentBytes

/-- The prefix of a coded picture: its units, then the slice or frame header with the entry points of its tiles (R117). -/
def prefixBytes (w : WorkOrder) (fref : Int) (r : EncRun) (planes : List Rows) : List Byte :=
  let lens := (upto 0 (tileCount w)).map (tileLen w r)
  (prefixUnits w fref r.type r.pic r.classes planes).flatMap (framed w) ++
    (if encCodec w = 3 then []
     else framedWith w (headOf w fref { r.head with entryPoints := if encCodec w = 2 then [] else lens }) (lens.foldl (· + ·) 0))

/-- The pieces written when a picture's coding ends: the prefix, AV1 tile sizes, the suffix, and last the extent list. -/
def endPieces (d : Device) (w : WorkOrder) (r : EncRun) (pre suffix : List Byte) : List (Nat × Nat × List Byte) :=
  (woHandle w 1, encOff w + 8192, pre) :: (if encCodec w = 2 then (upto 0 (tileCount w - 1)).map (fun t => let (h, o, _) := stageOf d w t; (h, o, leBytes 4 ((runTile r t).bytes - 1)))
   else []) ++
    (if hasSuffix w then [(woHandle w 1, encOff w + 8192 + (r.header - r.suffix), suffix)] else []) ++
    [(woHandle w 1, encOff w, extentList d w r)]

/-- Write pieces of buffers in turn; false at the first that fails. -/
def writeAll (req : Nat) : List (Nat × Nat × List Byte) → Device → Device × Bool
  | [], d => (d, true)
  | (h, o, b) :: r, d =>
    match bufWrite d req h o b with
    | (d, true) => writeAll req r d
    | (d, false) => (d, false)

/-- Reference pictures kept after one more (R98): NUM_REF of them, first those that pictures still to come must have, which are the two latest
anchors where B pictures occur and the latest key picture under LTR, then the most recent. A key picture that is no CRA ends the use of those before it. -/
def refsAfter (w : WorkOrder) (s : EncStream) (e : RefPic) : List RefPic :=
  let n := woField w 109 1
  let all := e :: (if e.isKey ∧ picKind w 0 ≠ .cra then [] else s.refs)
  let must := (if encGopB w = 0 then [] else (all.filter (fun q => q.anchor)).take 2)
  let must := match if bitOf (woField w 110 1) 2 then all.find? (fun q => q.isKey) else none with
    | some k => if must.contains k then must else must ++ [k]
    | none => must
  let must := must.take (n + 1)
  let more := (all.filter (fun q => !must.contains q)).take (n - must.length)
  all.filter (fun q => must.contains q || more.contains q)

/-- The slot a reference picture takes: the next one in rotation that no picture kept with it holds; none when it is itself not kept and no slot
is left (R98). -/
def refSlot (w : WorkOrder) (s : EncStream) (keep : List RefPic) (pic : Nat) : Option Nat :=
  let n := woField w 109 1 + 1
  let last := (s.refs.head?.map (·.slot)).getD (n - 1)
  ((upto 1 n).map (fun i => (last + i) % n)).find? (fun k => keep.all (fun e => e.pic == pic || e.slot != k))

/-- The reconstruction of a coded picture: to its reference slot, unless it is a non-reference B picture, and to SURF_OUT (R98, R113, R238). -/
def putRecon (d : Device) (w : WorkOrder) (r : EncRun) : Device :=
  let planes := finalPlanes w r.recon
  let d := match tfind r.key d.codec.encs with
    | some s =>
      if encGop w = 1 ∨ woField w 144 8 = 0 ∨ r.type = 4 then d
      else
        let e : RefPic := { slot := 0, pic := r.pic, disp := r.disp, frame := sfFrame w.surfIn, isKey := r.type == 0, anchor := decide (r.type ≤ 2), cus := r.cus }
        let keep := refsAfter w s e
        match refSlot w s keep r.pic with
        | none => d
        | some slot =>
          let sf := refSurface w (fieldAt (woExtraOf w 144) (4 * slot) 4)
          let d := (surfaceWrite d (engineReq w.unit) sf 0 (codedSize w).2 planes).1
          modEnc d r.key (fun s => { s with refs := keep.map (fun q => if q.pic = r.pic then { q with slot := slot } else q) })
    | none => d
  if woField w 48 8 = 0 then d
  else (surfaceWrite d (engineReq w.unit) w.surfOut 0 (sfHeight w.surfOut) planes).1

/-- Coded bits of a picture (R156). -/
def runBits (w : WorkOrder) (r : EncRun) : Nat :=
  (r.budgets.map (fun e => e.2.spent)).foldl (· + ·) 0 + (if isEncr w then 0 else r.start) + 8 * r.suffix

/-- The rate state, class history and sequence after a coded picture (R96, R156–R158). -/
def encAdvance (d : Device) (w : WorkOrder) (r : EncRun) : Device :=
  modEnc d r.key (fun s =>
    let s := rateAfter w s r.target r.limit (runBits w r)
    let m : RateMemo := { cls := typeClass r.type, qp := runQp r, bits := runBits w r }
    encPrune { s with memos := m :: s.memos.filter (fun q => q.cls ≠ m.cls), busy := none
                      pics := s.pics.map (fun q => if q.ticket = r.ticket then { q with coded := true } else q) })

/-- The verify engines are idle. -/
def verifyIdle (d : Device) (w : WorkOrder) : Bool :=
  (verifyEngines w).all (fun u => !engineHeld d u && (engineAt d u).cur == none && (engineAt d u).susp.isEmpty)

/-- Verification takes its engines when they are idle (R109). -/
def verifyTake (d : Device) (w : WorkOrder) : Device :=
  if verifyIdle d w then
    let d := (verifyEngines w).foldl (fun d u => setEngine d u { engineAt d u with cur := some w.ticket }) d
    let d := modWo d w.ticket (fun w => { w with low := (verifyEngines w).foldl min w.low })
    modEncRun d w.ticket (fun r => { r with verify := true })
  else d

/-- What follows when all of a coded picture's output has left: verification, or the end (R109, R166, R174).
DESIGN CHOICE: with VFY_COUNT > 0 a picture in ring mode, which has no extents, is verified from the bytes it pushed (log entry 80). -/
def encNextStage (d : Device) (t : Nat) : Device :=
  match woAt d t, encRunAt d t with
  | some w, some r =>
    if !r.coded ∨ r.queue ≠ [] then d
    else if woField w 76 1 = 0 then encOver d t (if r.fault then 0x61 else if runShort r then 0x03 else 0x00) (runFlags r false)
    else verifyTake d w
  | _, _ => d

/-- Every tile of a picture is coded: its prefix, its hash, its extent list, its reconstruction and its stream's state are written (R96, R103, R112,
R117). -/
def encCoded (d : Device) (t : Nat) : Device :=
  match woAt d t, encRunAt d t with
  | some w, some r =>
    if !isEnc w ∨ w.phase ≠ .running ∨ r.coded ∨ r.queue ≠ [] ∨ !(upto 0 (tileCount w)).all (tileDone w r) then d
    else
      let planes := finalPlanes w r.recon
      let fref := runFref d r
      let sfx := suffixUnit w planes
      let pre := prefixBytes w fref r planes
      if encRing w then
        let r := pumpTiles d w (tileCount w + 1) (openStream d w fref planes r)
        let r := if hasSuffix w then putUnit d w true r sfx else r
        let r := { r with coded := true, suffix := sfx.length }
        let d := encAdvance (putRecon (encStats (modEncRun d t (fun _ => r)) w r) w r) w r
        encNextStage (pushRun (freeEngines d t) w t) t
      else
        let sfx := framed w sfx
        if 57344 < pre.length + sfx.length then encStop d t 0x20
        else
          let r := { r with suffix := sfx.length, header := pre.length + sfx.length }
          match writeAll (engineReq w.unit) (endPieces d w r pre sfx) d with
          | (d, false) => encStop d t 0x20
          | (d, true) =>
            let r := { r with coded := true }
            let d := encAdvance (putRecon (encStats (modEncRun d t (fun _ => r)) w r) w r) w r
            encNextStage (freeEngines d t) t
  | _, _ => d

/-- An encoder that waits for ring space pushes its entries (R119). -/
def encPush (d : Device) (t : Nat) : Device :=
  match woAt d t with
  | some w => encNextStage (pushRun d w t) t
  | none => d

/-- The rectangle of a tile cut from planes of the coded picture. -/
def tilePlanes (w : WorkOrder) (t : Nat) (planes : List Rows) : List Rows :=
  ((upto 0 planes.length).zip planes).map (fun e => cutBlock e.2 (planeBlock w e.1 (tileBlock w t)))

/-- Tile t of the verifier's output matches: it was decoded without an error, and its hash is that of the encoder's reconstruction (R109, R191). -/
def tileMatches (w : WorkOrder) (planes : List Rows) (decoded : Table (List Rows)) (t : Nat) : Bool :=
  match tfind t decoded with
  | some p =>
    planeHashes (encCodec w) (woField w 77 1) (encDepth w) p ==
      planeHashes (encCodec w) (woField w 77 1) (encDepth w) (tilePlanes w t planes)
  | none => false

/-- The picture as the verifier decoded it; a tile it could not decode is open. -/
def verifierPlanes (d : Device) (w : WorkOrder) (planes : List Rows) (decoded : Table (List Rows)) : List Rows :=
  (upto 0 (tileCount w)).foldl (fun (acc : List Rows) t =>
    ((upto 0 acc.length).zip acc).map (fun e =>
      let b := planeBlock w e.1 (tileBlock w t)
      let got := match tfind t decoded with
        | some p => fitRows (encDepth w) b ((p[e.1]?).getD [])
        | none => genRows b.w b.h (fun x y => free d (2 ^ 41 + e.1 * 2 ^ 36 + (b.y + y) * 2 ^ 16 + b.x + x) % 2 ^ encDepth w)
      putBlock e.2 b.x b.y got)) planes

/-- The verifier's own decoded reference of a picture, in the second half of REF_TABLE (R98). -/
def verifierRef (d : Device) (w : WorkOrder) (r : EncRun) (planes : List Rows) : Device :=
  match (tfind r.key d.codec.encs).bind (fun s => s.refs.find? (fun e => e.pic == r.pic)) with
  | none => d
  | some e =>
    let h := fieldAt (woExtraOf w 144) (4 * (e.slot + woField w 109 1 + 1)) 4
    (surfaceWrite d (engineReq (woField w 75 1)) (refSurface w h) 0 (codedSize w).2 planes).1

/-- The verify engines have decoded a picture's extents: `decoded` holds the samples of each tile they decoded without an error (R109, R191). A
verification that waited for its engines takes them first. -/
def verifyEnd (d : Device) (t : Nat) (decoded : Table (List Rows)) : Device :=
  match woAt d t, encRunAt d t with
  | some w, some r =>
    if !r.coded ∨ r.queue ≠ [] ∨ woField w 76 1 = 0 then d
    else if !r.verify then verifyTake d w
    else if !(verifyEngines w).all (fun u => (engineAt d u).cur == some t) then d
    else
      let planes := finalPlanes w r.recon
      let n := ((upto 0 (tileCount w)).filter (fun k => !tileMatches w planes decoded k)).length
      let d := (upto 0 (tileCount w)).foldl (fun d k =>
        let e := verifyEngine w k
        perfEvent d 2 2 e ((tileSize w k).1 * (tileSize w k).2) (ctxAt d w.ctx).isSealed t e) d
      let d := modEncRun d t (fun r => { r with bad := n })
      let d := verifierRef d w r (verifierPlanes d w planes decoded)
      encOver d t (if r.fault then 0x61 else if n ≠ 0 then 0x60 else if runShort r then 0x03 else 0x00) (runFlags r (n == 0))
  | _, _ => d

/-! Commands. -/

/-- ENC_PICTURE_START. -/
def execEncPictureStart (t : Nat) (_ _ : NoInput) (s : State) : Host.Outcome State Fault Refusal := done s (encStart s.dev t)

/-- ENC_CU: `fail` is the error an engine that has failed leaves after a lossless recode (R172). -/
def execEncCu (t tile fail : Nat) (s : State) : Host.Outcome State Fault Refusal := done s (encCu s.dev t tile fail)

/-- ENC_PICTURE_CODED. -/
def execEncPictureCoded (t : Nat) (_ : NoInput) (s : State) : Host.Outcome State Fault Refusal := done s (encCoded s.dev t)

/-- ENC_RING_PUSH. -/
def execEncRingPush (t : Nat) (s : State) : Host.Outcome State Fault Refusal := done s (encPush s.dev t)

/-- ENCR_ROW_START. -/
def execEncrRowStart (t k : Nat) (s : State) : Host.Outcome State Fault Refusal := done s (encrRow s.dev t k)

/-- VERIFY_END. -/
def execVerifyEnd (t : Nat) (decoded : List (Nat × List (List (List Nat)))) (s : State) : Host.Outcome State Fault Refusal :=
  done s (verifyEnd s.dev t decoded)

end Sys2Proof.Machine
end

