-- ==== Sys2Proof/Machine/Ana.lean ====
section
/-! DEFINITION. The analysis unit (R128–R141): an ANA's checks, its pyramid, its search, the global model, the field and statistics. -/

namespace Sys2Proof.Machine

/-! The analysis plane and its pyramid (R128, R129). -/

/-- The scale factor a. -/
def anaScale (w : WorkOrder) : Nat := if isCfa (sfFormat w.surfIn) then 2 else 1

/-- Wa and Ha. -/
def anaSize (w : WorkOrder) : Nat × Nat := (sfWidth w.surfIn / anaScale w, sfHeight w.surfIn / anaScale w)

/-- SEARCH_LEVEL. -/
def anaLevel (w : WorkOrder) : Nat := woField w 65 1

/-- The truss of an ANA that has been placed. -/
def anaTruss (w : WorkOrder) : Nat := trussOf w.unit

/-- Width or height of level l. -/
def levelDim (n l : Nat) : Nat := (n + 2 ^ l - 1) / 2 ^ l

/-- Bytes of the Ashlar region, P of R131. -/
def anaRegion (w : WorkOrder) : Nat :=
  let (wa, ha) := anaSize w
  roundUp 4096 (4096 + 2 * ((upto (anaLevel w) (4 - anaLevel w)).map (fun l => levelDim wa l * levelDim ha l)).foldl (· + ·) 0)

/-- The analysis plane (R128). -/
def anaPlane (d : Device) (w : WorkOrder) : Rows :=
  let (wa, ha) := anaSize w
  let r := surfRows d w.surfIn 0
  if anaScale w = 2 then
    genRows wa ha (fun x y => (px r (2 * x) (2 * y) + px r (2 * x + 1) (2 * y) + px r (2 * x) (2 * y + 1) + px r (2 * x + 1) (2 * y + 1) + 2) / 4)
  else r

/-- The next level: rounded means of 2 × 2 samples, edge samples repeated. -/
def halve (r : Rows) (pw ph : Nat) : Rows :=
  genRows pw ph (fun x y =>
    (padPx r (2 * x) (2 * y) + padPx r (2 * x + 1) (2 * y) + padPx r (2 * x) (2 * y + 1) + padPx r (2 * x + 1) (2 * y + 1) + 2) / 4)

/-- Level l of the pyramid of a plane of depth f (R129). -/
def pyramid (f wa ha : Nat) (r : Rows) : Nat → Rows
  | 0 => r.map (fun q => q.map (fun s => s / 2 ^ (f - 8)))
  | l + 1 => halve (pyramid f wa ha r l) (levelDim wa (l + 1)) (levelDim ha (l + 1))

/-! Acceptance (R130–R133). -/

/-- View entry i. -/
def anaView (w : WorkOrder) (i : Nat) : List Byte := (w.raw.drop (72 + 16 * i)).take 16

/-- Views in use. -/
def anaViews (w : WorkOrder) : List (List Byte) := ((upto 0 4).map (anaView w)).filter (fun v => fieldAt v 0 2 != 0)

/-- A used view (R132, R133). -/
def viewOk (w : WorkOrder) (v : List Byte) : Bool :=
  let vw := fieldAt v 0 2
  let vh := fieldAt v 2 2
  let cw := fieldAt v 8 2
  let ch := fieldAt v 10 2
  vw % 2 == 0 && vh % 2 == 0 && decide (16 ≤ vw) && decide (16 ≤ vh) && decide (fieldAt v 4 2 + cw ≤ sfWidth w.surfIn) &&
    decide (fieldAt v 6 2 + ch ≤ sfHeight w.surfIn) && decide (vw ≤ cw) && decide (cw ≤ 16 * vw) && decide (vh ≤ ch) &&
    decide (ch ≤ 16 * vh) && zeroAt v 12 4

/-- COLS and ROWS (R137). -/
def anaGrid (w : WorkOrder) : Nat × Nat := let (wa, ha) := anaSize w; ((wa + 15) / 16, (ha + 15) / 16)

/-- Columns and rows of 64 × 64 statistics blocks (R140). -/
def anaBlocks (w : WorkOrder) : Nat × Nat := let (wa, ha) := anaSize w; ((wa + 63) / 64, (ha + 63) / 64)

/-- The checks of R133: 0 or the status of the first failure. -/
def anaChecks (d : Device) (w : WorkOrder) : Nat :=
  let c := woField w 64 1
  let (cols, rows) := anaGrid w
  let (bc, br) := anaBlocks w
  let off := woField w 68 4
  let vs := anaViews w
  if !(decide (c < 8) && decide (1 ≤ anaLevel w) && decide (anaLevel w ≤ 3) && zeroAt w.raw 66 2 && zeroAt w.raw 136 120 &&
      woHandle w 0 == sfHandle w.surfIn && woField w 40 8 != 0 && bitOf c 1 == (handleGen (woHandle w 2) != 0) &&
      (woField w 20 1 != 0xFF || bitOf c 0)) then 0x31
  else if !(vs.all (viewOk w) && noRepeat (vs.map (fun v => fieldAt v 0 4))) then 0x31
  else if !(bufHolds d (woHandle w 1) (4096 + 8 * (cols * rows)) &&
      (!bitOf c 1 || bufHolds d (woHandle w 2) (512 + 32 * (bc * br)))) then 0x20
  else if !(off % 4096 == 0 && decide (off + anaRegion w ≤ 8388608) &&
      (upto (off / 4194304) ((off + anaRegion w - 1) / 4194304 + 1 - off / 4194304)).all (fun k =>
        (bankAt d (2 * anaTruss w + k)).owner == anaTruss w)) then 0x20
  else 0

/-! Search (R137). -/

/-- SAD of an n × n block of one level at a vector. -/
def blockSad (cur prev : Rows) (x y n : Nat) (v : Vect) : Nat :=
  ((upto y n).flatMap (fun (j : Nat) => (upto x n).map (fun (i : Nat) =>
    (padAt cur i j - padAt prev ((i : Int) + v.1) ((j : Int) + v.2)).natAbs))).foldl (· + ·) 0

/-- The vectors within ±m of a centre. -/
def windowAt (c : Vect) (m : Nat) : List Vect :=
  (upto 0 (2 * m + 1)).flatMap (fun (j : Nat) => (upto 0 (2 * m + 1)).map (fun (i : Nat) => (c.1 + i - m, c.2 + j - m)))

/-- The best vector of groups examined one after the other: the lowest cost wins, an earlier group wins a tie; the order within a
group is not stated, so a free number picks among its equals. -/
def bestOf (cost : Vect → Nat) (pick : Nat) (groups : List (List Vect)) : Vect × Nat :=
  let low := (groups.map (fun g => (g.map cost).min?)).filterMap id
  match low.min? with
  | none => ((0, 0), 0)
  | some m =>
    let ties := (groups.find? (fun g => g.any (fun v => cost v == m))).getD []
    let eq := ties.filter (fun v => cost v == m)
    ((eq[pick % max 1 eq.length]?).getD (0, 0), m)

/-- Twice a vector. -/
def twice (v : Vect) : Vect := (2 * v.1, 2 * v.2)

/-- The vector of each level-3 block, in raster order. -/
def search3 (pick : Nat → Nat) (cur prev : Rows) (bc br : Nat) : List Vect :=
  (upto 0 (bc * br)).map (fun k =>
    (bestOf (blockSad cur prev (8 * (k % max 1 bc)) (8 * (k / max 1 bc)) 8) (pick k) [windowAt (0, 0) 16]).1)

/-- The level-3 vector of a block, if it exists. -/
def vec3 (vs : List Vect) (bc br : Nat) (x y : Int) : List Vect :=
  if 0 ≤ x ∧ x < bc ∧ 0 ≤ y ∧ y < br then [(vs[y.toNat * bc + x.toNat]?).getD (0, 0)] else []

/-- Vector and level SAD of the field block in a column and row. `lv l` gives level l of the current and the previous picture. -/
def searchBlock (pick : Nat → Nat) (lv : Nat → Rows × Rows) (level : Nat) (vs : List Vect) (bc br c r : Nat) : Vect × Nat :=
  let bx : Int := (c / 4 : Nat)
  let by_ : Int := (r / 4 : Nat)
  let parent := (vec3 vs bc br bx by_).headD (0, 0)
  if level = 3 then (parent, blockSad (lv 3).1 (lv 3).2 (2 * c) (2 * r) 2 parent)
  else
    let sides := (vec3 vs bc br (bx - 1) by_ ++ vec3 vs bc br (bx + 1) by_ ++ vec3 vs bc br bx (by_ - 1) ++ vec3 vs bc br bx (by_ + 1)).map twice
    let two := bestOf (blockSad (lv 2).1 (lv 2).2 (4 * c) (4 * r) 4) (pick 0) [windowAt (twice parent) 2, sides.flatMap (fun v => windowAt v 2)]
    if level = 2 then two
    else bestOf (blockSad (lv 1).1 (lv 1).2 (8 * c) (8 * r) 8) (pick 1) [windowAt (twice two.1) 2]

/-! Complexity (R139). -/

/-- The mean-removed 8 × 8 Hadamard SATD at a place: the sum of the magnitudes of all coefficients but the first. -/
def satd8 (r : Rows) (x y : Nat) : Nat :=
  ((hadamard 6 ((upto y 8).flatMap (fun j => (upto x 8).map (fun i => ((padPx r i j : Nat) : Int))))).drop 1).foldl (fun a c => a + c.natAbs) 0

/-- S of a field block (R139). -/
def complexity (r : Rows) (c y : Nat) : Nat :=
  satd8 r (16 * c) (16 * y) + satd8 r (16 * c + 8) (16 * y) + satd8 r (16 * c) (16 * y + 8) + satd8 r (16 * c + 8) (16 * y + 8)

/-! The global model (R138). -/

/-- A field entry for the fit: twice its centre relative to the middle of the plane, and its vector. -/
structure FitPoint where
  p : Int
  q : Int
  u : Int
  v : Int
  deriving DecidableEq, Repr

/-- The fitted parameters as fractions over `den`: TX, TY and, per half sample, A and B. -/
structure Fit where
  tx : Int
  ty : Int
  a : Int
  b : Int
  den : Int
  deriving DecidableEq, Repr

/-- A sum over points. -/
def sumOver (l : List FitPoint) (f : FitPoint → Int) : Int := l.foldl (fun s e => s + f e) 0

/-- The least-squares fit of the four-parameter model.
DESIGN CHOICE: where the fit is singular, all centres being one, A and B are 0 and TX, TY the mean vector; R138 says nothing of it
(log entry 81). -/
def fitOnce (l : List FitPoint) : Fit :=
  let n : Int := (l.length : Nat)
  let sp := sumOver l (·.p)
  let sq := sumOver l (·.q)
  let su := sumOver l (·.u)
  let sv := sumOver l (·.v)
  let s2 := sumOver l (fun e => e.p * e.p + e.q * e.q)
  let k := n * s2 - sp * sp - sq * sq
  let a := n * sumOver l (fun e => e.p * e.u + e.q * e.v) - sp * su - sq * sv
  let b := n * sumOver l (fun e => e.p * e.v - e.q * e.u) + sq * su - sp * sv
  if k = 0 then { tx := su, ty := sv, a := 0, b := 0, den := max 1 n }
  else { tx := su * k - a * sp + b * sq, ty := sv * k - b * sp - a * sq, a := n * a, b := n * b, den := n * k }

/-- Squared residual of a point, over den². -/
def residual (f : Fit) (e : FitPoint) : Nat :=
  let x := e.u * f.den - f.tx - f.a * e.p + f.b * e.q
  let y := e.v * f.den - f.ty - f.b * e.p - f.a * e.q
  (x * x + y * y).toNat

/-- Insert into a rising list, repeats kept. -/
def insertUp (k : Nat) : List Nat → List Nat
  | [] => [k]
  | a :: r => if k ≤ a then k :: a :: r else a :: insertUp k r

/-- The points a next pass keeps: those whose residual is at most twice the median. For an even number of points the median may be
either middle one. -/
def fitKeep (pick : Nat) (all kept : List FitPoint) (f : Fit) : List FitPoint :=
  let sorted := (kept.map (residual f)).foldr insertUp []
  let n := sorted.length
  let m := (sorted[if n % 2 = 1 then n / 2 else n / 2 - pick % 2]?).getD 0
  all.filter (fun e => decide (residual f e ≤ 4 * m))

/-- A fraction times 65,536 as a 32-bit number: the value itself where it is whole; otherwise its rounding is open. -/
def toFixed (pick : Nat) (n den : Int) : Int := n * 65536 / den + (if n * 65536 % den = 0 then 0 else (pick % 2 : Nat))

/-- TX, TY, A, B, INLIERS after three passes (R138). Points are given at twice their distance, so A and B are doubled here.
DESIGN CHOICE: the points are the entries whose COST is not 0xFFFF; the median of a pass is over the entries that it fitted, and an entry
excluded in pass 2 returns in pass 3 when its residual allows it (log entry 81). -/
def globalFit (pick : Nat → Nat) (pts : List FitPoint) : List Int × Nat :=
  let f1 := fitOnce pts
  let k2 := fitKeep (pick 0) pts pts f1
  let f2 := fitOnce k2
  let k3 := fitKeep (pick 1) pts k2 f2
  let f3 := fitOnce k3
  ([toFixed (pick 2) f3.tx f3.den, toFixed (pick 3) f3.ty f3.den, toFixed (pick 4) (2 * f3.a) f3.den, toFixed (pick 5) (2 * f3.b) f3.den], k3.length)

/-! Running. -/

/-- The requester of an analysis unit. -/
def anaReq (w : WorkOrder) : Nat := engineReq w.unit

/-- Device address of the Ashlar region (R130). -/
def anaBase (w : WorkOrder) : Nat := 0x080000000000 + 2 * anaTruss w * 0x400000 + woField w 68 4

/-- The state at ASH_OFFSET, when it is there and fits (R134). -/
def anaFind (d : Device) (w : WorkOrder) : Option AnaStream :=
  d.codec.anas.find? (fun a => a.truss == anaTruss w && a.off == woField w 68 4 && (a.wa, a.ha) == anaSize w && a.level == anaLevel w &&
    bytesAt d (anaBase w) a.mark.length == a.mark)

/-- The analysis unit starts an ANA: it looks for its state and writes STATE 0 (R134, R139). -/
def anaStart (d : Device) (t : Nat) : Device :=
  match woAt d t with
  | none => d
  | some w =>
    if w.kind ≠ .ana ∨ !canStart d w then d
    else
      let init := bitOf (woField w 64 1) 0
      let found := (anaFind d w).isSome
      let d := takeEngines d w
      let d := { d with codec := { d.codec with anaRuns := d.codec.anaRuns ++ [{ ticket := t, asInit := init || !found, forced := !init && !found }] } }
      (bufWrite d (anaReq w) (woHandle w 1) 6 (leBytes 1 0)).1

/-- RESULT of an ANA (R136). -/
def anaResult (w : WorkOrder) (entries inliers flags mean : Nat) : List Byte :=
  leBytes 4 entries ++ leBytes 4 inliers ++ leBytes 2 flags ++ leBytes 2 mean ++ leBytes 4 (sfFrame w.surfIn)

/-- The truss on which an ANA ends: none for one that ends before the dispatcher has chosen it (R74, R80). -/
def anaPlaced (w : WorkOrder) : Bool := (w.phase != .dispatched || woField w 20 1 != 0xFF) && decide (135 ≤ w.unit) && decide (w.unit < 147)

/-- An ANA is over, in whatever phase it stood: ANA_DONE of its truss counts it (R145). -/
def anaOver (d : Device) (w : WorkOrder) (status : Nat) (result : List Byte) : Device :=
  let d := freeEngines d w.ticket
  let d := { d with codec := { d.codec with
    anaRuns := d.codec.anaRuns.filter (fun r => r.ticket ≠ w.ticket)
    anaDone := if anaPlaced w then bump 65536 (anaTruss w) d.codec.anaDone else d.codec.anaDone } }
  finishWo d w.ticket status 0 result

/-- What an ANA computes: field entries as (vector, COST, CPLX, S), and the model. -/
structure AnaOut where
  entries : List (Vect × Nat × Nat × Nat)
  model : List Int
  inliers : Nat
  valid : Bool
  dist : Nat
  seq : Nat
  deriving DecidableEq, Repr

/-- The field of an ANA (R137–R139). `old` is the state it continues, none when it runs as INIT.
DESIGN CHOICE: SEQ counts the INIT ANA itself, which gets 1 (log entry 82). -/
def anaField (d : Device) (w : WorkOrder) (plane : Rows) (levels : Nat → Rows) (old : Option AnaStream) : AnaOut :=
  let f := fmtDepth (sfFormat w.surfIn)
  let (cols, rows) := anaGrid w
  let bc := (cols + 3) / 4
  let br := (rows + 3) / 4
  let dist := match old with
    | some a => let n := (sfFrame w.surfIn + 2 ^ 32 - a.frame) % 2 ^ 32; if n ≤ 65535 then n else 0
    | none => 0
  let prev := fun (l : Nat) => match old with | some a => (a.levels[l - anaLevel w]?).getD [] | none => []
  let vs := if dist = 0 then [] else search3 (fun k => free d (2 ^ 41 + k)) (levels 3) (prev 3) bc br
  let entries := (upto 0 (cols * rows)).map (fun i =>
    let s := complexity plane (i % max 1 cols) (i / max 1 cols)
    let cplx := min 65535 (s / 2 ^ (f - 6))
    if dist = 0 then (((0, 0) : Vect), 0xFFFF, cplx, s)
    else
      let (v, sad) := searchBlock (fun k => free d (2 ^ 42 + 2 * i + k)) (fun l => (levels l, prev l)) (anaLevel w) vs bc br (i % max 1 cols) (i / max 1 cols)
      let m : Int := ((2 ^ anaLevel w : Nat) : Int)
      ((v.1 * m, v.2 * m), min 65535 (sad * 4 ^ anaLevel w), cplx, s))
  let (wa, ha) := anaSize w
  let good := ((upto 0 (cols * rows)).zip entries).filter (fun e => e.2.2.1 != 0xFFFF)
  let pts : List FitPoint := good.map (fun e =>
    { p := 2 * (16 * (e.1 % max 1 cols) + 8 : Nat) - (wa : Nat), q := 2 * (16 * (e.1 / max 1 cols) + 8 : Nat) - (ha : Nat), u := e.2.1.1, v := e.2.1.2 })
  let (model, inl) := if bitOf (woField w 64 1) 2 then globalFit (fun k => free d (130 + k)) pts else ([0, 0, 0, 0], 0)
  let valid := bitOf (woField w 64 1) 2 && decide (pts.length ≤ 2 * inl)
  { entries := entries, model := model, inliers := inl, valid := valid, dist := dist, seq := (match old with | some a => a.seq | none => 0) + 1 }

/-- An 8-byte field entry (R139). -/
def entryBytes (e : Vect × Nat × Nat × Nat) : List Byte := sBytes 2 e.1.1 ++ sBytes 2 e.1.2 ++ leBytes 2 e.2.1 ++ leBytes 2 e.2.2.1

/-- Bytes 0 to 31 of the header of the field: what it is of (R139). -/
def anaHeadId (w : WorkOrder) (o : AnaOut) (state : Nat) : List Byte :=
  leBytes 4 0x4C444946 ++ leBytes 2 1 ++ leBytes 1 state ++ leBytes 1 (anaScale w) ++ leBytes 4 o.seq ++ leBytes 4 (sfFrame w.surfIn) ++
    leBytes 8 (sfTime w.surfIn) ++ leBytes 2 (anaSize w).1 ++ leBytes 2 (anaSize w).2 ++ leBytes 2 (anaGrid w).1 ++ leBytes 2 (anaGrid w).2

/-- The field header with a STATE (R139). -/
def anaHeader (w : WorkOrder) (o : AnaOut) (state : Nat) : List Byte :=
  anaHeadId w o state ++ leBytes 2 o.dist ++ leBytes 1 (anaLevel w) ++ leBytes 1 (fmtDepth (sfFormat w.surfIn)) ++ leBytes 4 o.inliers ++
    o.model.flatMap (sBytes 4) ++ leBytes 2 (ofFlag o.valid) ++ leBytes 6 0 ++ (w.raw.drop 72).take 64 ++ leBytes 3968 0

/-- The statistics record of a 64 × 64 block (R141). -/
def anaRecord (w : WorkOrder) (plane : Rows) (o : AnaOut) (bx by_ : Nat) : List Byte :=
  let (cols, rows) := anaGrid w
  let (wa, ha) := anaSize w
  let at_ := fun (c r : Nat) => (o.entries[r * cols + c]?).getD ((0, 0), 0, 0, 0)
  let mine := (upto (4 * by_) (min 4 (rows - 4 * by_))).flatMap (fun r => (upto (4 * bx) (min 4 (cols - 4 * bx))).map (fun c => at_ c r))
  let centre := at_ (min (cols - 1) (4 * bx + 2)) (min (rows - 1) (4 * by_ + 2))
  let s := sumsOf plane (64 * bx) (64 * by_) (min 64 (wa - 64 * bx)) (min 64 (ha - 64 * by_))
  sBytes 2 (4 * centre.1.1) ++ sBytes 2 (4 * centre.1.2) ++ leBytes 4 0 ++
    leBytes 4 (min 0xFFFFFFFF ((mine.map (fun e => e.2.1)).foldl (· + ·) 0)) ++
    leBytes 4 (min 0xFFFFFFFF ((mine.map (fun e => e.2.2.2)).foldl (· + ·) 0)) ++ leBytes 4 (varianceOf s) ++ leBytes 4 0 ++ leBytes 2 0xFFFF ++
    leBytes 6 0

/-- The statistics buffer after `done` block rows: records, then the header (R140). -/
def anaStats (d : Device) (w : WorkOrder) (plane : Rows) (o : AnaOut) (done : Nat) : Device :=
  if !bitOf (woField w 64 1) 1 then d
  else
    let (bc, br) := anaBlocks w
    let n := min done br
    let d := (bufWrite d (anaReq w) (woHandle w 2) 512 ((upto 0 (n * bc)).flatMap (fun i => anaRecord w plane o (i % max 1 bc) (i / max 1 bc)))).1
    (bufWrite d (anaReq w) (woHandle w 2) 0
      (leBytes 4 0x54535453 ++ leBytes 1 1 ++ leBytes 1 2 ++ leBytes 1 6 ++ leBytes 1 0 ++ leBytes 4 (sfFrame w.surfIn) ++ leBytes 4 o.seq ++
        leBytes 8 (sfTime w.surfIn) ++ leBytes 2 bc ++ leBytes 2 br ++ leBytes 4 n ++ leBytes 1 0xFF ++
        leBytes 1 (fmtDepth (sfFormat w.surfIn)) ++ leBytes 222 0 ++ histBytes (plane.take (64 * n)) (fmtDepth (sfFormat w.surfIn)))).1

/-- The state a stream leaves in its region (R129, R131, R134); its layout is private, so the region's bytes are open. -/
def anaKeep (d : Device) (w : WorkOrder) (levels : Nat → Rows) (seq : Nat) : Device :=
  let (wa, ha) := anaSize w
  let n := anaRegion w
  let mark := (upto 0 64).map (fun i => Config.freeByte d.draw (anaBase w + i))
  let d := (unitWrite d (anaReq w) (anaBase w) ((upto 0 n).map (fun i => Config.freeByte d.draw (anaBase w + i)))).1
  let off := woField w 68 4
  let a : AnaStream :=
    { truss := anaTruss w, off := off, size := n, wa := wa, ha := ha, level := anaLevel w, seq := seq, frame := sfFrame w.surfIn
      levels := (upto (anaLevel w) (4 - anaLevel w)).map levels, mark := mark }
  -- a stream whose region overlaps keeps its state, but finds other samples in its pyramid (R134)
  let others := (d.codec.anas.filter (fun b => !(b.truss == a.truss && b.off == off))).map (fun b =>
    if b.truss = a.truss ∧ b.off < off + n ∧ off < b.off + b.size then
      { b with levels := b.levels.map (fun r => genRows (r.headD []).length r.length (fun x y => free d (2 ^ 43 + y * 2 ^ 16 + x) % 256)) } else b)
  { d with codec := { d.codec with anas := others ++ [a] } }

/-- An ANA reads its analysis plane, and no other (R128). -/
def anaRead (d : Device) (w : WorkOrder) : Device × Bool := planeRead d (anaReq w) w.surfIn 0

/-- What an ANA computes, and the pyramid it computes it from (R129, R137–R139). -/
def anaCompute (d : Device) (w : WorkOrder) (r : AnaRun) : Rows × (Nat → Rows) × AnaOut :=
  let (wa, ha) := anaSize w
  let plane := anaPlane d w
  let levels := pyramid (fmtDepth (sfFormat w.surfIn)) wa ha plane
  (plane, levels, anaField d w plane levels (if r.asInit then none else anaFind d w))

/-- MEAN_CPLX of the entries written (R136). -/
def meanCplx (l : List (Vect × Nat × Nat × Nat)) : Nat := ((l.map (fun e => e.2.2.1)).foldl (· + ·) 0 + l.length / 2) / max 1 l.length

/-- An ANA finishes (R136–R141). -/
def anaEnd (d : Device) (t : Nat) : Device :=
  match woAt d t, d.codec.anaRuns.find? (fun r => r.ticket == t) with
  | some w, some r =>
    if w.phase ≠ .running then d
    else
      match anaRead d w with
      | (d, false) => anaOver d w 0x20 (anaResult w 0 0 (ofFlag r.forced) 0)
      | (d, true) =>
        let (plane, levels, o) := anaCompute d w r
        match bufWrite d (anaReq w) (woHandle w 1) 4096 (o.entries.flatMap entryBytes) with
        | (d, false) => anaOver d w 0x20 (anaResult w 0 0 (ofFlag r.forced) 0)
        | (d, true) =>
          let d := anaStats d w plane o (anaBlocks w).2
          let d := anaKeep d w levels o.seq
          let d := (bufWrite d (anaReq w) (woHandle w 1) 0 (anaHeader w o 1)).1
          anaOver d w 0x00 (anaResult w o.entries.length o.inliers (ofFlag r.forced + 2 * ofFlag o.valid) (meanCplx o.entries))
  | _, _ => d

/-- An ANA stops at the end of a row of 64 × 64 blocks (R84, R140): the field entries and the statistics of `rows` block rows stay written, STATE
stays 0. -/
def anaStop (d : Device) (w : WorkOrder) (status rows : Nat) : Device :=
  match d.codec.anaRuns.find? (fun r => r.ticket == w.ticket) with
  | none => anaOver d w status (anaResult w 0 0 0 0)
  | some r =>
    let (plane, _, o) := anaCompute d w r
    let part := o.entries.take (4 * rows * (anaGrid w).1)
    let d := (bufWrite d (anaReq w) (woHandle w 1) 4096 (part.flatMap entryBytes)).1
    anaOver (anaStats d w plane o rows) w status (anaResult w part.length 0 (ofFlag r.forced) (meanCplx part))

/-- ANA_START. -/
def execAnaStart (t : Nat) (s : State) : Host.Outcome State Fault Refusal := done s (anaStart s.dev t)

/-- ANA_END. -/
def execAnaEnd (t : Nat) (s : State) : Host.Outcome State Fault Refusal := done s (anaEnd s.dev t)

end Sys2Proof.Machine
end

