-- ==== Sys2Proof/Machine/Dec.lean ====
section
/-! DEFINITION. Decoding and verification (R180–R201): what a DEC or VFY names, its checks, its start, its CTUs, concealment, missing
references, and its end. -/

namespace Sys2Proof.Machine

/-! Fields (R183). -/

/-- Ring mode. -/
def decRing (w : WorkOrder) : Bool := bitOf (woField w 65 1) 0

/-- CODEC. -/
def decCodec (w : WorkOrder) : Nat := woField w 64 1

/-- DPB_COUNT. -/
def decSlots (w : WorkOrder) : Nat := woField w 69 1

/-- VFY_MODE bit 1: source comparison. -/
def decCompares (w : WorkOrder) : Bool := bitOf (woField w 71 1) 1

/-- UNPACK. -/
def decUnpack (w : WorkOrder) : Bool := bitOf (woField w 70 1) 1

/-- The decode state of a state buffer. -/
def decStream (d : Device) (key : Nat) : DecStream := tget DecStream.reset key d.codec.decs

/-- Change the decode state of a state buffer. -/
def setDec (d : Device) (key : Nat) (s : DecStream) : Device :=
  { d with codec := { d.codec with decs := tset DecStream.reset key s d.codec.decs } }

/-- The extent list at IN_OFFSET of HANDLE0 (R117, R183): its first 16 bytes, and its extents when COUNT lies in range. A part that cannot be read
is left out. -/
def readExtents (w : WorkOrder) (s : Device × Records) : Device × Records :=
  let h := woHandle w 0
  let req := 24 + coreOf w.ctx
  if decRing w ∨ handleStatus s.1 (ctxOwner w.ctx) h ≠ 0 then s
  else match bufRead s.1 req h (woField w 76 4) 16 with
    | (d, none) => (d, s.2)
    | (d, some head) =>
      let n := fieldAt head 0 2
      if n = 0 ∨ 258 < n then (d, s.2 ++ [(76, head)])
      else match bufRead d req h (woField w 76 4 + 16) (16 * n) with
        | (d, none) => (d, s.2 ++ [(76, head)])
        | (d, some es) => (d, s.2 ++ [(76, head), (77, es)])

/-- Records of a DEC or VFY: slot descriptors; for a DEC the physical address of its output list; the extent list. -/
def decReads (d : Device) (w : WorkOrder) : Device × Records :=
  let s := readExtents w (readTable w.ctx 88 (woField w 88 8) 64 (min 17 (decSlots w)) (d, []))
  let a := woField w 96 8
  if w.kind ≠ .dec ∨ a = 0 then s
  else
    let parts := (upto 0 5).foldl (fun (e : Device × Bool × Nat) i =>
      match ctxAccess e.1 w.ctx (a + 32 * i) 32 .store with
      | (d, some (p, _)) => (d, e.2.1, if i = 0 then p else e.2.2)
      | (d, none) => (d, false, e.2.2)) (s.1, true, 0)
    (parts.1, if parts.2.1 then s.2 ++ [(96, leBytes 8 parts.2.2)] else s.2)

/-- The descriptor of slot i. -/
def slotSurf (w : WorkOrder) (i : Nat) : List Byte := ((woExtraOf w 88).drop (64 * i)).take 64

/-- Type-specific handles (R77). -/
def decHandles (w : WorkOrder) : List Nat := woField w 84 4 :: handlesOf (woExtraOf w 88) 64

/-- COUNT of the extent list. -/
def extentCount (w : WorkOrder) : Nat := fieldAt (woExtraOf w 76) 0 2

/-- The extents of the access unit: handle, offset, length. -/
def decExtents (w : WorkOrder) : List (Nat × Nat × Nat) :=
  (upto 0 (extentCount w)).map (fun i => let e := (woExtraOf w 77).drop (16 * i); (fieldAt e 0 4, fieldAt e 4 4, fieldAt e 8 4))

/-- The first row of R184, and what R186 asks of SURF_OUT. -/
def decFormatOk (w : WorkOrder) : Bool :=
  let v := woField w 71 1
  let o := w.surfOut
  decide (decCodec w ≤ 3) && decide (woField w 65 1 ≤ 3) && (decRing w || bitOf (woField w 65 1) 1) && decide (woField w 66 1 ≤ 1) &&
    decide (woField w 67 1 ≤ 3) && decide (woField w 68 1 ≤ 1) && decide (2 ≤ decSlots w) && decide (decSlots w ≤ 17) &&
    decide (woField w 70 1 < 8) && (if w.kind = .vfy then decide (1 ≤ v) && decide (v ≤ 3) else v == 0) && decide (woField w 72 2 ≤ 1023) &&
    decide (woField w 74 2 ≤ 8191) && (w.kind != .vfy || woField w 80 4 == 0) && zeroAt w.raw 104 152 &&
    (if w.kind = .vfy then woField w 96 8 == 0 else woField w 96 8 != 0 && woField w 96 8 % 32 == 0) && woField w 88 8 != 0 &&
    ((woField w 40 8 != 0) == bitOf v 1) &&
    (!hasRecord w.extra 76 || (decide (1 ≤ extentCount w) && decide (extentCount w ≤ 258))) &&
    (woField w 48 8 == 0 || !hasRecord w.extra 88 ||
      (sfWidth o == sfWidth (slotSurf w 0) && sfHeight o == sfHeight (slotSurf w 0) &&
        (if decUnpack w then sfFormat o == 0x02 && sfFormat (slotSurf w 0) == 0x01 else sfFormat o == sfFormat (slotSurf w 0))))

/-- Formats of a slot (R184). -/
def slotFormats : List Nat := [0x01, 0x10, 0x11, 0x12, 0x13]

/-- The second row of R184. -/
def slotsOk (w : WorkOrder) : Bool :=
  (upto 0 (decSlots w)).all (fun i =>
    let s := slotSurf w i
    slotFormats.contains (sfFormat s) && sfOk s && sfFormat s == sfFormat (slotSurf w 0) &&
      sfWidth s == sfWidth (slotSurf w 0) && sfHeight s == sfHeight (slotSurf w 0))

/-- The third row of R184, and the size of the state buffer (R182). -/
def decSpaceOk (d : Device) (w : WorkOrder) : Bool :=
  bufHolds d (woHandle w 2) 65536 && hasRecord w.extra 88 && (w.kind == .vfy || hasRecord w.extra 96) && (decRing w || hasRecord w.extra 77) &&
    (upto 0 (decSlots w)).all (fun i => handleGen (sfHandle (slotSurf w i)) != 0 && sfFits d (slotSurf w i))

/-- The checks of R184: 0 or the status of the first failure. -/
def decChecks (d : Device) (w : WorkOrder) : Nat :=
  if !decFormatOk w then 0x31
  else if hasRecord w.extra 88 && !slotsOk w then 0x31
  else if !decSpaceOk d w then 0x20
  else if decRing w && !((ringAt d (woField w 74 2)).en && (ringAt d (woField w 74 2)).consumer == ctxOwner w.ctx) then 0x42
  else 0

/-! Runs. -/

/-- The run of a ticket. -/
def decAt (d : Device) (t : Nat) : Option DecRun := d.codec.decRuns.find? (fun r => r.ticket == t)

/-- Change the run of a ticket. -/
def modDec (d : Device) (t : Nat) (f : DecRun → DecRun) : Device :=
  { d with codec := { d.codec with decRuns := d.codec.decRuns.map (fun r => if r.ticket = t then f r else r) } }

/-! The picture's layout (R187, R194). -/

/-- CTU columns and rows of a decoded picture. -/
def decGrid (h : DecHead) : Nat × Nat := ((h.width + h.ctu - 1) / max 1 h.ctu, (h.height + h.ctu - 1) / max 1 h.ctu)

/-- Number of CTUs. -/
def decCtus (h : DecHead) : Nat := (decGrid h).1 * (decGrid h).2

/-- The part that holds x, of parts of some lengths one after the other: its number, its start, its length. -/
def tilePartAt : List Nat → Nat → Nat → Nat → Nat × Nat × Nat
  | [], k, start, _ => (k, start, 0)
  | n :: r, k, start, x => if x < start + n then (k, start, n) else tilePartAt r (k + 1) (start + n) x

/-- The tile column and the tile row of CTU a, each as number, start and length. -/
def tileParts (h : DecHead) (a : Nat) : (Nat × Nat × Nat) × Nat × Nat × Nat :=
  let cols := max 1 (decGrid h).1
  (tilePartAt h.tileCols 0 0 (a % cols), tilePartAt h.tileRows 0 0 (a / cols))

/-- The tile that holds CTU a, in raster order. -/
def decTile (h : DecHead) (a : Nat) : Nat := let (c, r) := tileParts h a; r.1 * h.tileCols.length + c.1

/-- The place of CTU a in decoding order: tile after tile, each in raster order. -/
def ctuPlace (h : DecHead) (a : Nat) : Nat :=
  let cols := max 1 (decGrid h).1
  let (c, r) := tileParts h a
  r.2.1 * cols + r.2.2 * c.2.1 + (a / cols - r.2.1) * c.2.2 + (a % cols - c.2.1)

/-- Slice segments in the order of their headers, with whether each is sound: it begins after all that came before it, inside the picture, and its
entry points lie within its data (R193). -/
def segments (h : DecHead) : List (Nat × Bool) :=
  (h.slices.foldl (fun (acc : List (Nat × Bool) × Nat) s =>
    let good := decide (acc.2 ≤ s.1) && decide (s.1 < decCtus h) && s.2.1.all (fun e => decide (e < s.2.2))
    (acc.1 ++ [(s.1, good)], max acc.2 (s.1 + 1))) ([], 0)).1

/-- The slice segment that holds a place: its number and whether it is sound; none when no segment covers it. -/
def segmentOf (h : DecHead) (p : Nat) : Option (Nat × Bool) :=
  let l := (upto 0 h.slices.length).zip (segments h)
  ((l.filter (fun e => decide (e.2.1 ≤ p))).foldl (fun (b : Option (Nat × Nat × Bool)) e =>
    match b with | some c => if c.2.1 ≤ e.2.1 then some e else b | none => some e) none).map (fun e => (e.1, e.2.2))

/-- CTUs that are decoded one after the other: of one slice segment, tile and, where rows are decoded apart, row. -/
def sameRun (h : DecHead) (a b : Nat) : Bool :=
  let cols := max 1 (decGrid h).1
  segmentOf h (ctuPlace h a) == segmentOf h (ctuPlace h b) && decTile h a == decTile h b && (!h.rowWise || a / cols == b / cols)

/-- The engine that decodes CTU a (R187). -/
def decEngine (w : WorkOrder) (h : DecHead) (a : Nat) : Nat :=
  let n := if h.rowWise then a / max 1 (decGrid h).1
    else if decCodec w = 3 then ((segmentOf h (ctuPlace h a)).map (·.1)).getD 0 else decTile h a
  w.unit + n % max 1 (woField w 21 1)

/-- CTU a may be decoded: it is in the picture, its segment is sound, it is not done, what precedes it in its run is, and, with rows decoded apart, the
row above is two CTUs ahead (R187). -/
def decOpen (h : DecHead) (r : DecRun) (a : Nat) : Bool :=
  let cols := max 1 (decGrid h).1
  let p := ctuPlace h a
  decide (a < decCtus h) && (tfind a r.ctus).isNone && (match segmentOf h p with | some s => s.2 | none => false) &&
    (upto 0 (decCtus h)).all (fun b => ctuPlace h b + 1 != p || !sameRun h a b || (tfind b r.ctus).isSome) &&
    (!h.rowWise || decide (a < cols) || (tfind (min (a / cols * cols - 1) (a - cols + 1)) r.ctus).isSome)

/-- Width and height of plane k of a decoded picture. -/
def decPlane (w : WorkOrder) (h : DecHead) (k : Nat) : Nat × Nat :=
  let p := sfPlane (slotSurf w 0) k
  let dx := max 1 (sfWidth (slotSurf w 0) / max 1 p.w)
  let dy := max 1 (sfHeight (slotSurf w 0) / max 1 p.h)
  ((h.width + dx - 1) / dx, (h.height + dy - 1) / dy)

/-- The rectangle of CTU a in plane k. -/
def ctuBlock (w : WorkOrder) (h : DecHead) (a k : Nat) : Block :=
  let p := decPlane w h k
  let dx := max 1 (h.width / max 1 p.1)
  let dy := max 1 (h.height / max 1 p.2)
  let cols := max 1 (decGrid h).1
  let x := a % cols * h.ctu / dx
  let y := a / cols * h.ctu / dy
  { x := x, y := y, w := min (h.ctu / dx) (p.1 - x), h := min (h.ctu / dy) (p.2 - y) }

/-! Slots and references (R185, R197). -/

/-- The slot that holds the picture of an order, or stands for it: its number and whether it is a substitute. -/
def slotOf (s : DecStream) (o : Int) : Option (Nat × Bool) :=
  match s.slots.find? (fun e => e.2.ref && e.2.order == o) with
  | some e => some (e.1, false)
  | none => (s.slots.find? (fun e => e.2.ref && e.2.aliases.contains o)).map (fun e => (e.1, true))

/-- References after the current picture's headers, outside AV1: those it keeps, and the missing pictures some kept one stands for. -/
def applyRefs (s : DecStream) (keep : List Int) : DecStream :=
  { s with
    slots := s.slots.map (fun e =>
      let al := e.2.aliases.filter keep.contains
      (e.1, { e.2 with ref := e.2.ref && (keep.contains e.2.order || !al.isEmpty), aliases := al }))
    grey := s.grey.filter keep.contains }

/-- The nearest earlier output picture below an order: the slot with the largest ORDER below it (R195, R197). -/
def earlierOut (s : DecStream) (o : Int) : Option Nat :=
  (s.slots.foldl (fun (b : Option (Nat × Int)) e =>
    let better := match b with | some (_, m) => decide (m < e.2.order) | none => true
    if e.2.shown && decide (e.2.order < o) && better then some (e.1, e.2.order) else b) none).map (·.1)

/-- A missing picture of an order is replaced: the order becomes an alias of the nearest earlier output picture's slot, which is held as long as the
order is, or mid-grey (R197). -/
def substitute (s : DecStream) (o : Int) : DecStream :=
  match earlierOut s o with
  | some k => { s with slots := s.slots.map (fun e => if e.1 = k then (e.1, { e.2 with ref := true, aliases := e.2.aliases ++ [o] }) else e) }
  | none => { s with grey := s.grey ++ [o] }

/-- Orders that the headers name: those of the lists, and in HEVC every entry of the reference picture set (R197). -/
def namedOrders (codec : Nat) (h : DecHead) : List Int :=
  h.refs.filterMap (fun n => match n with | .order o => some o | .unknown | .frame _ _ => none) ++ (if codec = 0 then h.keep else [])

/-- Orders named that no picture holds and nothing stands for yet. -/
def missingRefs (s : DecStream) (names : List Int) : List Int :=
  (names.filter (fun o => (slotOf s o).isNone && !s.grey.contains o)).foldl (fun l o => if l.contains o then l else l ++ [o]) []

/-- An AV1 frame is missing: nothing has written it, or its order hint is not the one signalled (R197). -/
def frameMissing (s : DecStream) (idx : Nat) (hint : Option Int) : Bool :=
  match tfind idx s.frames with
  | none => true
  | some f => match hint with | some o => f.order != o | none => false

/-- AV1 frames named and missing are replaced, by the signalled order or, without one, by the current picture's (R197). -/
def substituteFrame (cur : Int) (s : DecStream) (n : RefName) : DecStream :=
  match n with
  | .frame idx hint =>
    if frameMissing s idx hint then
      { s with frames := tput idx { slot := earlierOut s (hint.getD cur), order := hint.getD cur, sub := true } s.frames }
    else s
  | .order _ | .unknown => s

/-- The references of a stream after a picture's headers: what it drops is dropped, and what it misses is replaced (R197). -/
def openRefs (codec : Nat) (h : DecHead) (s : DecStream) : DecStream :=
  if codec = 2 then h.refs.foldl (substituteFrame h.order) s
  else
    let s := applyRefs s h.keep
    (missingRefs s (namedOrders codec h)).foldl substitute s

/-- What an entry of a reference list is read from (R197). -/
def refUse (s : DecStream) (cur : Int) (n : RefName) : RefUse :=
  match n with
  | .order o => match slotOf s o with | some (k, b) => { slot := some k, sub := b } | none => { slot := none, sub := true }
  | .unknown => { slot := earlierOut s cur, sub := true }
  | .frame idx _ => match tfind idx s.frames with | some f => { slot := f.slot, sub := f.sub } | none => { slot := none, sub := true }

/-- AV1 frames of a slot. -/
def framesOf (s : DecStream) (k : Nat) : Bool := s.frames.any (fun e => e.2.slot == some k)

/-- The slot a picture is written to: the lowest that is no reference, awaits no output, is not held and stands for nothing (R185). -/
def pickSlotFor (s : DecStream) (uses : List RefUse) (w : WorkOrder) : Option Nat :=
  (upto 0 (decSlots w)).find? (fun i =>
    !bitOf (woField w 80 4) i && !framesOf s i && !uses.any (fun u => u.slot == some i) &&
      match tfind i s.slots with | some e => !e.ref && !e.awaiting && e.aliases.isEmpty | none => true)

/-! Ring input. -/

/-- Entries of the first n packets of a ring, if they are there: how many, and the payload bytes they carry (R119). -/
def packetsAt : Nat → List Entry → Option (Nat × Nat)
  | 0, _ => some (0, 0)
  | n + 1, l =>
    match splitFirst (fun e => e.eop) l with
    | none => none
    | some (pre, e, rest) =>
      match packetsAt n rest with
      | none => none
      | some (k, b) => some (pre.length + 1 + k, 32 * (pre.filter (fun x => !x.sop)).length + fieldAt e.data 28 2 + b)

/-- Take n entries from a ring. -/
def takeEntries : Nat → Ring → Ring
  | 0, r => r
  | n + 1, r => takeEntries n (Ring.popped (if r.head = 0 then r.refilled else r))

/-- The extents are read (R117, R183): 0, or the status of the first that fails.
DESIGN CHOICE: their handles are checked as R14 checks a handle, when the picture starts (log entry 84). -/
def readUnit (w : WorkOrder) : List (Nat × Nat × Nat) → Device → Device × Nat
  | [], d => (d, 0)
  | (h, o, n) :: r, d =>
    let st := handleStatus d (ctxOwner w.ctx) h
    if st ≠ 0 then (d, st)
    else if n = 0 then readUnit w r d
    else match bufRead d (engineReq w.unit) h o n with
      | (d, none) => (d, 0x20)
      | (d, some _) => readUnit w r d

/-- Bytes of the extents. -/
def extentBytesOf (w : WorkOrder) : Nat := ((decExtents w).map (fun e => e.2.2)).foldl (· + ·) 0

/-- The bitstream of an access unit is there and is read: the device after it, the bytes consumed, and 0 or a status; none when a ring does not hold
it yet. -/
def takeUnit (d : Device) (w : WorkOrder) (h : DecHead) : Option (Device × Nat × Nat) :=
  let n := woField w 74 2
  if decRing w then
    (packetsAt h.packets (ringAt d n).entries).map (fun e => (setRing d n (takeEntries e.1 (ringAt d n)), e.2, 0))
  else
    let (d, st) := readUnit w (decExtents w) d
    some (d, min h.bytes (extentBytesOf w), st)

/-! What the headers ask for (R180, R181, R184, R193). -/

/-- Tools that R180 does not decode. -/
def notDecoded (codec : Nat) : List Tool :=
  if codec = 0 then [.scc, .scalable] else if codec = 1 then [] else if codec = 2 then [.largeScaleTile, .otherOperatingPoints]
  else [.fieldPictures, .mbaff]

/-- The slot format of a chroma format and depth (R83, R184). -/
def chromaFormat (chroma depth : Nat) : Nat :=
  if chroma = 0 then 0x01 else if chroma = 1 then 0x10 else if chroma = 2 then 0x11 else if depth ≤ 12 then 0x12 else 0x13

/-- Largest pictures (R94). -/
def largestPicture (codec : Nat) : Nat × Nat := if codec ≤ 1 then (20480, 8640) else if codec = 2 then (16384, 8704) else (8192, 4320)

/-- The stream needs only what R180 decodes: profile, level, size, depth and chroma format, tools; and a format of R83 holds it. -/
def streamDecoded (codec : Nat) (h : DecHead) : Bool :=
  match profileOf codec h.profile with
  | none => false
  | some p =>
    decide (p.lo ≤ h.depth) && decide (h.depth ≤ p.hi) && p.chroma.contains h.chroma &&
      ((levelsOf codec).any (fun l => l.code == h.level) || (p.open_ && h.level == openLevel codec)) &&
      decide (h.width ≤ (largestPicture codec).1) && decide (h.height ≤ (largestPicture codec).2) &&
      h.tools.all (fun t => !(notDecoded codec).contains t) && !((h.chroma == 1 || h.chroma == 2) && decide (10 < h.depth))

/-- The headers agree with the slots and the options (R181, R184, R186).
DESIGN CHOICE: a picture larger than the slots is refused as one that their format does not hold; a smaller one takes their upper left part (log entry 85). -/
def headOk (w : WorkOrder) (h : DecHead) : Bool :=
  let s := slotSurf w 0
  streamDecoded (decCodec w) h && chromaFormat h.chroma h.depth == sfFormat s && decide (h.width ≤ sfWidth s) && decide (h.height ≤ sfHeight s) &&
    (!decUnpack w || h.packed.isSome)

/-- A unit in which R193 finds an error. -/
def unitBad (u : StreamUnit) : Bool := u.forbidden || u.reserved || decide (u.room < u.size) || !u.known || !u.inRange

/-- An error in a picture-level unit leaves the picture undecodable (R193, R194): a unit, a layout that the picture does not have, or a new size without
a key picture where HEVC and AVC forbid it. -/
def headBroken (codec : Nat) (s : DecStream) (h : DecHead) : Bool :=
  h.units.any (fun u => u.picture && unitBad u) || h.ctu == 0 || h.width == 0 || h.height == 0 ||
    h.tileCols.foldl (· + ·) 0 != (decGrid h).1 || h.tileRows.foldl (· + ·) 0 != (decGrid h).2 ||
    ((codec == 0 || codec == 3) && h.type != 0 && (match s.size with | some z => z != (h.width, h.height) | none => false))

/-- R193 finds an error in some unit or slice segment header. -/
def headError (codec : Nat) (s : DecStream) (h : DecHead) : Bool :=
  headBroken codec s h || h.units.any unitBad || (codec == 2 && !h.delimiter) || (segments h).any (fun e => !e.2)

/-- The layout in which a picture whose headers are broken is concealed: its slot's size, one tile, CTUs of 64 where their size is not known. -/
def brokenHead (w : WorkOrder) (h : DecHead) : DecHead :=
  let n := if h.ctu = 0 then 64 else h.ctu
  let s := slotSurf w 0
  { h with
    width := sfWidth s, height := sfHeight s, ctu := n, tileCols := [(sfWidth s + n - 1) / n], tileRows := [(sfHeight s + n - 1) / n], slices := []
    rowWise := false, depth := if h.depth = 0 then fmtDepth (sfFormat s) else min h.depth (fmtDepth (sfFormat s)) }

/-! Results. -/

/-- RESULT of a DEC or VFY that wrote no picture. -/
def decEmpty (d : Device) (w : WorkOrder) (bytes : Nat) : List Byte :=
  leBytes 4 bytes ++ leBytes 4 (decStream d (decKey w)).count ++
    (if w.kind = .dec then leBytes 2 0xFFFF ++ leBytes 2 0 else leBytes 2 0xFFFF ++ leBytes 2 3) ++ leBytes 4 0xFFFFFFFF

/-- A DEC or VFY ends before its picture starts: its engines are free, no picture is written. -/
def decLost (d : Device) (w : WorkOrder) (status bytes : Nat) : Device :=
  finishWo (freeEngines d w.ticket) w.ticket status 0 (decEmpty d w bytes)

/-! The output process (R185). -/

/-- Slots that await output, the lowest ORDER first. -/
def nextOut (s : DecStream) : Option Nat :=
  ((s.slots.filter (fun e => e.2.awaiting)).foldl (fun (b : Option (Nat × Int)) e =>
    match b with | some (_, m) => if e.2.order < m then some (e.1, e.2.order) else b | none => some (e.1, e.2.order)) none).map (·.1)

/-- Change a slot. -/
def modSlot (s : DecStream) (k : Nat) (f : DecSlot → DecSlot) : DecStream :=
  { s with slots := s.slots.map (fun e => if e.1 = k then (e.1, f e.2) else e) }

/-- A slot leaves the awaiting-output state. -/
def outSlot (s : DecStream) (k : Nat) : DecStream := modSlot s k (fun e => { e with awaiting := false })

/-- Pictures leave in display order as long as the test holds, n at most. -/
def bumpOut (more : DecStream → Bool) : Nat → DecStream → DecStream × List Nat
  | 0, s => (s, [])
  | n + 1, s =>
    match nextOut s with
    | none => (s, [])
    | some k =>
      if more s then let (s, l) := bumpOut more n (outSlot s k); (s, k :: l) else (s, [])

/-- More pictures await output than the reorder limit allows, or one has waited as long as the latency limit allows (0: no limit). -/
def overLimits (reorder latency : Nat) (s : DecStream) : Bool :=
  let l := s.slots.filter (fun e => e.2.awaiting)
  decide (reorder < l.length) || (latency != 0 && l.any (fun e => decide (latency ≤ e.2.late)))

/-- What an access unit makes ready for output (R185): what a flush before the picture releases; the picture itself, or in AV1 the frame it shows;
what the limits release; and everything at an end of sequence or of bitstream. -/
def outputs (codec : Nat) (h : DecHead) (cur : Option Nat) (s : DecStream) : DecStream × List Nat :=
  let all := fun (_ : DecStream) => true
  let wait := match cur with | some k => (match tfind k s.slots with | some e => e.awaiting | none => false) | none => false
  let s := match cur with | some k => outSlot s k | none => s
  let (s, a) := if h.flushBefore then bumpOut all 17 s else (s, [])
  let s := if wait then { s with slots := s.slots.map (fun e => if e.2.awaiting then (e.1, { e.2 with late := e.2.late + 1 }) else e) } else s
  let s := match cur with | some k => modSlot s k (fun e => { e with awaiting := wait }) | none => s
  let limits := if codec = 2 then all else overLimits h.reorder h.latency
  let (s, b) := bumpOut (if h.flush then all else limits) 17 s
  (s, a ++ b)

/-- EFLAGS (R185). -/
def eflags (e : DecSlot) : Nat := ofFlag e.concealed + 2 * ofFlag e.sub + e.flags

/-- The output list (R185). -/
def outList (s : DecStream) (outs : List Nat) (flush : Bool) : List Byte :=
  padTo 160 (leBytes 1 outs.length ++ leBytes 1 (ofFlag flush) ++ leBytes 6 0 ++ outs.flatMap (fun i =>
    match tfind i s.slots with
    | some e => leBytes 1 i ++ leBytes 1 (eflags e) ++ leBytes 2 0 ++ sBytes 4 e.order
    | none => leBytes 8 0))

/-- Write the list of pictures made ready for output, and free them from waiting for it (R185). `cur` is the slot of the picture just decoded. -/
def decOutput (d : Device) (w : WorkOrder) (h : DecHead) (cur : Option Nat) (shows : List Nat) : Device :=
  if w.kind ≠ .dec then d
  else
    let (s, outs) := outputs (decCodec w) h cur (decStream d (decKey w))
    let d := (unitWrite d (24 + coreOf w.ctx) (fieldAt (woExtraOf w 96) 0 8) (outList s ((shows ++ outs).take 17) h.flush)).1
    setDec d (decKey w) s

/-! Start (R181, R184, R185, R197). -/

/-- The work order may start: earlier ones of its state buffer are over, its engines are free. -/
def decReady (d : Device) (w : WorkOrder) : Bool := isDec w && canStart d w

/-- Planes of a picture not yet decoded: samples of zero. -/
def blankPlanes (w : WorkOrder) (h : DecHead) : List (List (List Nat)) :=
  (upto 0 (sfPlanes (slotSurf w 0)).length).map (fun k => genRows (decPlane w h k).1 (decPlane w h k).2 (fun _ _ => 0))

/-- A unit that only shows an AV1 frame decodes nothing (R185): the frame is listed for output, and the frames that its unit refreshes take it. One
that nothing has written is an error of R193; a substitute is never output (R197). -/
def decShow (d : Device) (w : WorkOrder) (h : DecHead) (idx bytes : Nat) : Device :=
  let s := decStream d (decKey w)
  match tfind idx s.frames with
  | some f =>
    match if f.sub then none else f.slot with
    | some k =>
      let d := setDec d (decKey w) { s with frames := h.refresh.foldl (fun t i => tput i f t) s.frames }
      let d := decOutput d w h none [k]
      finishWo (freeEngines d w.ticket) w.ticket 0x00 0 (decEmpty d w bytes)
    | none => decLost d w 0x50 bytes
  | none =>
    let k := trussOf w.unit
    decLost { d with codec := { d.codec with bsErr := bump 256 k d.codec.bsErr } } w 0x51 bytes

/-- A DEC or VFY starts, with what its headers say. -/
def decStart (d : Device) (t : Nat) (h : DecHead) : Device :=
  match woAt d t with
  | none => d
  | some w =>
    if !decReady d w then d
    else
      let codec := decCodec w
      let key := decKey w
      match takeUnit d w h with
      | none => d
      | some (taken, bytes, st) =>
        let s0 := if bitOf (woField w 70 1) 0 then DecStream.reset else decStream d key
        let begun := setDec taken key s0
        let broken := headBroken codec s0 h
        if st ≠ 0 then decLost begun w st 0
        else if !broken && !headOk w h then decLost begun w 0x31 bytes
        else
          match (if codec = 2 then h.existing else none) with
          | some idx => decShow begun w h idx bytes
          | none =>
            let wrong := headError codec s0 h
            let h := if broken then brokenHead w h else h
            if handleGen (woField w 84 4) ≠ 0 ∧ bufSize d (handleIdx (woField w 84 4)) < decCtus h then decLost begun w 0x20 bytes
            else
              let s := openRefs codec h s0
              let uses := h.refs.map (refUse s h.order)
              match pickSlotFor s uses w with
              | none => decLost d w 0x40 0
              | some slot =>
                let d := takeEngines (setDec taken key { s with size := some (h.width, h.height) }) w
                let r : DecRun :=
                  { ticket := t, key := key, head := h, slot := slot, refs := uses, bytes := bytes, planes := blankPlanes w h, ctus := []
                    stopped := broken || (wrong && woField w 66 1 == 1), error := wrong, maxErr := 0xFFFF, firstBad := 0xFFFFFFFF, badTiles := [] }
                { d with codec := { d.codec with decRuns := d.codec.decRuns ++ [r] } }

/-! Concealment (R194–R196). -/

/-- The samples of a slot's picture at the stream's depth, plane k (R184). -/
def slotPlane (d : Device) (w : WorkOrder) (h : DecHead) (i k : Nat) : Rows :=
  let s := slotSurf w i
  let p := sfPlane s k
  let z := match tfind i (decStream d (decKey w)).slots with | some e => e.size | none => (sfWidth s, sfHeight s)
  let dx := max 1 (sfWidth s / max 1 p.w)
  let dy := max 1 (sfHeight s / max 1 p.h)
  ((surfRows d s k).take ((z.2 + dy - 1) / dy)).map (fun r => (r.take ((z.1 + dx - 1) / dx)).map (fun v => v / 2 ^ (fmtDepth (sfFormat s) - h.depth)))

/-- A rectangle of a plane, displaced, edges repeated. -/
def copyBlock (r : Rows) (b : Block) (v : Vect) : Rows :=
  genRows b.w b.h (fun i j => padPx r ((b.x + i : Nat) + v.1).toNat ((b.y + j : Nat) + v.2).toNat)

/-- CTU a is decoded or concealed. -/
def ctuThere (r : DecRun) (a : Nat) : Bool := (tfind a r.ctus).isSome

/-- Method 2 for CTU a in one plane: the rounded mean of the row above and the column to the left, whichever are decoded or concealed; or none (R195). -/
def spatialValue (r : DecRun) (a : Nat) (plane : Rows) (b : Block) : Option Nat :=
  let cols := max 1 (decGrid r.head).1
  let l := (if cols ≤ a ∧ ctuThere r (a - cols) then (upto b.x b.w).map (fun i => px plane i (b.y - 1)) else []) ++
    (if 0 < a % cols ∧ ctuThere r (a - 1) then (upto b.y b.h).map (fun j => px plane (b.x - 1) j) else [])
  if l = [] then none else some ((l.foldl (· + ·) 0 + l.length / 2) / l.length)

/-- The middle of up to three numbers; of two it may be any number between them. -/
def medianOf (pick : Nat) (l : List Int) : Int :=
  match l with
  | [] => 0
  | [a] => a
  | [a, b] => min a b + (pick % ((max a b - min a b).toNat + 1) : Nat)
  | a :: b :: c :: _ => median a b c

/-- The displacement of method 0: the median of the vectors of the left, above and above-right CTUs decoded without concealment. -/
def concealVector (d : Device) (h : DecHead) (r : DecRun) (a : Nat) : Vect :=
  let cols := max 1 (decGrid h).1
  let near := (if 0 < a % cols then [a - 1] else []) ++ (if cols ≤ a then [a - cols] else []) ++
    (if cols ≤ a ∧ a % cols + 1 < cols then [a - cols + 1] else [])
  let vs := (near.filterMap (fun k => tfind k r.ctus)).filter (fun c => !c.concealed)
  (medianOf (free d (2 ^ 44 + 2 * a)) (vs.map (·.mvx)), medianOf (free d (2 ^ 44 + 2 * a + 1)) (vs.map (·.mvy)))

/-- Samples that conceal CTU a in plane k by a method (R195). -/
def concealBlock (d : Device) (w : WorkOrder) (r : DecRun) (method a k : Nat) : Rows :=
  let h := r.head
  let b := ctuBlock w h a k
  let plane := (r.planes[k]?).getD []
  let fill := fun (v : Nat) => genRows b.w b.h (fun _ _ => v)
  let grey := fill (2 ^ (h.depth - 1))
  let spatial := match spatialValue r a plane b with | some v => fill v | none => grey
  let temporal := match earlierOut (decStream d r.key) h.order with | some i => copyBlock (slotPlane d w h i k) b (0, 0) | none => spatial
  if method = 3 then grey
  else if method = 2 then spatial
  else if method = 1 ∨ h.type ≤ 1 then temporal
  else match r.refs with
    | [] => temporal
    | u :: _ =>
      match u.slot with
      | some i =>
        let v := concealVector d h r a
        let p := decPlane w h k
        let dx : Int := (max 1 (h.width / max 1 p.1) : Nat)
        let dy : Int := (max 1 (h.height / max 1 p.2) : Nat)
        copyBlock (slotPlane d w h i k) b (v.1 / dx, v.2 / dy)
      | none => grey

/-- Conceal CTU a, unless it is decoded or concealed. -/
def concealCtu (d : Device) (w : WorkOrder) (method : Nat) (r : DecRun) (a : Nat) : DecRun :=
  if ctuThere r a then r
  else
    let planes := ((upto 0 r.planes.length).zip r.planes).map (fun e =>
      let b := ctuBlock w r.head a e.1
      putBlock e.2 b.x b.y (concealBlock d w r method a e.1))
    { r with planes := planes, ctus := tput a { concealed := true, mvx := 0, mvy := 0, map := 1 } r.ctus }

/-- Conceal every CTU with a property that is neither decoded nor concealed. -/
def concealRange (d : Device) (w : WorkOrder) (method : Nat) (p : Nat → Bool) (r : DecRun) : DecRun :=
  ((upto 0 (decCtus r.head)).filter p).foldl (concealCtu d w method) r

/-- From CTU a to the end of its slice segment or tile, whichever comes first (R194). -/
def restOfSegment (h : DecHead) (a b : Nat) : Bool :=
  decide (ctuPlace h a ≤ ctuPlace h b) && segmentOf h (ctuPlace h a) == segmentOf h (ctuPlace h b) && decTile h a == decTile h b

/-! CTUs (R193, R194, R199). -/

/-- The picture of an entry of a reference list is concealed. -/
def useConcealed (s : DecStream) (u : RefUse) : Bool :=
  u.sub || (match u.slot with | some k => (match tfind k s.slots with | some e => e.concealed | none => false) | none => true)

/-- The entries of the reference lists that a CTU predicts from. -/
def ctuUses (r : DecRun) (c : CtuData) : List RefUse := c.refs.filterMap (fun i => r.refs[i]?)

/-- The map byte of a CTU that is decoded (R199). -/
def ctuMap (s : DecStream) (uses : List RefUse) : Nat := 2 * ofFlag (uses.any (useConcealed s)) + 4 * ofFlag (uses.any (·.sub))

/-- R193 finds an error in a CTU: in its entropy coding, in an index beyond its list, or in a vector beyond its range. -/
def ctuBad (w : WorkOrder) (r : DecRun) (c : CtuData) : Bool :=
  c.error || c.refs.any (fun i => decide (r.refs.length ≤ i)) || decide (Config.mvRange (decCodec w) < c.mvx.natAbs) ||
    decide (Config.mvRange (decCodec w) < c.mvy.natAbs)

/-- The condition sources of an engine when it ends a CTU (R205, R206). -/
def ctuSources (d : Device) (w : WorkOrder) (r : DecRun) (a : Nat) (bad : Bool) (uses : List RefUse) : CondSources :=
  let c := (tileParts r.head a).1
  let q := (tileParts r.head a).2
  let cols := max 1 (decGrid r.head).1
  let rowEnds := a % cols + 1 == c.2.1 + c.2.2
  { openSources d 4096 with
    inter := !uses.isEmpty, errAbove := false, budgetFails := false, outFull := false, cuEnds := true, rowEnds := rowEnds
    tileEnds := rowEnds && a / cols + 1 == q.2.1 + q.2.2, syntaxError := bad, refMissing := uses.any (·.sub)
    sampled := sampled d w (decEngine w r.head a) }

/-- One CTU is decoded, or an error is found in it. -/
def decCtu (d : Device) (t a : Nat) (c : CtuData) : Device :=
  match woAt d t, decAt d t with
  | some w, some r =>
    let e := decEngine w r.head a
    if w.phase ≠ .running ∨ r.stopped ∨ !decOpen r.head r a ∨ (engineAt d e).cur ≠ some t then d
    else
      let bad := ctuBad w r c
      let uses := ctuUses r c
      let d := microTo d e .bnd (ctuSources d w r a bad uses)
      if bad then
        if woField w 66 1 = 1 then modDec d t (fun r => { r with error := true, stopped := true })
        else modDec d t (fun r => concealRange d w (woField w 67 1) (restOfSegment r.head a) { r with error := true })
      else
        let planes := ((upto 0 r.planes.length).zip r.planes).map (fun p =>
          let b := ctuBlock w r.head a p.1
          putBlock p.2 b.x b.y (genRows b.w b.h (fun i j => px ((c.samples[p.1]?).getD []) i j % 2 ^ r.head.depth)))
        let b := ctuBlock w r.head a 0
        let d := perfEvent d 2 2 e (b.w * b.h) (ctxAt d w.ctx).isSealed (t + 2 ^ 32 * a) e
        modDec d t (fun r => { r with
          planes := planes, ctus := tput a { concealed := false, mvx := c.mvx, mvy := c.mvy, map := ctuMap (decStream d r.key) uses } r.ctus })
  | _, _ => d

/-! The end of a picture (R185–R190, R196–R201). -/

/-- CTUs concealed. -/
def concealedCtus (r : DecRun) : List Nat := (r.ctus.filter (fun e => e.2.concealed)).map (·.1)

/-- Some CTU predicts from a substitute. -/
def runSub (r : DecRun) : Bool := r.ctus.any (fun e => bitOf e.2.map 2)

/-- The picture is concealed (R198). -/
def runConcealed (r : DecRun) : Bool := !(concealedCtus r).isEmpty || r.ctus.any (fun e => e.2.map != 0)

/-- Error of a decoded sample against the source at coded depth, plane k (R190). -/
def sourceError (src : List Rows) (r : DecRun) (k x y : Nat) : Nat :=
  let a := px ((r.planes[k]?).getD []) x y
  let b := px ((src[k]?).getD []) x y
  (a - b) + (b - a)

/-- The source planes of a VFY at the stream's depth, packed as the stream is (R190). -/
def vfySource (d : Device) (w : WorkOrder) (h : DecHead) : List Rows :=
  let s := w.surfIn
  (upto 0 (sfPlanes s).length).map (fun k =>
    let rows := surfRows d s k
    let rows := if h.packed.isSome && isCfa (sfFormat s) then cfaSplit (sfCfa s) (sfWidth s) (sfHeight s) rows else rows
    rows.map (fun q => q.map (codedSample (fmtDepth (sfFormat s)) h.depth)))

/-- Largest error in CTU a over all planes, inside the source picture. -/
def ctuError (w : WorkOrder) (src : List Rows) (r : DecRun) (a : Nat) : Nat :=
  ((upto 0 r.planes.length).flatMap (fun k =>
    let b := ctuBlock w r.head a k
    let p := sfPlane w.surfIn k
    (upto b.y (min b.h (p.h - b.y))).flatMap (fun j => (upto b.x (min b.w (p.w - b.x))).map (fun i => sourceError src r k i j)))).foldl max 0

/-- What a source comparison finds: largest error, first CTU outside the bound, tiles with one (R190). -/
def compareSource (d : Device) (w : WorkOrder) (r : DecRun) : DecRun :=
  let src := vfySource d w r.head
  let errs := (upto 0 (decCtus r.head)).map (fun a => (a, ctuError w src r a))
  let bad := (errs.filter (fun e => decide (woField w 72 2 < e.2))).map (·.1)
  { r with maxErr := (errs.map (·.2)).foldl max 0, firstBad := bad.headD 0xFFFFFFFF
           badTiles := bad.foldl (fun l a => sadd (decTile r.head a) l) [] }

/-- The in-band hash of a picture that is not concealed (R189): 0 absent, 1 matched, 2 mismatched, 3 not checked. -/
def hashOutcome (w : WorkOrder) (r : DecRun) : Nat :=
  let asked := if w.kind = .dec then woField w 68 1 == 1 else bitOf (woField w 71 1) 0
  if !asked then 3
  else match r.head.hash with
    | none => 0
    | some (kind, hs) => if runConcealed r then 3 else if hs == planeHashes (decCodec w) kind r.head.depth r.planes then 1 else 2

/-- Planes as a slot or a copy holds them: v << (fd − d) (R184). -/
def storedPlanes (r : DecRun) (fd : Nat) : List Rows := r.planes.map (fun p => p.map (fun q => q.map (fun v => v * 2 ^ (fd - r.head.depth))))

/-- The copy in SURF_OUT (R186): plain, with film grain (whose samples AV1 defines, so they are open here), or unpacked. -/
def copyPlanes (d : Device) (w : WorkOrder) (r : DecRun) : List Rows :=
  let planes := storedPlanes r (fmtDepth (sfFormat w.surfOut))
  if decUnpack w then [cfaMerge (r.head.packed.getD 0) r.head.width r.head.height (planes.headD [])]
  else if bitOf (woField w 70 1) 2 && r.head.grain then
    ((upto 0 planes.length).zip planes).map (fun e =>
      genRows (e.2.headD []).length e.2.length (fun x y => free d (2 ^ 45 + e.1 * 2 ^ 36 + y * 2 ^ 16 + x) % 2 ^ fmtDepth (sfFormat w.surfOut)))
  else planes

/-- Planes over the upper left part of what a surface holds. -/
def overSurface (d : Device) (s : List Byte) (planes : List Rows) : List Rows :=
  ((upto 0 planes.length).zip planes).map (fun e =>
    let p := sfPlane s e.1
    if (e.2.headD []).length = p.w ∧ e.2.length = p.h then e.2 else putBlock (surfRows d s e.1) 0 0 e.2)

/-- The slot entry of the picture just decoded. -/
def newSlot (w : WorkOrder) (r : DecRun) (hash : Nat) : DecSlot :=
  { order := r.head.order, ref := decCodec w != 2 && r.head.isRef, awaiting := w.kind == .dec && r.head.shown, shown := r.head.shown
    concealed := runConcealed r, sub := runSub r, aliases := [], late := 0, size := (r.head.width, r.head.height)
    flags := 4 * ofFlag (hash == 1) + 8 * ofFlag (hash == 2) +
      16 * ofFlag (r.head.grain && !(bitOf (woField w 70 1) 2 && woField w 48 8 != 0)) }

/-- The concealment map (R199). -/
def concealMap (r : DecRun) : List Byte :=
  (upto 0 (decCtus r.head)).map (fun a => BitVec.ofNat 8 (match tfind a r.ctus with | some c => c.map | none => 0))

/-- RESULT of a DEC or VFY that decoded a picture (R188). -/
def decResult (w : WorkOrder) (r : DecRun) (count hash : Nat) : List Byte :=
  let c := concealedCtus r
  leBytes 4 r.bytes ++ leBytes 4 count ++
    (if w.kind = .dec then leBytes 1 r.slot ++ leBytes 1 r.head.type ++ leBytes 2 (min 0xFFFF c.length) ++ leBytes 4 (c.headD 0xFFFFFFFF)
     else leBytes 2 r.maxErr ++ leBytes 1 hash ++ leBytes 1 (min 0xFF r.badTiles.length) ++ leBytes 4 r.firstBad)

/-- The picture enters its slot, and in AV1 the frames it refreshes (R185, R197). -/
def enterSlot (w : WorkOrder) (r : DecRun) (hash : Nat) (s : DecStream) : DecStream :=
  { s with
    slots := tput r.slot (newSlot w r hash) s.slots, count := s.count + 1
    frames := if decCodec w = 2 then r.head.refresh.foldl (fun t i => tput i { slot := some r.slot, order := r.head.order, sub := false } t) s.frames
      else s.frames }

/-- A decoded picture enters its slot, is copied and mapped (R185, R186, R199). -/
def decStore (d : Device) (w : WorkOrder) (r : DecRun) (hash : Nat) (copy : Bool) : Device × Bool :=
  let req := engineReq w.unit
  let sf := slotSurf w r.slot
  match surfaceWrite d req sf 0 (sfHeight sf) (overSurface d sf (storedPlanes r (fmtDepth (sfFormat sf)))) with
  | (d, false) => (d, false)
  | (d, true) =>
    let cp := if copy && woField w 48 8 != 0 then
        surfaceWrite d req w.surfOut 0 (sfHeight w.surfOut) (overSurface d w.surfOut (copyPlanes d w r))
      else (d, true)
    match cp with
    | (d, false) => (d, false)
    | (d, true) =>
      let d := if handleGen (woField w 84 4) = 0 then d else (bufWrite d req (woField w 84 4) 0 (concealMap r)).1
      (setDec d r.key (enterSlot w r hash (decStream d r.key)), true)

/-- Count the outcome of a picture by truss (R201); every status of a picture that predicts from a substitute is 0x50 or ranks above it. -/
def decCount (d : Device) (w : WorkOrder) (r : DecRun) (status : Nat) : Device :=
  let k := trussOf w.unit
  let c := d.codec
  let c := if runSub r then { c with refMissing := bump 256 k c.refMissing } else c
  let c := if r.error then { c with bsErr := bump 256 k c.bsErr } else c
  let c := if rankStatus w status = 0x60 then { c with vfyBad := bump 256 k c.vfyBad } else c
  { d with codec := if runConcealed r then { c with conceals := bump 256 k c.conceals } else c }

/-- A DEC or VFY with a run is over. -/
def decOver (d : Device) (w : WorkOrder) (status flags : Nat) (result : List Byte) : Device :=
  let d := freeEngines d w.ticket
  finishWo { d with codec := { d.codec with decRuns := d.codec.decRuns.filter (fun r => r.ticket ≠ w.ticket) } } w.ticket status flags result

/-- The run of a picture that ends (R194, R190): what no slice covers is concealed, and a VFY with source comparison has compared. -/
def endedRun (d : Device) (w : WorkOrder) (r : DecRun) : DecRun :=
  let whole := (upto 0 (decCtus r.head)).all (ctuThere r)
  let r := concealRange d w (woField w 67 1) (fun _ => true) { r with error := r.error || !whole }
  if decCompares w then compareSource d w r else r

/-- Events of malformed dressed tiles of the source of a comparison: of the engine that reads each first (R237). -/
def sourceEvents (d : Device) (w : WorkOrder) (r : DecRun) : Device :=
  if !decCompares w then d
  else (badTilesIn d w.surfIn (sfHeight w.surfIn)).foldl (fun d b =>
    match (upto 0 (decCtus r.head)).find? (fun a => blocksMeet b (ctuBlock w r.head a 0)) with
    | some a => plumbEvent d (336 + decEngine w r.head a) w.ticket
    | none => d) d

/-- A sample lies outside BOUND_E (R190). -/
def tooFar (w : WorkOrder) (r : DecRun) : Bool := decCompares w && decide (woField w 72 2 < r.maxErr)

/-- STATUS of a picture that ends (R198, R200). -/
def decStatus (w : WorkOrder) (r : DecRun) (hash : Nat) : Nat :=
  if hash = 2 ∨ tooFar w r then 0x60 else if r.error then 0x51 else if runSub r then 0x50 else if runConcealed r then 0x01 else 0x00

/-- Some CTU of a sound slice segment is still to be decoded. -/
def decUnfinished (r : DecRun) : Bool :=
  !r.stopped && (upto 0 (decCtus r.head)).any (fun a =>
    !ctuThere r a && (match segmentOf r.head (ctuPlace r.head a) with | some e => e.2 | none => false))

/-- A picture ends (R185–R190, R198–R200). FLAGS bit 3 needs its hash to match, and with source comparison the bound to hold (R79, R190). -/
def decEnd (d : Device) (t : Nat) : Device :=
  match woAt d t, decAt d t with
  | some w, some r =>
    if w.phase ≠ .running ∨ !allEngines d w ∨ decUnfinished r then d
    else
      let r := endedRun d w r
      let d := sourceEvents d w r
      let hash := hashOutcome w r
      match decStore d w r hash true with
      | (d, false) => decOver (decCount d w r 0x20) w 0x20 (ofFlag (runConcealed r)) (decEmpty d w r.bytes)
      | (d, true) =>
        let status := decStatus w r hash
        let d := decOutput (decCount d w r status) w r.head (some r.slot) []
        decOver d w status (ofFlag (runConcealed r) + 8 * ofFlag (hash == 1 && !tooFar w r)) (decResult w r (decStream d r.key).count hash)
  | _, _ => d

/-- An engine of a work order is inside a routine (R208). -/
def inRoutine (d : Device) (w : WorkOrder) (codes : List Nat) : Bool := (woEngines w).any (fun u => codes.contains (microOf d u w.ticket).routine)

/-- A picture stops at a CTU boundary: the remaining CTUs take method 1, and it enters its slot and the output process as a concealed picture (R196);
an abort inside the copy leaves the blocks of SURF_OUT beyond its last step unwritten (R209). -/
def decStop (d : Device) (t status : Nat) : Device :=
  match woAt d t, decAt d t with
  | some w, some r =>
    let r := concealRange d w 1 (fun _ => true) r
    match decStore d w r 3 (!inRoutine d w [3, 4]) with
    | (d, false) => decOver (decCount d w r status) w status (ofFlag (runConcealed r)) (decEmpty d w r.bytes)
    | (d, true) =>
      let d := decOutput (decCount d w r status) w r.head (some r.slot) []
      decOver d w status (ofFlag (runConcealed r)) (decResult w r (decStream d r.key).count 3)
  | _, _ => d

/-! Commands. -/

/-- DEC_PICTURE_START. -/
def execDecPictureStart (t : Nat) (head : DecHead) (s : State) : Host.Outcome State Fault Refusal := done s (decStart s.dev t head)

/-- DEC_CTU. -/
def execDecCtu (t a : Nat) (data : CtuData) (s : State) : Host.Outcome State Fault Refusal := done s (decCtu s.dev t a data)

/-- DEC_PICTURE_END. -/
def execDecPictureEnd (t : Nat) (_ _ _ : NoInput) (s : State) : Host.Outcome State Fault Refusal := done s (decEnd s.dev t)

end Sys2Proof.Machine
end

