-- ==== Sys2Proof/Machine/Pix.lean ====
section
/-! DEFINITION. Plane pixel engines (R217–R230): what a PIX names, its checks, its stages, rows and end. -/

namespace Sys2Proof.Machine

/-- Stage entry i of a PIX (R219). -/
def pixStage (w : WorkOrder) (i : Nat) : List Byte := (w.raw.drop (128 + 16 * i)).take 16

/-- KERNEL of stage i. -/
def pixKernel (w : WorkOrder) (i : Nat) : Nat := fieldAt (pixStage w i) 0 1

/-- VARIANT of stage i. -/
def pixVariant (w : WorkOrder) (i : Nat) : Nat := fieldAt (pixStage w i) 1 1

/-- HANDLE of stage i. -/
def pixHandle (w : WorkOrder) (i : Nat) : Nat := fieldAt (pixStage w i) 4 4

/-- ARG of stage i. -/
def pixArg (w : WorkOrder) (i : Nat) : Nat := fieldAt (pixStage w i) 8 8

/-- SHARED, B0_LEN and B1_LEN. -/
def pixLens (w : WorkOrder) : Nat × Nat × Nat := (woField w 64 1, woField w 65 1, woField w 66 1)

/-- Stages in use. -/
def pixCount (w : WorkOrder) : Nat := let (s, a, b) := pixLens w; s + a + b

/-- Stage numbers of the chain of branch 0 or 1, shared stages first. -/
def pixChain (w : WorkOrder) (branch : Nat) : List Nat :=
  let (s, a, b) := pixLens w
  upto 0 s ++ (if branch = 0 then upto s a else upto (s + a) b)

/-- The chain of one CFA_SPLIT stage alone (R219). -/
def pixAlone (w : WorkOrder) : Bool := pixLens w == (0, 1, 0) && pixKernel w 0 == 4

/-- The output descriptor of a branch. -/
def pixOut (w : WorkOrder) (branch : Nat) : List Byte := if branch = 0 then w.surfOut else woExtra w 72

/-! Acceptance (R217–R220, R229). -/

/-- Records a PIX names for reading at acceptance: CSC records and the branch 1 descriptor; progress addresses. -/
def pixReads (d : Device) (w : WorkOrder) : Device × Records :=
  let s := readRecord w.ctx 72 (woField w 72 8) 64 (d, [])
  let s := (upto 0 (min 8 (pixCount w))).foldl (fun s i =>
    if pixKernel w i = 5 then readRecord w.ctx (136 + 16 * i) (pixArg w i) 32 s else s) s
  readProgress w.ctx 88 (woField w 88 8) .store (readProgress w.ctx 80 (woField w 80 8) .store s)

/-- Type-specific handles: of the branch 1 descriptor, then of the stages (R77 step 3, R217). -/
def pixHandles (w : WorkOrder) : List Nat :=
  (match tfind 72 w.extra with | some b => [sfHandle b] | none => []) ++ (upto 0 8).map (pixHandle w)

/-- Places of the kernels: a source first, a sink at the end of each branch, middle kernels elsewhere (R219). -/
def pixShapeOk (w : WorkOrder) : Bool :=
  let (s, a, b) := pixLens w
  let source := fun i => [1, 2, 3].contains (pixKernel w i)
  let middle := fun i => [5, 6, 7, 8].contains (pixKernel w i)
  let sink := fun i => pixKernel w i == 9 || pixKernel w i == 10
  let body := fun l => match l with | [] => true | i :: r => source i && (r.dropLast).all middle
  let ends := fun l => match l.getLast? with | some i => sink i | none => false
  (upto (s + a + b) (8 - (s + a + b))).all (fun i => (pixStage w i).all (· == 0)) &&
    (pixAlone w ||
      (decide (1 ≤ s) && decide (1 ≤ a) && decide (s + a + b ≤ 8) && body (pixChain w 0) && ends (pixChain w 0) &&
        (b == 0 || (body (pixChain w 1) && ends (pixChain w 1)))))

/-- VARIANT, HANDLE and ARG of stage i as R220 defines them. -/
def pixStageOk (w : WorkOrder) (i : Nat) : Bool :=
  let k := pixKernel w i
  let v := pixVariant w i
  let most := if k = 3 then 2 else if [4, 6, 7, 9, 10].contains k then 1 else 0
  let handle := k == 6 || (k == 7 && v == 1)
  decide (v ≤ most) && zeroAt (pixStage w i) 2 2 && (handle || pixHandle w i == 0) &&
    (if k = 5 ∨ k = 8 then true else if k = 7 then decide (pixArg w i < 2 ^ 32) else pixArg w i == 0)

/-- x, y, w, h of a CROP. -/
def cropArg (a : Nat) : Nat × Nat × Nat × Nat := (bitsOf a 15 0, bitsOf a 31 16, bitsOf a 47 32, bitsOf a 63 48)

/-- A size ratio from 1/8 to 8 (R225). -/
def ratioOk (win wout : Nat) : Bool := decide (win ≤ 8 * wout) && decide (wout ≤ 8 * win) && decide (0 < wout)

/-- The size after stage i, or none when the stage refuses it: SCALE ratios, CROP inside its input (R229). -/
def pixSize (w : WorkOrder) (sz : Option (Nat × Nat)) (i : Nat) : Option (Nat × Nat) :=
  match sz with
  | none => none
  | some (x, y) =>
    if pixKernel w i = 7 then
      let wo := bitsOf (pixArg w i) 15 0
      let ho := bitsOf (pixArg w i) 31 16
      if ratioOk x wo && ratioOk y ho then some (wo, ho) else none
    else if pixKernel w i = 8 then
      let (cx, cy, cw, ch) := cropArg (pixArg w i)
      if cx % 2 = 0 ∧ cy % 2 = 0 ∧ cw % 2 = 0 ∧ ch % 2 = 0 ∧ cx + cw ≤ x ∧ cy + ch ≤ y ∧ 0 < cw ∧ 0 < ch then some (cw, ch) else none
    else some (x, y)

/-- The formats and layouts a source kernel reads (R220). -/
def pixSourceOk (k : Nat) (s : List Byte) : Bool :=
  if k = 1 then decide (sfLayout s ≤ 1) && !isCfa (sfFormat s)
  else if k = 2 then sfLayout s == 2 && !isCfa (sfFormat s)
  else isCfa (sfFormat s)

/-- The formats and layouts a sink kernel writes (R220). -/
def pixSinkOk (k : Nat) (o : List Byte) : Bool := !isCfa (sfFormat o) && (if k = 9 then decide (sfLayout o ≤ 1) else sfLayout o == 2)

/-- A branch: its formats and its sizes (R220, R229). -/
def pixBranchOk (w : WorkOrder) (branch : Nat) : Bool :=
  let chain := pixChain w branch
  let o := pixOut w branch
  pixSourceOk (pixKernel w (chain.headD 0)) w.surfIn && pixSinkOk (pixKernel w (chain.getLastD 0)) o &&
    chain.foldl (pixSize w) (some (sfWidth w.surfIn, sfHeight w.surfIn)) == some (sfWidth o, sfHeight o)

/-- A CFA_SPLIT alone: split of a mosaic into MONO16, or the inverse (R220). -/
def pixSplitOk (w : WorkOrder) : Bool :=
  sfWidth w.surfIn == sfWidth w.surfOut && sfHeight w.surfIn == sfHeight w.surfOut &&
    (if pixVariant w 0 = 0 then isCfa (sfFormat w.surfIn) && sfFormat w.surfOut == 0x01
     else sfFormat w.surfIn == 0x01 && sfFormat w.surfOut == 0x02)

/-- The first row of R229. -/
def pixFormatOk (w : WorkOrder) : Bool :=
  woHandle w 0 == sfHandle w.surfIn && woField w 40 8 != 0 && woField w 48 8 != 0 &&
    (decide (woField w 72 8 ≠ 0) == decide (0 < woField w 66 1)) && zeroAt w.raw 67 5 && zeroAt w.raw 96 32 && pixShapeOk w &&
    (upto 0 (min 8 (pixCount w))).all (fun i => pixStageOk w i && zeroAt (woExtra w (136 + 16 * i)) 18 2) &&
    (if pixAlone w then pixSplitOk w else pixBranchOk w 0 && (woField w 66 1 == 0 || !hasRecord w.extra 72 || pixBranchOk w 1))

/-- Every phase of a coefficient table sums to 16,384 (R229). -/
def phasesOk (t : List (List Int)) : Bool := t.all (fun p => p.foldl (· + ·) 0 == 16384)

/-- The records of the second row of R229: CSC records, B1_SURF, progress words, table sizes. -/
def pixRecordsOk (d : Device) (w : WorkOrder) : Bool :=
  let need := fun (key addr : Nat) => addr == 0 || hasRecord w.extra key
  need 72 (woField w 72 8) && need 80 (woField w 80 8) && need 88 (woField w 88 8) &&
    (upto 0 (pixCount w)).all (fun i =>
      if pixKernel w i = 5 then hasRecord w.extra (136 + 16 * i)
      else if pixKernel w i = 6 then handleGen (pixHandle w i) != 0 && decide (1647750 ≤ bufSize d (handleIdx (pixHandle w i)))
      else if pixKernel w i = 7 ∧ pixVariant w i = 1 then
        handleGen (pixHandle w i) != 0 && decide (1024 ≤ bufSize d (handleIdx (pixHandle w i)))
      else true)

/-- The coefficient table of a variant 1 SCALE. -/
def pixTable (d : Device) (w : WorkOrder) (i : Nat) : List (List Int) := tableOf (bufBytes d (pixHandle w i) 0 1024)

/-- The checks of R229, after step 7 of R77: 0 or the status of the first failure. -/
def pixChecks (d : Device) (w : WorkOrder) : Nat :=
  if !pixFormatOk w then 0x31
  else if !pixRecordsOk d w then 0x20
  else if (upto 0 (pixCount w)).any (fun i => pixKernel w i == 7 && pixVariant w i == 1 && !phasesOk (pixTable d w i)) then 0x31
  else 0

/-! The stages (R221–R225). -/

/-- An entry component of a LUT3D table buffer (R224). -/
def lutEntry (d : Device) (h : Nat) (i : List Nat) (c : Nat) : Nat :=
  let g := fun k => (i[k]?).getD 0
  sampleAt d h (((g 2 * 65 + g 1) * 65 + g 0) * 6 + 2 * c)

/-- A picture as a stage of three components takes it: of a picture of one component the spec does not say what the others are, so they are open. -/
def threeComps (d : Device) (m : Img) : Img :=
  if 3 ≤ m.comps.length then m
  else { m with comps := m.comps.take 1 ++ (upto 1 2).map (fun c => genRows m.w m.h (fun x y => free d (2 ^ 46 + c * 2 ^ 36 + y * 2 ^ 16 + x) % 65536)) }

/-- A picture as a sink of one component takes it: of three components the spec does not say which one or what mixture is written, so it is open. -/
def oneComp (d : Device) (m : Img) : Img :=
  if m.comps.length ≤ 1 then m else { m with comps := [genRows m.w m.h (fun x y => free d (2 ^ 46 + y * 2 ^ 16 + x) % 65536)] }

/-- A middle stage applied to a picture. -/
def pixMiddle (d : Device) (w : WorkOrder) (m : Img) (i : Nat) : Img :=
  let k := pixKernel w i
  let v := pixVariant w i
  if k = 5 then mapPixels (threeComps d m) (fun p c => cscOut (woExtra w (136 + 16 * i)) c p)
  else if k = 6 then mapPixels (threeComps d m) (lutOut v (lutEntry d (pixHandle w i)))
  else if k = 7 then
    let wo := bitsOf (pixArg w i) 15 0
    let ho := bitsOf (pixArg w i) 31 16
    if v = 1 then scale (pixTable d w i) (pixTable d w i) wo ho m
    else scale (sincTable m.w wo) (sincTable m.h ho) wo ho m
  else if k = 8 then let (x, y, cw, ch) := cropArg (pixArg w i); crop x y cw ch m
  else m

/-- The planes of the source as read. -/
def pixSource (d : Device) (w : WorkOrder) : List Rows :=
  (upto 0 (sfPlanes w.surfIn).length).map (surfRows d w.surfIn)

/-- The planes of a branch's output: the same on any COUNT (R226). -/
def pixPlanes (d : Device) (w : WorkOrder) (branch : Nat) : List Rows :=
  let src := pixSource d w
  let o := pixOut w branch
  if pixAlone w then
    let r := src.headD []
    [if pixVariant w 0 = 0 then cfaSplit (sfCfa w.surfIn) (sfWidth w.surfIn) (sfHeight w.surfIn) r
     else cfaMerge (sfCfa o) (sfWidth o) (sfHeight o) r]
  else
    let chain := pixChain w branch
    let first := chain.headD 0
    let m := if pixKernel w first = 3 then demosaic (pixVariant w first) w.surfIn (src.headD []) else unpack w.surfIn src
    let out := (chain.drop 1).dropLast.foldl (pixMiddle d w) m
    packPlanes (sfFormat o) (pixVariant w (chain.getLastD 0)) (if isMono (sfFormat o) then oneComp d out else threeComps d out)

/-! Stripes (R226). -/

/-- Source columns or rows. -/
def sourceSize (w : WorkOrder) (vert : Bool) : Nat := if vert then sfHeight w.surfIn else sfWidth w.surfIn

/-- What stages do to one axis of their picture: SCALE as input and output size, CROP as its offset and none; and the size that results. -/
def axisOf (w : WorkOrder) (vert : Bool) (stages : List Nat) : List (Nat × Option Nat) × Nat :=
  stages.foldl (fun (acc : List (Nat × Option Nat) × Nat) i =>
    let arg := pixArg w i
    if pixKernel w i = 7 then
      let out := if vert then bitsOf arg 31 16 else bitsOf arg 15 0
      (acc.1 ++ [(acc.2, some out)], out)
    else if pixKernel w i = 8 then
      let (x, y, cw, ch) := cropArg arg
      (acc.1 ++ [(if vert then y else x, none)], if vert then ch else cw)
    else acc) ([], sourceSize w vert)

/-- What a chain does to one axis of its picture. -/
def pixAxis (w : WorkOrder) (branch : Nat) (vert : Bool) : List (Nat × Option Nat) := (axisOf w vert ((pixChain w branch).drop 1).dropLast).1

/-- A column or row followed back through what stages do, to one of n source columns or rows. -/
def backPos (n : Nat) (l : List (Nat × Option Nat)) (x : Nat) : Nat :=
  min (n - 1) (l.foldr (fun e (x : Nat) =>
    match e.2 with
    | some out => edge e.1 (scalePos e.1 out x / 64)
    | none => x + e.1) x)

/-- The source column or row at which an output one has its position t >> 6. DEDUCED: it is followed back through every SCALE and CROP (log entry 86). -/
def sourcePos (w : WorkOrder) (branch : Nat) (vert : Bool) (x : Nat) : Nat :=
  backPos (sourceSize w vert) (pixAxis w branch vert) x

/-- The support of a chain on an axis: of every stage, times the ratios of the SCALE stages before it, rounded up. -/
def chainSupport (w : WorkOrder) (branch : Nat) (vert : Bool) : Nat :=
  let first := (pixChain w branch).headD 0
  let source := if pixKernel w first = 3 then ([1, 2, 5][pixVariant w first]?).getD 0 else 0
  ((pixAxis w branch vert).foldl (fun (acc : Nat × Nat × Nat) e =>
    match e.2 with
    | some out => (acc.1 + (4 * acc.2.1 + acc.2.2 - 1) / max 1 acc.2.2, acc.2.1 * e.1, acc.2.2 * out)
    | none => acc) (source, 1, 1)).1

/-- The larger support of the branches. -/
def pixSupport (w : WorkOrder) (vert : Bool) : Nat :=
  if pixAlone w then 0 else max (chainSupport w 0 vert) (if woField w 66 1 = 0 then 0 else chainSupport w 1 vert)

/-- COUNT. -/
def pixEngines (w : WorkOrder) : Nat := max 1 (woField w 21 1)

/-- b_i; the last stripe ends with the picture. -/
def stripeStart (w : WorkOrder) (i : Nat) : Nat :=
  let n := sfWidth w.surfIn
  if pixEngines w ≤ i then n else 2 * (i * n / (2 * pixEngines w))

/-- Source columns that stripe i reads: its own and the support on each inner side. -/
def stripeReads (w : WorkOrder) (i : Nat) : Nat × Nat :=
  let s := pixSupport w false
  (stripeStart w i - s, min (sfWidth w.surfIn) (stripeStart w (i + 1) + s))

/-- Output columns of a branch that stripe i produces: first, and one past the last. -/
def stripeWrites (w : WorkOrder) (branch i : Nat) : Nat × Nat :=
  let n := sfWidth (pixOut w branch)
  let below := fun (b : Nat) => ((upto 0 n).filter (fun x => decide (sourcePos w branch false x < b))).length
  (below (stripeStart w i), below (stripeStart w (i + 1)))

/-- Every stripe's engine acts in turn on a range of columns, until one fails. -/
def onStripes (w : WorkOrder) (cols : Nat → Nat × Nat) (act : Device → Nat → Nat × Nat → Device × Bool) (d : Device) : Device × Bool :=
  (upto 0 (pixEngines w)).foldl (fun s i => if s.2 then act s.1 (engineReq (w.unit + i)) (cols i) else s) (d, true)

/-! Running (R226–R230). -/

/-- RESULT of a PIX (R230): rows of both branches, malformed tiles, FRAME. -/
def pixResult (w : WorkOrder) (rows0 rows1 bad : Nat) : List Byte :=
  leBytes 4 rows0 ++ leBytes 4 rows1 ++ leBytes 4 bad ++ leBytes 4 (sfFrame w.surfIn)

/-- Rows of branch 1 that have the matching source row when branch 0 has rows0 rows (R228). -/
def pixRows1 (w : WorkOrder) (rows0 : Nat) : Nat :=
  let n := sfHeight (pixOut w 1)
  if woField w 66 1 = 0 ∨ rows0 = 0 then 0
  else if sfHeight (pixOut w 0) ≤ rows0 then n
  else ((upto 0 n).takeWhile (fun y => decide (sourcePos w 1 true y ≤ sourcePos w 0 true (rows0 - 1)))).length

/-- Physical address of the progress word of a branch. -/
def pixProg (w : WorkOrder) (branch : Nat) : Option Nat :=
  (tfind (80 + 8 * branch) w.extra).map (fun b => fieldAt b 0 8)

/-- Source rows that a number of branch 0 rows has needed. -/
def pixSourceRows (w : WorkOrder) (rows0 : Nat) : Nat :=
  if rows0 = 0 then 0
  else if sfHeight (pixOut w 0) ≤ rows0 then sfHeight w.surfIn
  else min (sfHeight w.surfIn) (sourcePos w 0 true (rows0 - 1) + 1 + pixSupport w true)

/-- Rows of a branch that are complete in its surface when so many have been produced. -/
def pixDone (w : WorkOrder) (branch rows : Nat) : Nat := rowsComplete (pixOut w branch) rows

/-- Malformed tiles of the source read for a number of branch 0 rows. -/
def pixBad (d : Device) (w : WorkOrder) (rows0 : Nat) : Nat :=
  (badTilesIn d w.surfIn (pixSourceRows w rows0)).length

/-- The count a branch's progress word was last written with. -/
def pixShown (w : WorkOrder) (branch : Nat) : Nat := fieldAt w.result (4 * branch) 4

/-- Write a branch's progress word when it is due (R228), and remember the count. -/
def pixProgress (d : Device) (t branch rows : Nat) (force : Bool) : Device :=
  match woAt d t with
  | none => d
  | some w =>
    if (branch = 1 ∧ woField w 66 1 = 0) ∨ (!force ∧ rows < pixShown w branch + 16) then d
    else
      let d := progressPut d (engineReq w.unit) w.func (pixProg w branch) (sfFrame (pixOut w branch)) rows
      let other := pixShown w (1 - branch)
      modWo d t (fun w => { w with result := if branch = 0 then leBytes 4 rows ++ leBytes 4 other else leBytes 4 other ++ leBytes 4 rows })

/-- The progress words of both branches for a number of branch 0 rows. -/
def pixProgresses (d : Device) (w : WorkOrder) (rows0 : Nat) (force : Bool) : Device :=
  pixProgress (pixProgress d w.ticket 0 (pixDone w 0 rows0) force) w.ticket 1 (pixDone w 1 (pixRows1 w rows0)) force

/-- A PIX ends with a status when so many branch 0 rows have been produced (R230); one that ran writes its progress words once more (R228). -/
def pixFinish (d : Device) (w : WorkOrder) (status rows0 : Nat) : Device :=
  let d := if w.phase = .running then pixProgresses d w rows0 true else d
  finishWo (freeEngines d w.ticket) w.ticket status 0
    (pixResult w (if w.phase = .running then pixDone w 0 rows0 else 0) (if w.phase = .running then pixDone w 1 (pixRows1 w rows0) else 0)
      (if w.phase = .running then pixBad d w rows0 else 0))

/-- Input columns or rows of stage i that lie at source positions from lo to below hi. -/
def stageSpan (w : WorkOrder) (i : Nat) (vert : Bool) (lo hi : Nat) : Nat :=
  let (s, a, _) := pixLens w
  let (l, n) := axisOf w vert ((if i < s + a then upto 0 i else upto 0 s ++ upto (s + a) (i - (s + a))).drop 1)
  ((upto 0 n).filter (fun x => let p := backPos (sourceSize w vert) l x; decide (lo ≤ p) && decide (p < hi))).length

/-- Stage input pixels of stripe j for source rows lo to below hi (R220, R484); a CROP has no cost and counts none. -/
def stagePixels (w : WorkOrder) (j lo hi : Nat) : Nat :=
  ((upto 0 (pixCount w)).map (fun i =>
    if pixKernel w i = 8 then 0
    else stageSpan w i false (stripeStart w j) (stripeStart w (j + 1)) * stageSpan w i true lo hi)).sum

/-- The engines of a PIX count the input pixels of their stages (R484). -/
def pixCounted (d : Device) (w : WorkOrder) (lo hi : Nat) : Device :=
  (upto 0 (pixEngines w)).foldl (fun d j => perfEvent d 3 1 (w.unit + j - 96) (stagePixels w j lo hi) false 0 0) d

/-- The rows of branch 0 from those produced to hi are completed in every stripe, branch 1 brought to the matching row; false
when memory answers with an error, which ends the PIX. -/
def pixAdvance (d : Device) (w : WorkOrder) (hi : Nat) : Device × Bool :=
  let lo := w.progress
  let read := onStripes w (stripeReads w) (fun d req c => surfaceReadIn d req w.surfIn (pixSourceRows w lo) (pixSourceRows w hi) c.1 c.2) d
  match read with
  | (d, false) => (pixFinish d w 0x20 lo, false)
  | (d, true) =>
    let first := pixPlanes d w 0
    let second := if woField w 66 1 = 0 then [] else pixPlanes d w 1
    match onStripes w (stripeWrites w 0) (fun d req c => surfaceWriteIn d req (pixOut w 0) lo hi c.1 c.2 first) d with
    | (d, false) => (pixFinish d w 0x20 lo, false)
    | (d, true) =>
      let put := if woField w 66 1 = 0 then (d, true)
        else onStripes w (stripeWrites w 1)
          (fun d req c => surfaceWriteIn d req (pixOut w 1) (pixRows1 w lo) (pixRows1 w hi) c.1 c.2 second) d
      match put with
      | (d, false) => (pixFinish d w 0x20 lo, false)
      | (d, true) => (pixCounted (modWo d w.ticket (fun w => { w with progress := hi })) w (pixSourceRows w lo) (pixSourceRows w hi), true)

/-- A PIX starts on its engines, or runs on, until `rows` rows of branch 0 are produced in every stripe (R226, R228). -/
def pixRun (d : Device) (t rows : Nat) : Device :=
  match woAt d t with
  | none => d
  | some w =>
    if w.kind ≠ .pix then d
    else if canStart d w then pixProgresses (takeEngines d w) w 0 true
    else if w.phase = .running ∧ allEngines d w ∧ w.progress < rows ∧ rows < sfHeight (pixOut w 0) then
      match pixAdvance d w rows with
      | (d, true) => pixProgresses d w rows false
      | (d, false) => d
    else d

/-- The slowest stripe of a running PIX finishes: the remaining rows, the last progress words, the final record; a malformed
tile ends it with 0x51 (R228, R230, R237). -/
def pixEnd (d : Device) (t : Nat) : Device :=
  match woAt d t with
  | none => d
  | some w =>
    if w.kind ≠ .pix ∨ w.phase ≠ .running ∨ !allEngines d w then d
    else
      let h := sfHeight (pixOut w 0)
      let bad := badTiles d w.surfIn
      match pixAdvance d w h with
      | (d, false) => d
      | (d, true) => pixFinish d w (if bad = 0 then 0 else 0x51) h

/-- PIX_START. A PIX starts its stripes, and with the same command runs on to a row count. -/
def execPixStart (t rows : Nat) (s : State) : Host.Outcome State Fault Refusal := done s (pixRun s.dev t rows)

/-- PIX_END. -/
def execPixEnd (t : Nat) (s : State) : Host.Outcome State Fault Refusal := done s (pixEnd s.dev t)

end Sys2Proof.Machine
end

