-- ==== Sys2Proof/Machine/Engines.lean ====
section
/-! DEFINITION. What all engines share: stopping work, preemption (R176–R178), long engine instructions (R208, R209), the control
stores, their parity and patches (R202–R216). -/

namespace Sys2Proof.Machine

/-! Stopping work. -/

/-- A row count of 64 × 64 statistics blocks an aborted ANA has reached: not stated, so open. -/
def anaRows (d : Device) (w : WorkOrder) : Nat := free d 140 % ((anaBlocks w).2 + 1)

/-- A queued picture leaves its sequence (R99). -/
def encLeave (d : Device) (w : WorkOrder) : Device := modEnc d (encKey w) (fun s => encPrune (encRemove s w.ticket))

/-- Engine work that is accepted and not yet over ends with a status: queued work without output, running work where it stands. -/
def stopEngineWork (d : Device) (t status : Nat) : Device :=
  match woAt d t with
  | none => d
  | some w =>
    match w.kind with
    | .enc | .encr =>
      match encRunAt d t with
      | some r => if r.coded then encOver d t status (runFlags r false) else encStop d t status
      | none => finishWo (freeEngines (if w.phase = .dispatched then encRefused d w else encLeave d w) t) t status 0 encEmpty
    | .dec | .vfy => if (decAt d t).isSome then decStop d t status else finishWo (freeEngines d t) t status 0 (decEmpty d w 0)
    | .ana =>
      if w.phase = .running then anaStop d w status (anaRows d w)
      else anaOver d w status (anaResult w 0 0 0 0)
    | .pix => pixFinish d w status w.progress
    | _ => d

/-! Preemption (R176–R178). -/

/-- Of CTUs that engine u decodes, each row of each tile is done or not begun. -/
def decRowEnds (w : WorkOrder) (r : DecRun) (u : Nat) : Bool :=
  let h := r.head
  let cols := max 1 (decGrid h).1
  let mine := (upto 0 (decCtus h)).filter (fun a => decEngine w h a == u)
  mine.all (fun a => mine.all (fun b => decTile h a != decTile h b || a / cols != b / cols || ctuThere r a == ctuThere r b))

/-- Engine u stands where it takes a preemption: the end of a CTU row or tile, a PROG of a long instruction, or 64 output rows (R176, R207,
R208). -/
def atBoundary (d : Device) (u t : Nat) : Bool :=
  match woAt d t with
  | none => false
  | some w =>
    (microOf d u t).routine != 0 ||
    match w.kind with
    | .enc | .encr =>
      match encRunAt d t with
      | none => true
      | some r =>
        r.coded || (upto 0 (tileCount w)).all (fun k =>
          tileEngine w k != u || (let x := runTile r k; x.acc.cus == 0 && (tileDone w r k || x.ctu % max 1 (tileDims w k).1 == 0)))
    | .dec | .vfy =>
      match decAt d t with
      | none => true
      | some r => decRowEnds w r u
    | .pix => w.progress % 64 == 0
    | _ => false

/-- At a boundary engine u suspends its work for live work q (R176, R177). An engine without current work whose suspended work has a
lower priority takes q before it resumes. -/
def preempt (d : Device) (u q : Nat) : Device :=
  let e := engineAt d u
  let rest := e.susp.filter (· ≠ q)
  match e.cur with
  | some t =>
    if mayPreempt d u (prioOf d t) q && atBoundary d u t && decide (rest.length < 2) then
      let d := setEngine d u { e with cur := some q, susp := t :: rest }
      let d := { d with codec := { d.codec with preempts := bump 65536 (trussOf u) d.codec.preempts } }
      if u < 96 then perfEvent d 2 5 u 1 (match woAt d t with | some w => (ctxAt d w.ctx).isSealed | none => false) t u else d
    else d
  | none =>
    match e.susp with
    | [] => d
    | t :: _ => if mayPreempt d u (prioOf d t) q then setEngine d u { e with cur := some q, susp := rest } else d

/-- Suspended work of the highest priority. -/
def bestSuspended (d : Device) : List Nat → Option Nat
  | [] => none
  | t :: r => match bestSuspended d r with | some b => some (if prioOf d b ≤ prioOf d t then t else b) | none => some t

/-- No queued work above a priority is ready for engine u. -/
def noneAbove (d : Device) (u p : Nat) : Bool :=
  d.wos.all (fun w => !(queuedReady d w && (woEngines w).contains u && decide (p < w.effPrio)))

/-- Suspended work resumes on engine u: when the engine is free of current work, or its current work is an ENCR with no codable row
(R177). -/
def resume (d : Device) (u : Nat) : Device :=
  let e := engineAt d u
  match bestSuspended d e.susp with
  | none => d
  | some t =>
    let rest := e.susp.filter (· ≠ t)
    match e.cur with
    | none => if noneAbove d u (prioOf d t) then setEngine d u { e with cur := some t, susp := rest } else d
    | some c =>
      match woAt d c with
      | some w =>
        if isEncr w && w.phase == .running && !encrRunnable d w u && atBoundary d u c && noneAbove d u (prioOf d t) then
          setEngine d u { e with cur := some t, susp := c :: rest }
        else d
      | none => d

/-! Long engine instructions (R208, R209). -/

/-- The work of an engine has a long instruction of a code (R208). -/
def hasRoutine (d : Device) (w : WorkOrder) (code : Nat) : Bool :=
  match w.kind with
  | .enc | .encr =>
    (code == 1 && decide (encMode w < 4)) ||
      (code == 3 && woField w 48 8 != 0 &&
        (match encRunAt d w.ticket with | some r => (upto 0 (tileCount w)).all (tileDone w r) | none => false))
  | .dec | .vfy =>
    code == 1 ||
      (code == 2 && decide (decCodec w ≤ 1) &&
        (match decAt d w.ticket with | some r => (match r.head.hash with | some (k, _) => k == 1 | none => false) | none => false)) ||
      (code == 3 && woField w 48 8 != 0 && !bitOf (woField w 70 1) 1) || (code == 4 && woField w 48 8 != 0 && bitOf (woField w 70 1) 1)
  | _ => false

/-- The results of a step of a copy to SURF_OUT (R113, R186): block `steps` of it, all planes. -/
def copyStep (d : Device) (w : WorkOrder) (steps : Nat) : Device :=
  let o := w.surfOut
  let planes := match decAt d w.ticket, encRunAt d w.ticket with
    | some r, _ => overSurface d o (copyPlanes d w r)
    | none, some r => finalPlanes w r.recon
    | none, none => []
  (writePieces (engineReq w.unit) (sfHandle o) (blockPieces o planes steps) d).1

/-- The condition sources of an engine at a PROG word (R205): the step is done, the routine goes on or ends. -/
def progSources (d : Device) (w : WorkOrder) (u : Nat) (last : Bool) : CondSources :=
  { openSources d 4096 with stepDone := true, loopZero := last, cuEnds := false, sampled := sampled d w u }

/-- A step of a long engine instruction of engine u ends: its results are written, STEPS counts it; `last` says the routine ends. -/
def progStep (d : Device) (u code : Nat) (last : Bool) : Device :=
  match (engineAt d u).cur with
  | none => d
  | some t =>
    match woAt d t with
    | none => d
    | some w =>
      let p := microOf d u t
      if 96 ≤ u ∨ w.phase ≠ .running ∨ !hasRoutine d w code ∨ (p.routine ≠ 0 ∧ p.routine ≠ code) then d
      else
        let steps := if p.routine = code then p.steps else 0
        let d := if code = 3 ∨ code = 4 then copyStep d w steps else d
        let d := microTo d u .prog (progSources d w u last)
        let p := microOf d u t
        setMicroOf d u t (if last then { p with routine := 0, steps := 0 } else { p with routine := code, steps := (steps + 1) % 2 ^ 28 })

/-! Control stores (R202–R205, R210, R216). -/

/-- CE_MCODE_VER of engine u (R211). -/
def mcodeVer (d : Device) (u : Nat) : Nat := 0x0101 * 65536 + (storeAt d u).id

/-- CE_MCHK of engine u (R210). -/
def mchkAt (d : Device) (u : Nat) : Mchk := tget Mchk.reset u d.codec.mchk

/-- Change CE_MCHK. -/
def setMchk (d : Device) (u : Nat) (m : Mchk) : Device := { d with codec := { d.codec with mchk := tset Mchk.reset u m d.codec.mchk } }

/-- CE_MCHK as read. -/
def mchkWord (m : Mchk) : Nat := ofFlag m.valid * 2 ^ 31 + ofFlag m.nano * 2 ^ 30 + m.addr % 4096 * 2 ^ 16 + m.count * 256 + m.lanes % 256

/-- The bytes of a surface's planes and of its dressed header table: start and length (R82, R231, R232). -/
def surfSpans (d : Device) (s : List Byte) : List (Nat × Nat) :=
  if handleGen (sfHandle s) = 0 then []
  else
    let base := bufBase d (handleIdx (sfHandle s))
    (sfPlanes s).map (fun p => (base + p.off, planeEnd (sfLayout s) p - p.off)) ++
      (if sfLayout s = 2 then [(base + sfAux s, auxBefore s 4)] else [])

/-- n bytes of a buffer from an offset, never past its end; none for the handle 0. -/
def bufSpan (d : Device) (h o n : Nat) : List (Nat × Nat) :=
  if handleGen h = 0 then [] else [(bufBase d (handleIdx h) + o, min n (bufSize d (handleIdx h) - o))]

/-- The memory that holds the output of an engine's work order: start and length of each part (R98, R116, R130, R140, R185, R186, R199,
R217). Ring output is not among them: an entry delivered is gone. -/
def outputSpans (d : Device) (w : WorkOrder) : List (Nat × Nat) :=
  let out := if woField w 48 8 = 0 then [] else surfSpans d w.surfOut
  match w.kind with
  | .enc | .encr =>
    (if encRing w then []
     else bufSpan d (woHandle w 1) (encOff w) 65536 ++
      (upto 0 (tileCount w)).flatMap (fun t => let (h, o, n) := stageOf d w t; bufSpan d h o n)) ++
      bufSpan d (woField w 124 4) 0 (statBytes (ctuGrid w).1 (ctuGrid w).2) ++ out
  | .dec | .vfy =>
    (match decAt d w.ticket with
     | some r => surfSpans d (slotSurf w r.slot) ++ bufSpan d (woField w 84 4) 0 (decCtus r.head)
     | none => []) ++ out
  | .ana =>
    bufSpan d (woHandle w 1) 0 (4096 + 8 * ((anaGrid w).1 * (anaGrid w).2)) ++
      (if bitOf (woField w 64 1) 1 then bufSpan d (woHandle w 2) 0 (512 + 32 * ((anaBlocks w).1 * (anaBlocks w).2)) else [])
  | .pix => surfSpans d (pixOut w 0) ++ (if woField w 66 1 = 0 then [] else surfSpans d (pixOut w 1))
  | _ => []

/-- Write free bytes over a part of memory. -/
def spoil (d : Device) (s : Nat × Nat) : Device :=
  withCells d (setCells s.1 ((upto s.1 s.2).map (fun a => Config.freeByte d.draw a)) d.mem.cells)

/-- Work ends with 0xFF INTERNAL, with the event of source 447; its output is undefined, so its bytes are free values (R86, R458). -/
def internalEnd (d : Device) (t : Nat) : Device :=
  match woAt d t with
  | some w => (outputSpans d w).foldl spoil (stopEngineWork (plumbEvent d 447 (w.unit * 2 ^ 32 + t)) t 0xFF)
  | none => d

/-- An engine's block reset: no work, no long instruction, its stores reloaded with the truss's retained patch (R210). -/
def engineReset (d : Device) (u : Nat) : Device :=
  let e := engineAt d u
  let d := (e.susp ++ e.cur.toList).foldl internalEnd d
  let d := setEngine d u { engineAt d u with cur := none, susp := [] }
  if u < 96 then
    { d with codec := { d.codec with store := tset Retained.reset u (tget Retained.reset (trussOf u) d.codec.keep) d.codec.store } }
  else d

/-- A control-store parity failure of engine u (R210). -/
def parityFault (d : Device) (u : Nat) (nano : Bool) (addr lanes : Nat) : Device :=
  if 96 ≤ u ∨ (engineAt d u).cur = none then d
  else
    let m := mchkAt d u
    let m : Mchk := { valid := true, nano := nano, addr := addr % (if nano then 1024 else 4096), count := satAdd 0xFF m.count 1
                      lanes := if nano then lanes % 256 else 1 }
    let d := setMchk d u m
    engineReset (plumbEvent d (144 + u) (mchkWord m)) u

/-! Patches (R211–R216). -/

/-- The patch loader of truss n. -/
def patchAt (d : Device) (n : Nat) : Patch := tget Patch.reset n d.codec.patches

/-- Change the patch loader of truss n. -/
def setPatch (d : Device) (n : Nat) (p : Patch) : Device := { d with codec := { d.codec with patches := tset Patch.reset n p d.codec.patches } }

/-- A load of truss n ends with a status. -/
def patchFail (d : Device) (n status : Nat) : Device := setPatch d n { patchAt d n with busy := false, ready := false, status := status, image := [], sig := [] }

/-- The micro entries of an image: address and word. -/
def microEntries (b : List Byte) : List (Nat × Nat) :=
  (upto 0 (fieldAt b 20 2)).map (fun i => let o := fieldAt b 24 4 + 8 * i; (fieldAt b o 2, fieldAt b (o + 4) 4))

/-- The nano entries of an image. -/
def nanoEntries (b : List Byte) : List (Nat × Nat) :=
  (upto 0 (fieldAt b 22 2)).map (fun i => let o := fieldAt b 28 4 + 32 * i; (fieldAt b o 2, fieldAt b (o + 8) 24))

/-- Header fields and lists of a patch image in a buffer of some size (R212, R213 step 3). -/
def patchOk (b : List Byte) (size : Nat) : Bool :=
  let is := fieldAt b 8 4
  let mc := fieldAt b 20 2
  let nc := fieldAt b 22 2
  let mo := fieldAt b 24 4
  let no := fieldAt b 28 4
  fieldAt b 0 4 == 0x44434D51 && fieldAt b 4 2 == 1 && fieldAt b 6 2 == 0x0101 && is % 256 == 0 && decide (64 ≤ is) && decide (fieldAt b 12 4 ≤ 63) &&
    fieldAt b 16 2 != 0 && fieldAt b 18 1 == 1 && zeroAt b 19 1 && decide (mc ≤ 4096) && decide (nc ≤ 1024) && mo % 8 == 0 && no % 8 == 0 &&
    zeroAt b 32 32 && decide (is + 3456 ≤ size) && (mc == 0 || (decide (64 ≤ mo) && decide (mo + 8 * mc ≤ is))) &&
    (nc == 0 || (decide (64 ≤ no) && decide (no + 32 * nc ≤ is))) && (mc == 0 || nc == 0 || decide (mo + 8 * mc ≤ no) || decide (no + 32 * nc ≤ mo)) &&
    (microEntries b).all (fun e => decide (e.1 < 4096) && decide (e.2 < 2 ^ 24)) && (nanoEntries b).all (fun e => decide (e.1 < 1024)) &&
    (upto 0 mc).all (fun i => zeroAt b (mo + 8 * i + 2) 2) && (upto 0 nc).all (fun i => zeroAt b (no + 32 * i + 2) 6) &&
    noRepeat ((microEntries b).map (·.1)) && noRepeat ((nanoEntries b).map (·.1))

/-- A write of TRUSS_PATCH_CTRL of truss n (R212, R213): GO reads the image and makes every check that needs no signature. -/
def patchGo (fz : Fuses) (d : Device) (n v : Nat) : Device :=
  let p := patchAt d n
  if !bitOf v 8 ∨ p.busy then d
  else
    let mask := v % 256
    let h := reg d (0x2000110 + n * 0x100000) 0
    let d := setPatch d n { p with mask := mask, busy := true, ready := false, image := [] }
    if mask = 0 then patchFail d n 0x31
    else
      let st := handleStatus d (funcOwner 0) h
      if st ≠ 0 then patchFail d n st
      else
        let i := handleIdx h
        match bufRead d (engineReq (96 + 2 * n)) h 0 64 with
        | (d, none) => patchFail d n 0x20
        | (d, some hd) =>
          if bufSize d i < fieldAt hd 8 4 + 3456 then patchFail d n 0x31
          else
            match bufRead d (engineReq (96 + 2 * n)) h 0 (fieldAt hd 8 4 + 3456) with
            | (d, none) => patchFail d n 0x20
            | (d, some b) =>
              if !patchOk b (bufSize d i) then patchFail d n 0x31
              else if !keyQueleivo fz then patchFail d n 0x71
              else setPatch d n { patchAt d n with image := b.take (fieldAt hd 8 4), sig := b.drop (fieldAt hd 8 4) }

/-- Engine u is among those a load of truss n patches. -/
def patched (n mask u : Nat) : Bool := decide (8 * n ≤ u) && decide (u < 8 * n + 8) && bitOf mask (u - 8 * n)

/-- An engine that was freed for queued work by preemption takes it no more: the work starts when the engine is no longer held (R214). -/
def dropClaim (d : Device) (u : Nat) : Device :=
  match (engineAt d u).cur with
  | some t => match woAt d t with | some w => if w.phase = .queued then freeEngines d t else d | none => d
  | none => d

/-- Set or clear HOLD on the masked engines of truss n. -/
def patchHold (d : Device) (n mask : Nat) (on : Bool) : Device :=
  (upto (8 * n) 8).foldl (fun d u =>
    if !patched n mask u then d
    else
      let d := if on then dropClaim d u else d
      setEngine d u { engineAt d u with hold := on }) d

/-- Verification ends (R213 step 5, R214 step 1): `good` says what a check of the signatures
finds. -/
def patchVerified (fz : Fuses) (d : Device) (n : Nat) (good : SigOk) : Device :=
  let p := patchAt d n
  if !p.busy ∨ p.ready then d
  else
    let (d, verified) := hybridOk d (signerKey fz 1) p.image p.sig good
    let v := fieldAt p.image 12 4
    if !verified then patchFail d n 0x70
    else
    let d := arbRun d 3 v
    if v < arbCount fz 3 then patchFail d n 0x70
    else patchHold (setPatch d n { p with ready := true }) n p.mask true

/-- Every masked engine is idle: the patch is written (R214 steps 2 and 3). -/
def patchApply (d : Device) (n : Nat) : Device :=
  let p := patchAt d n
  let idle := (upto (8 * n) 8).all (fun u => !patched n p.mask u || ((engineAt d u).cur == none && (engineAt d u).susp.isEmpty))
  if !p.ready ∨ !idle then d
  else
    let r : Retained := { id := fieldAt p.image 16 2, digest := Config.sha384 p.image, micro := microEntries p.image, nano := nanoEntries p.image }
    let d := { d with codec := { d.codec with
      keep := tset Retained.reset n r d.codec.keep
      store := (upto (8 * n) 8).foldl (fun t u => if patched n p.mask u then tset Retained.reset u r t else t) d.codec.store } }
    intcEvent (setPatch (patchHold d n p.mask false) n { p with busy := false, ready := false, status := 0, image := [], sig := [] }) (80 + n)

/-- TRUSS_PATCH_STAT of truss n. -/
def patchStat (d : Device) (n : Nat) : Nat :=
  let p := patchAt d n
  ofFlag p.busy * 2 ^ 31 + ofFlag p.ready * 2 ^ 30 + p.mask * 256 + p.status

/-- An FLR of the PF abandons every load that has not begun to write (R214). -/
def patchAbandon (d : Device) : Device :=
  (upto 0 12).foldl (fun d n => if (patchAt d n).busy then patchHold (patchFail d n 0x10) n (patchAt d n).mask false else d) d

/-! Commands. -/

/-- PREEMPT. -/
def execPreempt (u q : Nat) (s : State) : Host.Outcome State Fault Refusal := done s (preempt s.dev u q)

/-- SUSPENDED_RESUME. -/
def execSuspendedResume (u : Nat) (s : State) : Host.Outcome State Fault Refusal := done s (resume s.dev u)

/-- ENGINE_PROG_STEP. -/
def execEngineProgStep (u code : Nat) (last : Bool) (s : State) : Host.Outcome State Fault Refusal := done s (progStep s.dev u code last)

/-- CE_PARITY_FAULT. -/
def execCeParityFault (u : Nat) (nano : Bool) (addr lanes : Nat) (s : State) : Host.Outcome State Fault Refusal :=
  done s (parityFault s.dev u nano addr lanes)

/-- PATCH_VERIFY_DONE. -/
def execPatchVerifyDone (n : Nat) (good : SigOk) (s : State) : Host.Outcome State Fault Refusal := done s (patchVerified s.fuses s.dev n good)

/-- PATCH_APPLY. -/
def execPatchApply (n : Nat) (s : State) : Host.Outcome State Fault Refusal := done s (patchApply s.dev n)

end Sys2Proof.Machine
end

