-- ==== Sys2Proof/Machine/Time.lean ====
section
/-! DEFINITION. The passing of time: what an empty queue does. -/

namespace Sys2Proof.Machine

/-- ETH_TIME_RATE as it acts: units of 2^−40 ns per ns, limited to ±549,755,814 (R364). -/
def ethRate (d : Device) : Int := max (-549755814) (min 549755814 (signedOf 32 (reg d 0xA00108 0)))

/-- BOND_TIME_CTRL.ROLE: 2 is a follower, whose rate the servo trims (R390). -/
def bondRole (d : Device) : Nat := bitsOf (reg d 0xB00040 0) 31 30

/-- The rate trim in force. -/
def timeRate (d : Device) : Int := if bondRole d = 2 then d.bond.rate else ethRate d

/-- XSPI_RESET_N rises once it has been low for its time (R506). -/
def xspiRelease (d : Device) : Device :=
  match d.crp.xspiLow with
  | some t => if t ≤ d.up then emit { d with crp := { d.crp with xspiLow := none } } (.pin "XSPI_RESET_N" true) else d
  | none => d

/-- One nanosecond of the device's own clock passes: durations count it, and device time advances by one nanosecond trimmed by
the rate in force (R363, R364, R390). `frac` holds what is left in units of 2^−40 ns. -/
def passNs (d : Device) : Device :=
  let f := d.frac + 2 ^ 40 + timeRate d
  xspiRelease { d with up := d.up + 1, time := (d.time + (f / 2 ^ 40).toNat) % 2 ^ 64, frac := f % 2 ^ 40 }

end Sys2Proof.Machine
end

