-- ==== Sys2Proof/Machine/Sdi.lean ====
section
/-! DEFINITION. SDI outputs and Mortar's IP senders (R287–R289, R376, R470, R471): configuration, alignment and timecode. -/

namespace Sys2Proof.Machine

/-- An SDI output, or an IP sender as outputs 4 and 5. -/
def sdiAt (d : Device) (n : Nat) : SdiOut := tget SdiOut.reset n d.sdi

/-- Change an output. -/
def setSdi (d : Device) (n : Nat) (x : SdiOut) : Device := { d with sdi := tset SdiOut.reset n x d.sdi }

/-- Offset of SDIn_CFG, or of ETH_IPn_CFG for outputs 4 and 5. -/
def sdiOff (n : Nat) : Nat := if n < 4 then 0xC00000 + 16 * n else 0xA00180 + 16 * (n - 4)

/-- Reset value of that register. -/
def sdiRst (n : Nat) : Nat := if n < 4 then 0 else 15 * 2 ^ 12

/-- The register of output n without CFG_ERR. -/
def sdiReg (d : Device) (n : Nat) : Nat := reg d (sdiOff n) (sdiRst n)

/-- EN. -/
def sdiEn (v : Nat) : Bool := bitOf v 31

/-- RATE. -/
def sdiRate (v : Nat) : Nat := bitsOf v 27 24

/-- Frame rate as a fraction (frames, seconds). -/
def rateOf (r : Nat) : Nat × Nat :=
  match r with
  | 0 => (24000, 1001) | 1 => (24, 1) | 2 => (25, 1) | 3 => (30000, 1001) | 4 => (30, 1) | 5 => (48000, 1001)
  | 6 => (48, 1) | 7 => (50, 1) | 8 => (60000, 1001) | _ => (60, 1)

/-- Width and height of a RASTER code. -/
def rasterOf (v : Nat) : Nat × Nat :=
  match bitsOf v 23 22 with
  | 0 => (1920, 1080) | 1 => (2048, 1080) | 2 => (3840, 2160) | _ => (4096, 2160)

/-- A combination of LINK, RATE and RASTER of the table of R287. -/
def sdiComboOk (v : Nat) : Bool :=
  let rate := sdiRate v
  let small := decide (bitsOf v 23 22 ≤ 1)
  match bitsOf v 30 28 with
  | 0 => small && decide (rate ≤ 4)
  | 1 => small && decide (rate ≤ 9)
  | 2 => !small && decide (rate ≤ 4)
  | 3 => !small && decide (rate ≤ 9)
  | _ => false

/-- A combination an IP sender allows (R376). -/
def ipComboOk (v : Nat) : Bool := decide (sdiRate v ≤ 9) && (decide (bitsOf v 15 12 ≤ 5) || bitsOf v 15 12 == 15)

/-- SDIn_PHASE; an IP sender has none. -/
def sdiPhase (d : Device) (n : Nat) : Int := if n < 4 then signedOf 32 (reg d (0xC00004 + 16 * n) 0) else 0

/-- The aligned instant of frame k (R288): the ST 2059-1 alignment point is k × period from time 0. -/
def alignedAt (d : Device) (n : Nat) (rate : Nat) (k : Int) : Int :=
  let (num, den) := rateOf rate
  k * (1000000000 * den : Nat) / (num : Int) + sdiPhase d n

/-- The number of the frame whose aligned instant is the last one not later than a time. -/
def alignedIndex (d : Device) (n rate : Nat) (t : Int) : Int :=
  let (num, den) := rateOf rate
  (((t - sdiPhase d n) + 1) * (num : Int) - 1) / (1000000000 * den : Nat)

/-- The first aligned instant that is not earlier than a time. -/
def alignedFrom (d : Device) (n rate : Nat) (t : Int) : Int :=
  let k := alignedIndex d n rate t
  let a := alignedAt d n rate k
  if t ≤ a then a else alignedAt d n rate (k + 1)

/-- The aligned instant nearest to a time. -/
def alignedNear (d : Device) (n rate : Nat) (t : Int) : Int :=
  let a := alignedAt d n rate (alignedIndex d n rate t)
  let b := alignedFrom d n rate t
  if t - a ≤ b - t then a else b

/-- When the next frame begins, given when the frame in progress ends (R471): an error of at most 10 µs is pulled in; a larger one
is a realignment, with blanking until the first aligned boundary not earlier than the end of the frame. -/
def sdiPlan (d : Device) (n : Nat) (x : SdiOut) (natural : Int) : SdiOut :=
  let e := natural - alignedNear d n (sdiRate x.cfg) natural
  if e.natAbs ≤ 10000 then { x with due := natural.toNat, err := e }
  else { x with due := (alignedFrom d n (sdiRate x.cfg) natural).toNat, err := 0, realign := (x.realign + 1) % 2 ^ 32 }

/-- A change of configuration takes effect: at a frame boundary, or at once on an output that sends nothing. -/
def sdiApply (d : Device) (n : Nat) : Device :=
  let x := sdiAt d n
  let v := sdiReg d n
  let y := { x with cfg := v }
  if !sdiEn v then setSdi d n y
  else if !sdiEn x.cfg then setSdi d n (sdiPlan d n { y with seq := free d 100 } d.time)
  else if sdiRate v ≠ sdiRate x.cfg then setSdi d n (sdiPlan d n y x.due)
  else setSdi d n y

/-- A write of SDIn_CFG or ETH_IPn_CFG that its table allows, or is refused (R287, R376). -/
def sdiCfgWrite (d : Device) (n v : Nat) : Device :=
  let errBit := if n < 4 then 20 else 18
  let mask := if n < 4 then 0xFFE0FFFF else 0x8FF8F03F
  let d := if bitOf v errBit then setSdi d n { sdiAt d n with cfgErr := false } else d
  if !(if n < 4 then sdiComboOk v else ipComboOk v) then setSdi d n { sdiAt d n with cfgErr := true }
  else
    let d := setReg d (sdiOff n) (sdiRst n) (v &&& mask)
    if sdiEn (sdiAt d n).cfg then d else sdiApply d n

/-- SDIn_CFG or ETH_IPn_CFG as read. -/
def sdiCfgRead (d : Device) (n : Nat) : Nat :=
  sdiReg d n + ofFlag (sdiAt d n).cfgErr * (if n < 4 then 2 ^ 20 else 2 ^ 18)

/-- The template buffer of an IP sender whose EN a write changes is held while EN = 1 (R15). -/
def ipHold (d : Device) (n : Nat) (was now : Bool) : Device :=
  let h := reg d (sdiOff n + 4) 0
  if was == now || !handleCurrent d h then d
  else if now then holdBuf d (handleIdx h) else unholdBuf d (handleIdx h)

/-- A write of ETH_IPn_CFG (R376). -/
def ipCfgWrite (d : Device) (n v : Nat) : Device :=
  let was := sdiEn (sdiReg d (4 + n))
  let d := sdiCfgWrite d (4 + n) v
  ipHold d (4 + n) was (sdiEn (sdiReg d (4 + n)))

/-- A write of ETH_IPn_TMPL, ignored while EN = 1. -/
def ipTmplWrite (d : Device) (n v : Nat) : Device :=
  if sdiEn (sdiReg d (4 + n)) then d else setReg d (sdiOff (4 + n) + 4) 0 (v % 2 ^ 32)

/-- Bit n of CRP_CLK_STAT.SDI_LOCK (R470). -/
def sdiLocked (d : Device) (n : Nat) : Bool := sdiEn (sdiAt d n).cfg && decide ((sdiAt d n).err.natAbs ≤ 100)

/-- The 1 ms update of output n's frequency word (R470, R471): the trim of device time, and at most 100 ppm to pull in the phase,
within 600 ppm. -/
def sdiPll (d : Device) (n : Nat) : Device :=
  let x := sdiAt d n
  if !sdiEn x.cfg then d
  else
    let pull := max (-100) (min 100 x.err)
    let word := max (-659706976) (min 659706976 (timeRate d + pull * 1099511))
    setSdi d n { x with err := x.err - pull, due := ((x.due : Int) - pull).toNat, trim := word }

/-- A step of device time moves the frame in progress of every enabled output, and each finds its new alignment (R365, R471). -/
def sdiStep (d : Device) (delta : Int) : Device :=
  (upto 0 6).foldl (fun d n =>
    let x := sdiAt d n
    if sdiEn x.cfg then setSdi d n (sdiPlan d n x ((x.due : Int) + delta)) else d) d

/-! Timecode (R289). -/

/-- Frames a second that the time address counts. -/
def nominalRate (r : Nat) : Nat := let (num, den) := rateOf r; (num + den - 1) / den

/-- The time address of a frame count since midnight, with drop-frame counting at 29.97 and 59.94: hours, minutes, seconds,
frames. -/
def timeAddress (nom : Nat) (drop : Bool) (n : Nat) : List Nat :=
  let m := nom / 30
  let n := if drop then
      let q := n % (17982 * m)
      n + 18 * m * (n / (17982 * m)) + (if q < 2 * m then 0 else 2 * m * ((q - 2 * m) / (1798 * m)))
    else n
  [n / (3600 * nom) % 24, n / (60 * nom) % 60, n / nom % 60, n % nom]

/-- The timecode of a picture time for a configuration (R289). -/
def timecodeOf (d : Device) (cfg t : Nat) : List Nat :=
  let utc := reg d 0xA0010C 0
  let off := if bitOf utc 31 then signedOf 16 (utc % 65536) else 0
  let t : Int := t - off * 1000000000 + signedOf 16 (cfg % 65536) * 60000000000
  let day := (t % 86400000000000).toNat
  let (num, den) := rateOf (sdiRate cfg)
  timeAddress (nominalRate (sdiRate cfg)) (bitOf cfg 21 && (sdiRate cfg == 3 || sdiRate cfg == 8)) (day * num / (1000000000 * den))

end Sys2Proof.Machine
end

