-- ==== Sys2Proof/Machine/MemCmds.lean ====
section
/-! DEFINITION. DRAM channels: queues, scheduling, refresh, scrub, retraining (R293–R301, R306); region registers (R302, R304);
Ashlar banks (R307–R309) and the ABS wipe (R311). -/

namespace Sys2Proof.Machine

/-- DRAM channel c. -/
def chanAt (d : Device) (c : Nat) : Chan := tget Chan.reset c d.mem.chans

/-- Change DRAM channel c. -/
def setChan (d : Device) (c : Nat) (x : Chan) : Device :=
  { d with mem := { d.mem with chans := tset Chan.reset c x d.mem.chans } }

/-- The default latency target of a port (R296). -/
def qosDefault (n : Nat) : Nat := if n = 33 then 4000 else if n = 36 then 2000 else if n = 40 then 8000 else 0

/-- TARGET_NS of a port. -/
def qosTarget (d : Device) (n : Nat) : Nat := bitsOf (reg d (0x4010100 + 4 * n) (qosDefault n)) 15 0

/-- Age of a port's oldest outstanding request: a read until it is served, a write until its queue takes it (R295). -/
def portAge (d : Device) (n : Nat) : Nat :=
  ((d.mem.chans.flatMap (fun e => e.2.reads ++ e.2.wait)).filter (fun r => r.requester == n)).foldl
    (fun m r => max m (d.up - r.at_)) 0

/-- The urgency of a port (R295): 0 below 50 % of its target, 1 from 50 %, 2 from 75 %, 3 from 100 %. -/
def urgency (d : Device) (n : Nat) : Nat :=
  let t := qosTarget d n
  let a := portAge d n
  if t = 0 then 0 else if t ≤ a then 3 else if 3 * t ≤ 4 * a then 2 else if t ≤ 2 * a then 1 else 0

/-- The key of the bank that a channel-local address lies in: rank × 16 + bank. -/
def bankKey (d : Device) (a : Nat) : Nat := let (rank, _, bank) := rowOf d (localOf d a); rank * 16 + bank

/-- The row of an address. -/
def rowNo (d : Device) (a : Nat) : Nat := (rowOf d (localOf d a)).2.1

/-- Keep the result of a served access: sequence number, requester, data (empty for a write or an error response). -/
def serve (d : Device) (seq requester : Nat) (data : List Byte) : Device :=
  { d with mem := { d.mem with served := d.mem.served ++ [(seq, requester, data)] } }

/-- A request joins its queue of 64 entries, or waits for a place in it behind those that wait already (R294, R295). -/
def chanTake (x : Chan) (r : DramReq) : Chan :=
  if x.wait.any (fun q => q.write == r.write) || decide (64 ≤ (if r.write then x.writes else x.reads).length) then { x with wait := x.wait ++ [r] }
  else if r.write then { x with writes := x.writes ++ [r] }
  else { x with reads := x.reads ++ [r] }

/-- A DRAM access arrives at its channel (R293, R294): it joins the read or the write queue, and a channel in power-down leaves it. An
address outside usable DRAM gets an error response. -/
def dmcAccess (d : Device) (requester a : Nat) (write : Bool) (data : List Byte) (size : Nat) : Device :=
  let n := if write then data.length else size
  if usableBytes d < a + n ∨ 64 < a % 64 + n ∨ n = 0 then serve d d.mem.reqSeq requester []
  else
    let c := chanOf d a
    let x := chanAt d c
    let r : DramReq :=
      { seq := d.mem.reqSeq, requester := requester, addr := a, write := write, data := data, size := n, at_ := d.up }
    setChan { d with mem := { d.mem with reqSeq := d.mem.reqSeq + 1 } } c { chanTake x r with powerDown := false, lastUse := d.up }

/-! Choosing a command (R294). -/

/-- A request that an older one to the same block holds back (R293). -/
def blocked (x : Chan) (r : DramReq) : Bool :=
  (x.reads ++ x.writes ++ x.wait).any (fun q => decide (q.seq < r.seq) && q.addr / 64 == r.addr / 64)

/-- A queued write that a waiting read matches, which is promoted (R293). -/
def promoted (x : Chan) (w : DramReq) : Bool :=
  x.reads.any (fun r => decide (w.seq < r.seq) && r.addr / 64 == w.addr / 64)

/-- A level-3 read waits on the channel. -/
def urgentRead (d : Device) (x : Chan) : Bool := x.reads.any (fun r => urgency d r.requester == 3)

/-- The channel drains writes (R294): from 48 entries on, or with no read waiting, until 16 remain; a level-3 read ends it. -/
def draining (d : Device) (x : Chan) : Bool :=
  x.reads.isEmpty || ((decide (48 ≤ x.writes.length) || (x.drain && decide (16 < x.writes.length))) && !urgentRead d x)

/-- The requests the channel may issue now. -/
def dramCandidates (d : Device) (x : Chan) : List DramReq :=
  if draining d x then x.writes.filter (fun w => !blocked x w)
  else (x.reads ++ x.writes.filter (promoted x)).filter (fun r => !blocked x r)

/-- A row hit, unless its bank has served 16 in a row while an older miss to the bank waits (R294). -/
def rowHit (d : Device) (x : Chan) (l : List DramReq) (r : DramReq) : Bool :=
  let k := bankKey d r.addr
  let hit := fun q : DramReq => tfind k x.open_ == some (rowNo d q.addr)
  hit r && !(decide (16 ≤ tget 0 k x.hits) &&
    l.any (fun q => decide (q.seq < r.seq) && bankKey d q.addr == k && !hit q))

/-- The better of two requests: urgency, row hit, age (R294). -/
def dramBetter (d : Device) (x : Chan) (l : List DramReq) (a b : DramReq) : DramReq :=
  let ua := urgency d a.requester
  let ub := urgency d b.requester
  if ua ≠ ub then (if ua < ub then b else a)
  else if rowHit d x l a ≠ rowHit d x l b then (if rowHit d x l a then a else b)
  else if b.seq < a.seq then b else a

/-- The request the channel issues next. -/
def dramChoice (d : Device) (x : Chan) : Option DramReq :=
  match dramCandidates d x with
  | [] => none
  | a :: l => some (l.foldl (dramBetter d x (a :: l)) a)

/-- Some queued request goes to the bank. -/
def bankBusy (d : Device) (x : Chan) (k : Nat) : Bool := (x.reads ++ x.writes).any (fun r => bankKey d r.addr == k)

/-- Issue an owed refresh of bank k: the bank is precharged first (R297). -/
def issueRefresh (x : Chan) (k : Nat) : Chan :=
  { x with open_ := tdel k x.open_, hits := tdel k x.hits, owed := tmod 0 k (· - 1) x.owed, postponed := x.postponed - 1 }

/-- What a served access does (R298, R299, R305): ECC outcomes, marks and logs, then the data. The poison pattern a failed write leaves
has a syndrome of its own. -/
def dramServe (d : Device) (r : DramReq) (flt : DramFault) : Device :=
  let blk := r.addr / 64 * 64
  let fl := ofFlag r.write
  match flt with
  | .link =>
    let d := dmcLink d blk r.requester fl r.write
    serve (if r.write then markBlock d blk (free d 21 % 65536) else d) r.seq r.requester []
  | _ =>
    let d := match flt with
      | .single syn => dmcCorrected d blk r.requester fl syn
      | .double syn => markBlock d blk syn
      | .mac => if r.write then d else { d with mem := { d.mem with badUnits := sadd (r.addr / 256 * 256) d.mem.badUnits } }
      | _ => d
    if r.write then serve (memWrite d (reqOf r.requester) false r.addr r.data).1 r.seq r.requester []
    else
      match memRead d (reqOf r.requester) false r.addr r.size with
      | (d, .ok, bs) => serve d r.seq r.requester bs
      | (d, _, _) => serve d r.seq r.requester []

/-- A request leaves its queue, and the first of those that wait takes the place if it is of that kind. -/
def chanLeave (x : Chan) (r : DramReq) : Chan :=
  let x := { x with reads := x.reads.filter (fun q => q.seq ≠ r.seq), writes := x.writes.filter (fun q => q.seq ≠ r.seq) }
  x.wait.foldl chanTake { x with wait := [] }

/-- Issue a chosen request: row state, counters, service. -/
def dramIssue (d : Device) (c : Nat) (x : Chan) (r : DramReq) (flt : DramFault) : Device :=
  let k := bankKey d r.addr
  let hit := tfind k x.open_ == some (rowNo d r.addr)
  let x' := { chanLeave x r with
    drain := draining d x, lastUse := d.up
    open_ := tput k (rowNo d r.addr) x.open_, hits := tput k (if hit then tget 0 k x.hits + 1 else 0) x.hits }
  let d := perfEvent (setChan d c x') 5 (if r.write then 1 else 0) c 1 false 0 0
  dramServe (perfEvent d 5 (if hit then 2 else 3) c 1 false 0 0) r flt

/-- A channel chooses and issues its next command (R294, R297): a forced refresh; else a request; else an owed refresh of an
idle bank; an idle channel may pull one refresh in, up to 8. -/
def dmcSchedule (d : Device) (c : Nat) (flt : DramFault) : Device :=
  let x := chanAt d c
  if 8 ≤ x.postponed then
    match x.owed with
    | (k, _) :: _ =>
      let n := c / 2
      let m := dmcAt d n
      setChan (setDmc d n { m with forced := (m.forced + 1) % 256 }) c (issueRefresh x k)
    | [] => setChan d c { x with postponed := 0 }
  else
    match dramChoice d x with
    | some r => dramIssue d c x r flt
    | none =>
      match x.owed.find? (fun e => !bankBusy d x e.1) with
      | some (k, _) => setChan d c (issueRefresh x k)
      | none =>
        if (x.reads ++ x.writes).isEmpty && decide (x.ahead < 8) && free d 20 % 2 == 0 then
          setChan d c { x with ahead := x.ahead + 1 }
        else d

/-- A per-bank refresh of bank k falls due (R297): covered by one pulled in, placed in an idle bank, or postponed. -/
def refreshDue (d : Device) (c k : Nat) : Device :=
  let x := chanAt d c
  if 0 < x.ahead then setChan d c { x with ahead := x.ahead - 1 }
  else if bankBusy d x k then
    setChan d c { x with owed := tmod 0 k (· + 1) x.owed, postponed := x.postponed + 1 }
  else setChan d c { x with open_ := tdel k x.open_, hits := tdel k x.hits }

/-- A channel idle for 1 µs enters power-down (R294). -/
def dmcPowerDown (d : Device) (c : Nat) : Device :=
  let x := chanAt d c
  if (x.reads ++ x.writes).isEmpty && decide (x.lastUse + 1000 ≤ d.up) then setChan d c { x with powerDown := true } else d

/-- The controller reads MR4 (R297); a move of two or more steps makes a check due early (R306). -/
def mr4Poll (d : Device) (c v : Nat) : Device :=
  let x := chanAt d c
  let far := decide (x.mr4 + 2 ≤ v) || decide (v + 2 ≤ x.mr4)
  setChan d c { x with mr4 := v, checkDue := if far && x.checkDue.isNone then some d.up else x.checkDue }

/-- A retrain of channel c ends (R306). -/
def retrainEnd (d : Device) (c : Nat) (failed : Bool) : Device :=
  let x := chanAt d c
  if failed then
    let d := setChan d c { x with fails := x.fails + 1, retryAt := some (d.up + 1000000) }
    let d := plumbEvent d (32 + c / 2) c
    if x.fails + 1 = 3 then plumbEvent d (48 + c / 2) c else d
  else setChan d c { x with fails := 0, retryAt := none }

/-- When the check of a channel fell due, if it has (R306): RETRAIN_MS, at least 8, after the last one, or early by MR4. -/
def checkDue (d : Device) (x : Chan) : Option Nat :=
  match x.checkDue with
  | some t => some t
  | none =>
    let t := x.checkedAt + max 8 (bitsOf (memCfg d) 15 8) * 1000000
    if t ≤ d.up then some t else none

/-- The periodic check of channel c (R306), once it is due: deferred at most 1 ms while a level-3 request waits; drift starts a
retrain. -/
def retrainCheck (d : Device) (c : Nat) (drift failed : Bool) : Device :=
  let x := chanAt d c
  match checkDue d x with
  | none => d
  | some since =>
    if (x.reads ++ x.writes).any (fun r => urgency d r.requester == 3) && decide (d.up < since + 1000000) then
      setChan d c { x with checkDue := some since }
    else
      let d := setChan d c { x with checkDue := none, checkedAt := d.up }
      if drift then retrainEnd d c failed else d

/-- 1 ms after a failed retrain it is retried (R306). -/
def retrainRetry (d : Device) (c : Nat) (failed : Bool) : Device :=
  match (chanAt d c).retryAt with
  | some t => if t ≤ d.up then retrainEnd d c failed else d
  | none => d

/-! Patrol scrub (R301). -/

/-- Blocks of a channel, data and ECC area together: usable DRAM is 31/32 of it (R291). -/
def channelBlocks (d : Device) : Nat := usableBytes d / 31 * 32 / 32 / 64

/-- The device address of channel c's local address l (R292 turned round). -/
def addrOfLocal (d : Device) (c l : Nat) : Nat :=
  let g := grainLog d
  l / 2 ^ g * 2 ^ (g + 5) + c * 2 ^ g + l % 2 ^ g

/-- Where a log entry keeps a block of the ECC area, which has no device address: above every address, one for each block, so that
errors of one block merge (R300). Such an ADDR reads as all ones. -/
def eccBlock (c l : Nat) : Nat := 2 ^ 64 + c * 2 ^ 40 + l

/-- Controller n's scrub reads its next block, alternating between its channels, and logs as R298 and R299 state with FLAGS bit 1. -/
def scrubRead (d : Device) (n : Nat) (flt : DramFault) : Device :=
  if bitsOf (memCfg d) 7 0 = 0 ∨ channelBlocks d = 0 then d
  else
    let p := tget 0 n d.mem.scrubAt
    let c := 2 * n + p % 2
    let l := p / 2 * 64
    let data := decide (l < usableBytes d / 32)
    let a := if data then addrOfLocal d c l else eccBlock c l
    let d := { d with mem := { d.mem with scrubAt := tset 0 n ((p + 1) % (2 * channelBlocks d)) d.mem.scrubAt } }
    let x := dmcAt d n
    let entry := fun (d : Device) (type syn : Nat) =>
      if data then dmcLog d type a 0xFF 2 syn
      else
        let x := dmcAt d n
        match splitFirst (fun e => e.type = type && e.addr = a) x.log with
        | some (pre, e, post) => setDmc d n { x with log := pre ++ { e with count := satAdd 0xFFFFFFFF e.count 1 } :: post }
        | none =>
          if x.log.length < 16 then
            setDmc d n { x with log := x.log ++
              [{ time := d.time, addr := a, type := type, channel := c, requester := 0xFF, flags := 2, syndrome := syn,
                 location := (let (rank, row, bank) := rowOf d l; rank * 2 ^ 21 + bank * 2 ^ 17 + row % 2 ^ 17), count := 1 }] }
          else setDmc d n { x with ovf := true }
    let shown := min a 0xFFFFFFFFFFFFFFFF
    let bad := fun (d : Device) (type syn : Nat) =>
      let x := dmcAt d n
      plumbEvent (entry (setDmc d n { x with uncorr := (x.uncorr + 1) % 256 }) type syn) (16 + n) shown
    if data && d.mem.badBlocks.contains a then bad d 2 (tget 0 a d.mem.syndromes)
    else match flt with
      | .none => d
      | .mac => d
      | .single syn => plumbEvent (entry (setDmc d n { x with corr := (x.corr + 1) % 256 }) 1 syn) n shown
      | .double syn => bad (if data then markBlock d a syn else d) 2 syn
      | .link => bad d 3 0

/-- A write of POP = 1 to DMC_LOG_STAT of controller n (R300). -/
def dmcLogPop (d : Device) (n : Nat) : Device :=
  let x := dmcAt d n
  match x.log with
  | [] => d
  | _ :: r => setDmc d n { x with log := r, head := (x.head + 1) % 16 }

/-- The 32 bytes of slot i of controller n's log (R300). -/
def dmcEntryBytes (d : Device) (n i : Nat) : List Byte :=
  let x := dmcAt d n
  match x.log[(i + 16 - x.head) % 16]? with
  | some e =>
    leBytes 8 e.time ++ leBytes 8 (min e.addr 0xFFFFFFFFFFFFFFFF) ++ leBytes 1 e.type ++ leBytes 1 e.channel ++ leBytes 1 e.requester ++
      leBytes 1 e.flags ++ leBytes 2 e.syndrome ++ leBytes 2 0 ++ leBytes 4 e.location ++ leBytes 4 e.count
  | none => leBytes 32 0

/-! Regions (R302, R304). -/

/-- A pair of region registers can be programmed for region n: limit not below base, a sealed one spanning a multiple of 32 MiB, and an
enabled one overlapping no other enabled region. -/
def regionOk (d : Device) (n base limit : Nat) : Bool :=
  let lo := bitsOf base 17 0
  let hi := bitsOf limit 17 0
  decide (lo ≤ hi) && (!bitOf base 30 || (hi + 1 - lo) % 32 == 0) &&
    (!bitOf base 31 ||
      (upto 1 63).all (fun m => m == n ||
        (let (b, l) := regionRegs d m
         !bitOf b 31 || decide (hi < bitsOf b 17 0) || decide (bitsOf l 17 0 < lo))))

/-- What an address holds can still be read after its region registers changed from those of d to those of e: under the same key, and
sealed only as it was. -/
def regionKept (d e : Device) (a : Nat) : Bool :=
  regionSlot d a == regionSlot e a && (!isSealedAddr e a || regionRegs d (regionFor d a) == regionRegs e (regionFor e a))

/-- Forget the DRAM bytes that a condition on their address does not keep. -/
def dramForget (d : Device) (keep : Nat → Bool) : Device :=
  withCells d (d.mem.cells.filter (fun c => onChip c.1 || keep c.1))

/-- Keystone writes the registers of region n: performed, or refused with ERR (R302, R304). Region 0 is fixed. -/
def regionWrite (d : Device) (n base limit : Nat) : Device × Bool :=
  if n = 0 ∨ 64 ≤ n then (d, false)
  else
    let (_, l0) := regionRegs d n
    let base := maskMerge 0xC003FFFF 0 base
    let limit := maskMerge 0x3F03FFFF (setBits l0 29 0 0) limit
    if regionOk d n base limit then
      let e := setReg (setReg d (0x4010400 + 8 * n) 0 base) (0x4010404 + 8 * n) 0 limit
      (dramForget e (regionKept d e), true)
    else (setReg d (0x4010404 + 8 * n) 0 (setBits l0 31 31 1), false)

/-! Ashlar banks (R307–R309). -/

/-- The new word of an atomic and the old one it returns. -/
def atomicValue (op : AshOp) (old : Nat) : Nat :=
  match op with
  | .add n v => (old + v) % 2 ^ (8 * n)
  | .swap n v => v % 2 ^ (8 * n)
  | .cas n c v => if old = c % 2 ^ (8 * n) then v % 2 ^ (8 * n) else old
  | _ => old

/-- Bytes an access touches. -/
def ashSize (op : AshOp) : Nat :=
  match op with
  | .load n => n
  | .store b => b.length
  | .add n _ => n
  | .swap n _ => n
  | .cas n _ _ => n

/-- An atomic on a word: read, then written back (R33, R309). A misaligned one, or one to an uncorrectable word, gets an error
response. -/
def ashAtomic (d : Device) (r : Req) (isSealed : Bool) (a n : Nat) (op : AshOp) : Device × MemRes × List Byte :=
  if a % n ≠ 0 then (d, .err, [])
  else
    match memRead d r isSealed a n with
    | (d, .ok, bs) =>
      match memWrite d r isSealed a (leBytes n (atomicValue op (leNat bs))) with
      | (d, .ok) => (d, .ok, bs)
      | (d, res) => (d, res, [])
    | (d, res, _) => (d, res, [])

/-- A load, store or atomic at a bank. -/
def ashPerform (d : Device) (r : Req) (isSealed : Bool) (a : Nat) (op : AshOp) : Device × MemRes × List Byte :=
  match op with
  | .load n => memRead d r isSealed a n
  | .store b => let (d, res) := memWrite d r isSealed a b; (d, res, [])
  | _ => ashAtomic d r isSealed a (ashSize op) op

/-- Mark the word at an address uncorrectable if ECC finds it so (R307). -/
def ashFind (d : Device) (a : Nat) (flt : AshFault) : Device :=
  if flt = .double then { d with mem := { d.mem with badWords := sadd (a / 8 * 8) d.mem.badWords } } else d

/-- ASHLAR_ACCESS: a bank serves an access of an admitted requester, refuses it, or holds it during an owner change. `flt` is what ECC
finds in the first word (R307). -/
def ashAccess (d : Device) (r : Req) (a : Nat) (op : AshOp) (flt : AshFault) : Device :=
  match regionOf d a with
  | .ashlar b =>
    match ashPerform (ashFind d a flt) r false a op with
    | (_, .held, _) =>
      let x := bankAt d b
      setBank d b { x with held := x.held ++ [{ requester := r.id, ch := r.ch, addr := a, op := op }] }
    | (d, res, bs) =>
      let d := if flt = .single ∧ res = .ok then plumbEvent d (80 + b) (a / 8 * 8 % 0x400000) else d
      serve { d with mem := { d.mem with reqSeq := d.mem.reqSeq + 1 } } d.mem.reqSeq r.id bs
  | .abs =>
    let (d, _, bs) := ashPerform d r false a op
    serve { d with mem := { d.mem with reqSeq := d.mem.reqSeq + 1 } } d.mem.reqSeq r.id bs
  | _ => d

/-- An owner code of the table of R308. -/
def ownerCodeOk (c : Nat) : Bool :=
  decide (c < 12) || (decide (0x10 ≤ c) && decide (c < 0x18)) || c == 0x20 || (decide (0x40 ≤ c) && decide (c < 0x80)) ||
    c == 0xFF

/-- A write of ASHLAR_OWNERn (R308): W1C of ERR, then an owner change or ERR. -/
def ashOwnerWrite (d : Device) (n v : Nat) : Device :=
  let b := bankAt d n
  let b := { b with err := b.err && !bitOf v 29 }
  if b.pending || b.wiping || !ownerCodeOk (bitsOf v 7 0) then setBank d n { b with err := true }
  else setBank d n { b with owner := bitsOf v 7 0, pending := true, wipeNext := bitOf v 8 }

/-- Serve the accesses a bank has held, in arrival order (R308). -/
def ashServeHeld (d : Device) (n : Nat) : Device :=
  let l := (bankAt d n).held
  let d := setBank d n { bankAt d n with held := [] }
  l.foldl (fun d q => ashAccess d { id := q.requester, ch := q.ch } q.addr q.op .none) d

/-- The accesses accepted before an owner change have drained (R308). -/
def ashDrainDone (d : Device) (n : Nat) : Device :=
  let b := bankAt d n
  if !b.pending then d
  else if b.wipeNext then setBank d n { b with pending := false, wiping := true, wipeNext := false }
  else ashServeHeld (setBank d n { b with pending := false }) n

/-- The zeroing of a bank ends (R308). -/
def ashWipeDone (d : Device) (n : Nat) : Device :=
  let b := bankAt d n
  if !b.wiping then d
  else
    let lo := 0x080000000000 + n * 0x400000
    let d := wipeRange d lo (lo + 0x400000)
    let d := { d with mem := { d.mem with badWords := d.mem.badWords.filter (fun w => !(decide (lo ≤ w) && decide (w < lo + 0x400000))) } }
    ashServeHeld (setBank d n { b with wiping := false }) n

/-- The ABS wipe starts; one that runs is not restarted (R311). Clip keys and recipients lie in ABS (R429). -/
def absWipe (d : Device) : Device :=
  if d.mem.absWiping then d
  else
    let d := wipeRange d 0x080010000000 0x080010200000
    { d with mem := { d.mem with absWiping := true }, ks := { d.ks with slots := [], recips := [] } }

/-- The ABS wipe and its read-back end; `bad` is the offset of a nonzero word, if any (R311). -/
def absWipeDone (d : Device) (bad : Option Nat) : Device :=
  if !d.mem.absWiping then d
  else
    let d := { d with mem := { d.mem with absWiping := false, absWiped := true } }
    match bad with | some o => plumbEvent d 432 o | none => d

/-! Meanings. -/

/-- DMC_ACCESS (R293). The test access port is refused in life-cycle state FIELD (R296). -/
def execDmcAccess (requester a : Nat) (write : Bool) (data : List Byte) (size : Nat) (s : State) :
    Host.Outcome State Fault Refusal :=
  done s (if requester = 47 ∧ lcState s.fuses = some 2 then serve s.dev s.dev.mem.reqSeq requester []
    else dmcAccess s.dev requester a write data size)

/-- DMC_SCHEDULE (R294). -/
def execDmcSchedule (ch : Nat) (flt : DramFault) (s : State) : Host.Outcome State Fault Refusal :=
  done s (dmcSchedule s.dev ch flt)

/-- DMC_POWER_DOWN (R294). -/
def execDmcPowerDown (ch : Nat) (s : State) : Host.Outcome State Fault Refusal := done s (dmcPowerDown s.dev ch)

/-- REFRESH_DUE (R297). -/
def execRefreshDue (ch bank : Nat) (s : State) : Host.Outcome State Fault Refusal := done s (refreshDue s.dev ch bank)

/-- MR4_POLL (R297). -/
def execMr4Poll (ch v : Nat) (s : State) : Host.Outcome State Fault Refusal := done s (mr4Poll s.dev ch v)

/-- SCRUB_READ (R301). -/
def execScrubRead (n : Nat) (flt : DramFault) (s : State) : Host.Outcome State Fault Refusal :=
  done s (scrubRead s.dev n flt)

/-- RETRAIN_CHECK (R306). -/
def execRetrainCheck (ch : Nat) (drift failed : Bool) (s : State) : Host.Outcome State Fault Refusal :=
  done s (retrainCheck s.dev ch drift failed)

/-- RETRAIN_RETRY (R306). -/
def execRetrainRetry (ch : Nat) (failed : Bool) (s : State) : Host.Outcome State Fault Refusal :=
  done s (retrainRetry s.dev ch failed)

/-- MEM_REGION_WRITE (R302): Keystone writes both registers of region n. -/
def execMemRegionWrite (n base limit : Nat) (s : State) : Host.Outcome State Fault Refusal :=
  done s (regionWrite s.dev n base limit).1

/-- ASHLAR_ACCESS (R307). -/
def execAshlarAccess (requester ch a : Nat) (op : AshOp) (flt : AshFault) (s : State) :
    Host.Outcome State Fault Refusal := done s (ashAccess s.dev { id := requester, ch := ch } a op flt)

/-- ASHLAR_DRAIN_DONE (R308). -/
def execAshlarDrainDone (n : Nat) (s : State) : Host.Outcome State Fault Refusal := done s (ashDrainDone s.dev n)

/-- ASHLAR_WIPE_DONE (R308). -/
def execAshlarWipeDone (n : Nat) (s : State) : Host.Outcome State Fault Refusal := done s (ashWipeDone s.dev n)

/-- ABS_WIPE_DONE (R311). -/
def execAbsWipeDone (bad : Option Nat) (s : State) : Host.Outcome State Fault Refusal := done s (absWipeDone s.dev bad)

end Sys2Proof.Machine
end

