-- ==== Sys2Proof/Machine/RingCmds.lean ====
section
/-! DEFINITION. The ring engine's refill and the host's accesses to ring slots (R326, R328, R329). -/

namespace Sys2Proof.Machine

/-- RING_REFILL (R326): the head register of ring n takes entries from the store. -/
def execRingRefill (n : Nat) (s : State) : Host.Outcome State Fault Refusal :=
  done s (setRing s.dev n (ringAt s.dev n).refilled)

/-- HOST_PUSH_SOP_EOP (R328). -/
def execHostPushSopEop (f n : Nat) (data : List Byte) (s : State) : Host.Outcome State Fault Refusal :=
  done s (hostPush s.dev f n data true true)

/-- HOST_PUSH_SOP (R328). -/
def execHostPushSop (f n : Nat) (data : List Byte) (s : State) : Host.Outcome State Fault Refusal :=
  done s (hostPush s.dev f n data true false)

/-- HOST_PUSH_MID (R328). -/
def execHostPushMid (f n : Nat) (data : List Byte) (s : State) : Host.Outcome State Fault Refusal :=
  done s (hostPush s.dev f n data false false)

/-- HOST_PUSH_EOP (R328). -/
def execHostPushEop (f n : Nat) (data : List Byte) (s : State) : Host.Outcome State Fault Refusal :=
  done s (hostPush s.dev f n data false true)

/-- HOST_POP (R329): `size` is the size of the read; only 32 bytes pop. -/
def execHostPop (f n size : Nat) (s : State) : Host.Outcome State Fault Refusal := done s (hostPop s.dev f n size)

/-- HOST_POP_TIMEOUT (R329). -/
def execHostPopTimeout (n : Nat) (s : State) : Host.Outcome State Fault Refusal := done s (hostPopTimeout s.dev n)

/-- HOST_RING_STATUS_READ (R328). -/
def execHostRingStatusRead (f n : Nat) (s : State) : Host.Outcome State Fault Refusal :=
  done s (ringStatusRead s.dev f n)

end Sys2Proof.Machine
end

