-- ==== Sys2Proof/Machine/Net.lean ====
section
/-! DEFINITION. Ethernet frames as bytes without FCS: VLAN tags, IP headers, ECN marks, checksums (R347, R352, R364, R367). The
layouts of IEEE 802.1Q, IPv4, IPv6, UDP and RTP are taken from those standards (log 21). -/

namespace Sys2Proof.Machine

/-- The big-endian number of n bytes at an offset. -/
def beAt (l : List Byte) (o n : Nat) : Nat := leNat ((l.drop o).take n).reverse

/-- Byte i of a list, 0 past its end. -/
def byteOf (l : List Byte) (i : Nat) : Nat := ((l[i]?).getD 0).toNat

/-- Replace byte i. -/
def putByte (l : List Byte) (i v : Nat) : List Byte := l.set i (BitVec.ofNat 8 v)

/-- Replace the bytes from offset o on. -/
def putBytes (l : List Byte) (o : Nat) (bs : List Byte) : List Byte := l.take o ++ bs ++ l.drop (o + bs.length)

/-- What a frame's Ethernet header says: PCP and VLAN ID of its first tag, EtherType, offset of what follows. -/
structure L2 where
  vlan : Option (Nat × Nat)
  etype : Nat
  off : Nat

/-- Skip VLAN tags, at most n of them. -/
def skipTags (l : List Byte) : Nat → Nat → Option (Nat × Nat) → L2
  | 0, off, v => { vlan := v, etype := beAt l off 2, off := off + 2 }
  | n + 1, off, v =>
    let t := beAt l off 2
    if t = 0x8100 ∨ t = 0x88A8 then
      let tci := beAt l (off + 2) 2
      skipTags l n (off + 4) (match v with | some x => some x | none => some (tci / 8192, tci % 4096))
    else { vlan := v, etype := t, off := off + 2 }

/-- The Ethernet header of a frame. -/
def l2Of (l : List Byte) : L2 := skipTags l 4 12 none

/-- IP version of a frame: 4, 6 or 0. -/
def ipVer (h : L2) : Nat := if h.etype = 0x0800 then 4 else if h.etype = 0x86DD then 6 else 0

/-- The traffic class byte of an IP header, if the frame has one. -/
def trafficClass (l : List Byte) : Option Nat :=
  let h := l2Of l
  if ipVer h = 4 then some (byteOf l (h.off + 1))
  else if ipVer h = 6 then some (beAt l h.off 2 / 16 % 256)
  else none

/-- The ones'-complement sum of a list of bytes taken as 16-bit big-endian words. -/
def sum16 : List Byte → Nat
  | a :: b :: r => a.toNat * 256 + b.toNat + sum16 r
  | [a] => a.toNat * 256
  | [] => 0

/-- Fold a sum into 16 bits and complement it: the internet checksum. -/
def checksum (n : Nat) : Nat :=
  let f := fun x => x / 65536 + x % 65536
  0xFFFF - f (f (f n))

/-- Write the checksum of the IPv4 header at an offset. -/
def fixIpv4 (l : List Byte) (off : Nat) : List Byte :=
  let n := byteOf l off % 16 * 4
  let z := putBytes l (off + 10) [0, 0]
  putBytes z (off + 10) (beBytes 2 (checksum (sum16 ((z.drop off).take n))))

/-- The frame carries ECT(0) or ECT(1) (R352). -/
def isEct (l : List Byte) : Bool :=
  match trafficClass l with | some t => t % 4 == 1 || t % 4 == 2 | none => false

/-- The frame carries CE (R368). -/
def isCe (l : List Byte) : Bool := match trafficClass l with | some t => t % 4 == 3 | none => false

/-- Mark a frame CE and update the IPv4 header checksum (R352). -/
def markCe (l : List Byte) : List Byte :=
  let h := l2Of l
  if ipVer h = 4 then fixIpv4 (putByte l (h.off + 1) (byteOf l (h.off + 1) / 4 * 4 + 3)) h.off
  else if ipVer h = 6 then putByte l (h.off + 1) (setBits (byteOf l (h.off + 1)) 5 4 3)
  else l

/-- Offset of the UDP header of an IP frame that carries UDP. -/
def udpOff (l : List Byte) : Option Nat :=
  let h := l2Of l
  if ipVer h = 4 then (if byteOf l (h.off + 9) = 17 then some (h.off + byteOf l h.off % 16 * 4) else none)
  else if ipVer h = 6 then (if byteOf l (h.off + 6) = 17 then some (h.off + 40) else none)
  else none

/-- Destination address of an IP frame, in transmission order. -/
def ipDst (l : List Byte) : List Byte :=
  let h := l2Of l
  if ipVer h = 4 then (l.drop (h.off + 16)).take 4 else if ipVer h = 6 then (l.drop (h.off + 24)).take 16 else []

/-- The UDP payload of a frame, and where it starts. -/
def udpPayload (l : List Byte) : Option (Nat × List Byte) :=
  match udpOff l with
  | some o => some (o + 8, (l.drop (o + 8)).take (beAt l (o + 4) 2 - 8))
  | none => none

/-- An RTP packet: marker, sequence number, timestamp, payload. -/
structure Rtp where
  marker : Bool
  seq : Nat
  ts : Nat
  body : List Byte

/-- The RTP packet a UDP payload holds: version 2, CSRCs and extension skipped. -/
def rtpOf (l : List Byte) : Option Rtp :=
  if byteOf l 0 / 64 = 2 ∧ 12 ≤ l.length then
    let o := 12 + 4 * (byteOf l 0 % 16)
    let o := if bitOf (byteOf l 0) 4 then o + 4 + 4 * beAt l (o + 2) 2 else o
    some { marker := bitOf (byteOf l 1) 7, seq := beAt l 2 2, ts := beAt l 4 4, body := l.drop o }
  else none

/-- The RTP timestamp of device time t (R366). -/
def rtpTime (t : Nat) : Nat := t * 9 / 100000 % 2 ^ 32

/-- The latest device time not later than `rx` whose 90 kHz count is r modulo 2^32 (R366): the last nanosecond of that count's
period, or `rx` itself within it. -/
def rtpDeviceTime (r rx : Nat) : Nat :=
  let c := rx * 9 / 100000
  let back := (c + 2 ^ 32 - r % 2 ^ 32) % 2 ^ 32
  if back = 0 then rx else ((c - back + 1) * 100000 + 8) / 9 - 1

/-- The PTP Sync message of a frame over Layer 2 or UDP/IPv4: its offset (R364). -/
def syncOff (l : List Byte) : Option Nat :=
  let h := l2Of l
  if h.etype = 0x88F7 then (if byteOf l h.off % 16 = 0 then some h.off else none)
  else if ipVer h = 4 then
    match udpOff l with
    | some u => if beAt l (u + 2) 2 = 319 ∧ byteOf l (u + 8) % 16 = 0 then some (u + 8) else none
    | none => none
  else none

/-- One-step Sync (R364): the transmit time into originTimestamp, the UDP checksum 0. -/
def oneStepSync (l : List Byte) (t : Nat) : List Byte :=
  match syncOff l with
  | some o =>
    let l := putBytes l (o + 34) (beBytes 6 (t / 1000000000) ++ beBytes 4 (t % 1000000000))
    match udpOff l with
    | some u => putBytes l (u + 6) [0, 0]
    | none => l
  | none => l

/-- The 32-bit registers from an offset on, as bytes. -/
def regBytes (d : Device) (off : Nat) : Nat → List Byte
  | 0 => []
  | n + 1 => leBytes 4 (reg d off 0) ++ regBytes d (off + 4) n

/-- Indices of the entries of a table of registers whose key word, at `o` in the entry, is not 0. -/
def tableIdx (d : Device) (base step count o : Nat) : List Nat :=
  ((d.regs.filter (fun e => decide (base ≤ e.1) && decide (e.1 < base + step * count) && (e.1 - base) % step == o)).map
    (fun e => (e.1 - base) / step))

end Sys2Proof.Machine
end

