-- ==== Sys2Proof/Machine/Switch.lean ====
section
/-! DEFINITION. The stream switch (R346–R361): classes, forwarding, admission, back-pressure, queues and ports that go down. -/

namespace Sys2Proof.Machine

/-- Switch port p. -/
def swAt (d : Device) (p : Nat) : SwPort := tget SwPort.reset p d.sw.ports

/-- Change switch port p. -/
def setSw (d : Device) (p : Nat) (x : SwPort) : Device :=
  { d with sw := { d.sw with ports := tset SwPort.reset p x d.sw.ports } }

/-- SW_CLASSc_CFG, SW_CLASSc_THR, SW_CLASSc_PFC and SW_PORTp_CFG. -/
def swClassCfg (d : Device) (c : Nat) : Nat := reg d (0x900100 + 8 * c) 0x18000000

/-- SW_CLASSc_THR. -/
def swClassThr (d : Device) (c : Nat) : Nat := reg d (0x900104 + 8 * c) (256 * 2 ^ 16 + 40)

/-- SW_CLASSc_PFC. -/
def swClassPfc (d : Device) (c : Nat) : Nat := reg d (0x900180 + 4 * c) (512 * 2 ^ 20 + 256 * 2 ^ 8 + 40)

/-- SW_PORTp_CFG. -/
def swPortCfg (d : Device) (p : Nat) : Nat := reg d (0x900200 + 16 * p) 2000

/-- MODE of a class. -/
def swMode (d : Device) (c : Nat) : Nat := bitsOf (swClassCfg d c) 31 30

/-- XOFF_CELLS of a class. -/
def xoffCells (d : Device) (c : Nat) : Nat := bitsOf (swClassPfc d c) 31 20

/-- Cells of a frame of L bytes with its FCS (R349). -/
def Frame.cells (f : Frame) : Nat := (f.data.length + 4 + 255) / 256

/-- A stored frame. -/
def frameAt (d : Device) (i : Nat) : Option Frame := tfind i d.sw.frames

/-- Cells of a stored frame. -/
def cellsAt (d : Device) (i : Nat) : Nat := ((frameAt d i).map Frame.cells).getD 0

/-- Free cells (R349, SW_STAT.FREE). -/
def freeCells (d : Device) : Nat := 131072 - d.sw.frames.foldl (fun n e => n + e.2.cells) 0

/-- Queue of port p and class c. -/
def queueAt (d : Device) (p c : Nat) : List QEnt := tget [] (p * 8 + c) d.sw.queues

/-- Change a queue. -/
def setQueue (d : Device) (p c : Nat) (q : List QEnt) : Device :=
  { d with sw := { d.sw with queues := tset [] (p * 8 + c) q d.sw.queues } }

/-- D(q) of R350. -/
def depth (d : Device) (p c : Nat) : Nat := (queueAt d p c).foldl (fun n e => n + cellsAt d e.frame) 0

/-- I(p, c) of R353. -/
def inputCells (d : Device) (p c : Nat) : Nat :=
  (d.sw.frames.filter (fun e => e.2.port = p && e.2.cls = c)).foldl (fun n e => n + e.2.cells) 0

/-- Add to a drop counter of a port, which wraps at 0xFF. -/
def swDrop (d : Device) (p : Nat) (f : SwPort → SwPort) : Device :=
  perfEvent (setSw d p (f (swAt d p))) 7 3 p 1 false 0 0

/-- A frame dropped on input. -/
def dropRx (d : Device) (p : Nat) : Device := swDrop d p (fun x => { x with rx := (x.rx + 1) % 256 })

/-- A copy refused under R350. -/
def dropAdmit (d : Device) (p : Nat) : Device := swDrop d p (fun x => { x with admits := (x.admits + 1) % 256 })

/-- A copy aged out. -/
def dropAged (d : Device) (p : Nat) : Device := swDrop d p (fun x => { x with aged := (x.aged + 1) % 256 })

/-- A copy flushed, or dropped while the port is DOWN. -/
def dropDown (d : Device) (p : Nat) : Device := swDrop d p (fun x => { x with down := (x.down + 1) % 256 })

/-! What a NETTX counts (R358). -/

/-- Change a running NETTX. -/
def modNetTx (d : Device) (t : Option Nat) (f : NetTx → NetTx) : Device :=
  match t with
  | some t =>
    match tfind t d.eth.nettx with
    | some x => { d with eth := { d.eth with nettx := tput t (f x) d.eth.nettx } }
    | none => d
  | none => d

/-- A destination did not take a frame of a NETTX. -/
def nettxMiss (d : Device) (t : Option Nat) (p : Nat) : Device :=
  modNetTx d t (fun x => { x with missed := x.missed ||| 2 ^ p, everMissed := true })

/-- A destination took a frame of a NETTX. -/
def nettxTook (d : Device) (t : Option Nat) (p : Nat) : Device :=
  modNetTx d t (fun x => { x with delivered := x.delivered ||| 2 ^ p })

/-! PFC (R353–R355). -/

/-- Send a PFC frame for class c on port p. -/
def sendPfc (d : Device) (p c quanta : Nat) : Device := emit d (.pfc p c quanta)

/-- I(p, c) has risen: XOFF from XOFF_CELLS on. -/
def xoffCheck (d : Device) (p c : Nat) : Device :=
  let x := swAt d p
  if decide (p < 6) && swMode d c == 2 && !bitOf x.xoff c && decide (xoffCells d c ≤ inputCells d p c) then
    sendPfc (setSw d p { x with xoff := x.xoff ||| 2 ^ c, repeatAt := tput c (d.up + 160000) x.repeatAt }) p c 0xFFFF
  else d

/-- I(p, c) has fallen: XON at XON_CELLS. -/
def xonCheck (d : Device) (p c : Nat) : Device :=
  let x := swAt d p
  if bitOf x.xoff c && decide (inputCells d p c ≤ bitsOf (swClassPfc d c) 19 8) then
    sendPfc (setSw d p { x with xoff := x.xoff - 2 ^ c, repeatAt := tdel c x.repeatAt }) p c 0
  else d

/-- The 160 µs repeat of a paused class's PFC frame. -/
def pfcRepeat (d : Device) (p c : Nat) : Device :=
  let x := swAt d p
  match tfind c x.repeatAt with
  | some t =>
    if bitOf x.xoff c && decide (t ≤ d.up) then
      sendPfc (setSw d p { x with repeatAt := tput c (t + 160000) x.repeatAt }) p c 0xFFFF
    else d
  | none => d

/-- Rate of port p in Gb/s: by its mode (R362), 100 on the Bond ports. -/
def portGbps (d : Device) (p : Nat) : Nat :=
  if 4 ≤ p then 100
  else match bitsOf (reg d (0xA00000 + 16 * p) 0x02000000) 30 28 with | 0 => 25 | 1 => 50 | _ => 100

/-- A PFC frame from the peer of port p: each class of the enable vector is paused for its quanta of 512 bit times, or resumed at 0
(R355). -/
def pfcRx (d : Device) (p enable : Nat) (quanta : List Nat) : Device :=
  if decide (p < 6) && bitOf (swPortCfg d p) 30 then
    (upto 0 8).foldl (fun d c =>
      if bitOf enable c then
        let q := (quanta[c]?).getD 0 % 65536
        let x := swAt d p
        if q = 0 then setSw d p { x with paused := tdel c x.paused }
        else setSw d p { x with paused := tput c (d.up + (q * 512 + portGbps d p - 1) / portGbps d p) x.paused }
      else d) d
  else d

/-- The pause of a class has run out. -/
def pfcExpire (d : Device) (p c : Nat) : Device :=
  let x := swAt d p
  match tfind c x.paused with
  | some t => if t ≤ d.up then setSw d p { x with paused := tdel c x.paused } else d
  | none => d

/-- Port p (6, 8, 9) takes no frame of class c from its source now (R354). -/
def sourcePaused (d : Device) (p c : Nat) : Bool :=
  decide (freeCells d < 64) || (swMode d c == 2 && decide (xoffCells d c ≤ inputCells d p c))

/-! Classes and destinations (R347, R348). -/

/-- The class of a frame received on port 0–5. -/
def classOf (d : Device) (p : Nat) (l : List Byte) : Nat :=
  if bitOf (swPortCfg d p) 31 then
    match trafficClass l with | some t => t / 4 / 8 | none => 0
  else match (l2Of l).vlan with | some (pcp, _) => pcp | none => 0

/-- Entry i of the forwarding table (R361). -/
def fwdEntry (d : Device) (i : Nat) : List Byte := regBytes d (0x910000 + 16 * i) 4

/-- The entry is valid and matches a destination address and VLAN ID. -/
def fwdMatch (d : Device) (l : List Byte) (i : Nat) : Bool :=
  let e := fwdEntry d i
  let v := fieldAt e 6 2
  let vid := match (l2Of l).vlan with | some (_, v) => v | none => 0
  bitOf v 15 && e.take 6 == l.take 6 && (bitOf v 12 || v % 4096 == vid)

/-- The bitmap of a frame received on port 0–5: the first matching entry, or {RX}. -/
def fwdPorts (d : Device) (l : List Byte) : Nat :=
  match (tableIdx d 0x910000 16 4096 4).find? (fwdMatch d l) with
  | some i => fieldAt (fwdEntry d i) 8 2
  | none => 0x80

/-- Destination ports of a frame: of its bitmap without bits 6, 8 and 9 and without its input port. -/
def destOf (f : Frame) : List Nat := [0, 1, 2, 3, 4, 5, 7].filter (fun q => bitOf f.ports q && q != f.port)

/-! Admission (R349–R353). -/

/-- The limit of R350 with F free cells. -/
def admitLimit (d : Device) (c f : Nat) : Nat :=
  let a := min 9 (bitsOf (swClassCfg d c) 29 26)
  max (bitsOf (swClassThr d c) 15 0) (if 6 ≤ a then f * 2 ^ (a - 6) else f / 2 ^ (6 - a))

/-- A copy is queued, and marked CE when the queue is deep enough (R352). -/
def enqueue (d : Device) (id : Nat) (f : Frame) (q : Nat) : Device :=
  let ce := swMode d f.cls == 1 && decide (bitsOf (swClassThr d f.cls) 31 16 ≤ depth d q f.cls) && isEct f.data
  setQueue d q f.cls (queueAt d q f.cls ++ [{ frame := id, time := d.time, ce := ce, dead := false }])

/-- Decide one destination of frame `id`, whose class is not PFC or has room, with F free cells. -/
def admitOne (id : Nat) (f : Frame) (free : Nat) (d : Device) (q : Nat) : Device :=
  if q ≠ 7 ∧ (swAt d q).st = .down then nettxMiss (dropDown d q) f.ticket q
  else if swMode d f.cls = 2 ∨ depth d q f.cls + f.cells ≤ admitLimit d f.cls free then enqueue d id f q
  else nettxMiss (dropAdmit d q) f.ticket q

/-- Some queue holds frame `id`. -/
def isQueued (d : Device) (id : Nat) : Bool := d.sw.queues.any (fun e => e.2.any (·.frame = id))

/-- A frame no queue holds releases its cells (R349). -/
def releaseFrame (d : Device) (id : Nat) : Device :=
  match frameAt d id with
  | none => d
  | some f =>
    if isQueued d id then d
    else xonCheck { d with sw := { d.sw with frames := tdel id d.sw.frames } } f.port f.cls

/-- Every destination of a frame misses it (R358). -/
def missAll (d : Device) (f : Frame) : Device := (destOf f).foldl (fun d q => nettxMiss d f.ticket q) d

/-- A whole frame with a good FCS has arrived: admission (R348–R353). -/
def swEnter (d : Device) (f : Frame) : Device :=
  let n := f.cells
  let free := freeCells d - n
  if 9216 < f.data.length + 4 ∨ freeCells d < n ∨ destOf f = [] then missAll (dropRx d f.port) f
  else if swMode d f.cls = 2 ∧
      xoffCells d f.cls + 4 * bitsOf (swClassPfc d f.cls) 7 0 < inputCells d f.port f.cls + n then
    missAll (dropRx d f.port) f
  else
    let id := d.sw.nextId
    let d := { d with sw := { d.sw with nextId := id + 1, frames := tput id f d.sw.frames } }
    let d := perfEvent d 7 0 f.port 1 false 0 0
    xoffCheck (releaseFrame ((destOf f).foldl (admitOne id f free) d) id) f.port f.cls

/-- A frame received on port 0–5 (R347–R349): its bytes without FCS, and whether the FCS was right. -/
def swReceive (d : Device) (p : Nat) (data : List Byte) (fcsOk : Bool) (rxTime : Nat) : Device :=
  if !fcsOk then dropRx d p
  else swEnter d { data := data, leg2 := none, port := p, cls := classOf d p data, ports := fwdPorts d data,
                   ticket := none, stamp := false, oneStep := false, tag := 0, rxTime := rxTime }

/-! Leaving a queue (R356–R360). -/

/-- Take the head entry off a queue; its frame's cells are freed with the last copy. -/
def dequeue (d : Device) (p c : Nat) : Device :=
  match queueAt d p c with
  | [] => d
  | e :: r => releaseFrame (setQueue d p c r) e.frame

/-- An entry is older than its class allows (R360). -/
def isAged (d : Device) (c : Nat) (e : QEnt) : Bool :=
  let m := bitsOf (swClassCfg d c) 15 0
  m != 0 && decide (m * 1000 < d.time - e.time)

/-- The NETTX of a stored frame. -/
def ticketAt (d : Device) (id : Nat) : Option Nat := (frameAt d id).bind (·.ticket)

/-- Drop the entries at the head of a queue that are too old (R360). -/
def ageQueue (p c : Nat) : Nat → Device → Device
  | 0, d => d
  | n + 1, d =>
    match queueAt d p c with
    | [] => d
    | e :: _ => if isAged d c e then ageQueue p c n (dequeue (nettxMiss (dropAged d p) (ticketAt d e.frame) p) p c) else d

/-- The age check of every queue of a port. -/
def agePort (d : Device) (p : Nat) : Device :=
  (upto 0 8).foldl (fun d c => ageQueue p c (queueAt d p c).length d) d

/-- Flush a queue: every copy is dropped and counted in DOWN (R359). -/
def flushQueue (p c : Nat) : Nat → Device → Device
  | 0, d => d
  | n + 1, d =>
    match queueAt d p c with
    | [] => d
    | e :: _ => flushQueue p c n (dequeue (nettxMiss (dropDown d p) (ticketAt d e.frame) p) p c)

/-- A port enters DOWN (R359). -/
def swDown (d : Device) (p : Nat) : Device :=
  let d := setSw d p { swAt d p with st := .down }
  (upto 0 8).foldl (fun d c => flushQueue p c (queueAt d p c).length d) d

/-- HOLD_US of a port, in ns. -/
def holdNs (d : Device) (p : Nat) : Nat := min 100000 (bitsOf (swPortCfg d p) 16 0) * 1000

/-- An output port loses its link (R355, R359). -/
def swLinkDown (d : Device) (p : Nat) : Device :=
  let d := setSw d p { swAt d p with paused := [] }
  if (swAt d p).st ≠ .up then d
  else if holdNs d p = 0 then swDown d p
  else setSw d p { swAt d p with st := .hold, holdAt := d.up + holdNs d p }

/-- The hold timer of a port expires (R359). -/
def holdExpire (d : Device) (p : Nat) : Device :=
  let x := swAt d p
  if x.st = .hold ∧ x.holdAt ≤ d.up then swDown d p else d

/-- A port's link returns (R359): an expiry due now is taken first. -/
def swLinkUp (d : Device) (p : Nat) : Device :=
  let d := holdExpire d p
  setSw d p { swAt d p with st := .up }

/-- SW_PORTp_STAT. -/
def swStat (d : Device) (p : Nat) : Nat :=
  let x := swAt d p
  let st := if p = 7 then 0 else match x.st with | .up => 0 | .hold => 1 | .down => 2
  st * 2 ^ 30 + x.xoff % 256

/-- SW_PORTp_DROP. -/
def swDropReg (d : Device) (p : Nat) : Nat :=
  let x := swAt d p
  x.admits * 2 ^ 24 + x.aged * 2 ^ 16 + x.down * 2 ^ 8 + x.rx

/-! Meanings. -/

/-- SW_FRAME_RX (R350): a frame on ETH port p, timestamped as it arrives (R363). -/
def execSwFrameRx (p : Nat) (data : List Byte) (fcsOk : Bool) (s : State) : Host.Outcome State Fault Refusal :=
  done s (if p < 4 then swReceive s.dev p data fcsOk s.dev.time else s.dev)

/-- PFC_REPEAT (R353). -/
def execPfcRepeat (p c : Nat) (s : State) : Host.Outcome State Fault Refusal := done s (pfcRepeat s.dev p c)

/-- PFC_RX (R355). -/
def execPfcRx (p enable : Nat) (quanta : List Nat) (s : State) : Host.Outcome State Fault Refusal :=
  done s (pfcRx s.dev p enable quanta)

/-- PFC_PAUSE_EXPIRE (R355). -/
def execPfcPauseExpire (p c : Nat) (s : State) : Host.Outcome State Fault Refusal := done s (pfcExpire s.dev p c)

/-- HOLD_EXPIRE (R359). -/
def execHoldExpire (p : Nat) (s : State) : Host.Outcome State Fault Refusal := done s (holdExpire s.dev p)

end Sys2Proof.Machine
end

