-- ==== Sys2Proof/Machine/Bond.lean ====
section
/-! DEFINITION. Bond (R384–R397): frames and forwarding, array time, capture schedules, proxies and streams; and steps of device
time (R365), which its servo makes as a program does. -/

namespace Sys2Proof.Machine

/-! Steps of device time. -/

/-- The first instant base + k × period, k ≥ 0, not earlier than `lo`. -/
def firstInstant (base period lo : Nat) : Nat :=
  if lo ≤ base ∨ period = 0 then base else base + (lo - base + period - 1) / period * period

/-- Gate list of port p. -/
def gateAt (d : Device) (p : Nat) : Gate := tget Gate.reset p d.eth.gates

/-- Change a gate list. -/
def setGate (d : Device) (p : Nat) (g : Gate) : Device :=
  { d with eth := { d.eth with gates := tset Gate.reset p g d.eth.gates } }

/-- The entry of a list in force r ns into its cycle: the last one holds to the end (R381). -/
def gateEntry (r i : Nat) : List (Nat × Nat) → Nat
  | [] => i - 1
  | (t, _) :: l => if r < t then i else gateEntry (r - t) (i + 1) l

/-- How far a list is into its cycle at a device time. -/
def gateOffset (g : Gate) (t : Nat) : Nat := (((t : Int) - g.start) % (max 1 g.cycle : Nat)).toNat

/-- The entry in force at a device time. -/
def gatePos (g : Gate) (t : Nat) : Nat := gateEntry (gateOffset g t) 0 g.oper

/-- The pending list of a port becomes operational once its start instant has come (R382, R383). -/
def gateStart (d : Device) (p : Nat) : Device :=
  let g := gateAt d p
  if g.pending && decide (g.startReg ≤ d.time) then
    let g := { g with oper := g.next, cycle := g.nextCycle, start := g.startReg, pending := false }
    setGate d p { g with entry := gatePos g d.time }
  else d

/-- The gate list of a port moves to the entry its cycle has reached (R381). -/
def gateAdvance (d : Device) (p : Nat) : Device :=
  let g := gateAt d p
  setGate d p { g with entry := gatePos g d.time }

/-- The first multiple of a period after the present device time. -/
def nextMultiple (d : Device) (p : Nat) : Nat := (d.time / max 1 p + 1) * max 1 p

/-- PERF_DUMP_CFG.PERIOD_MS in ns. -/
def dumpPeriod (d : Device) : Nat := max 1 (bitsOf (reg d 0x500004 1000) 15 0) * 1000000

/-- PERF_BW_CFG.WINDOW_US in ns. -/
def bwWindow (d : Device) : Nat := min 1000000 (max 1 (bitsOf (reg d 0x500018 1000) 19 0)) * 1000

/-- A bandwidth window ends (R491): both totals move, and counting restarts. -/
def bwClose (d : Device) (short : Bool) : Device :=
  { d with perf := { d.perf with lastRd := d.perf.rd, lastWr := d.perf.wr, rd := [], wr := [], short := short, winAt := nextMultiple d (bwWindow d) } }

/-- A time step ends the current bandwidth window, and the next dump is due at the next multiple of the period (R487, R491). -/
def perfStep (d : Device) : Device :=
  let d := { d with perf := { d.perf with dumpAt := nextMultiple d (dumpPeriod d) } }
  if bitOf (reg d 0x500018 1000) 31 then bwClose d true else d

/-- A signed step of device time (R364, R365): triggers next fire at the first instant not earlier than the step plus 2 µs, gate
lists take their place in the new time and a pending list whose start has passed starts (R383). Users that compare
with device time see the new time at once; SDI outputs and IP senders find their new alignment (R471). -/
def stepTime (d : Device) (delta : Int) : Device :=
  let t := (((d.time : Int) + delta) % 2 ^ 64).toNat
  let d := { d with time := t, ingest := { d.ingest with trigs := d.ingest.trigs.map (fun e =>
      (e.1, { e.2 with due := firstInstant e.2.base e.2.period (t + 2000) })) } }
  let d := perfStep d
  (upto 0 6).foldl (fun d p => gateStart (gateAdvance d p) p) (sdiStep d delta)

/-! Identity and frames (R384, R385). -/

/-- BOND_CFG. -/
def bondCfg (d : Device) : Nat := reg d 0xB00000 0

/-- This device's Bond ID. -/
def bondId (d : Device) : Nat := bitsOf (bondCfg d) 15 0

/-- The topology is a ring (R387). -/
def bondRing (d : Device) : Bool := bitOf (bondCfg d) 30

/-- BOND_PORTn_CFG. -/
def bondPortCfg (d : Device) (n : Nat) : Nat := reg d (0xB00010 + 16 * n) 0x20010000

/-- Bond port n. -/
def bondPort (d : Device) (n : Nat) : BondPort :=
  tget BondPort.reset n d.bond.ports

/-- Change Bond port n. -/
def setBondPort (d : Device) (n : Nat) (x : BondPort) : Device :=
  { d with bond := { d.bond with ports := tset BondPort.reset n x d.bond.ports } }

/-- Bond and its port n are enabled. -/
def bondOn (d : Device) (n : Nat) : Bool := bitOf (bondCfg d) 31 && bitOf (bondPortCfg d n) 31

/-- Port n can send now. -/
def bondUp (d : Device) (n : Nat) : Bool := bondOn d n && (bondPort d n).link

/-- The MAC address derived from an ID (R384). -/
def bondMac (id : Nat) : List Byte := [0x02, 0x42, 0x4E, 0x44] ++ beBytes 2 id

/-- The broadcast address (R384). -/
def bondBcast : List Byte := [0x03, 0x42, 0x4E, 0x44, 0xFF, 0xFF]

/-- A Bond frame (R385) without FCS. -/
def bondFrame (src dst type ttl seq : Nat) (bcast : Bool) (body : List Byte) : List Byte :=
  (if bcast then bondBcast else bondMac dst) ++ bondMac src ++ [0x88, 0xB5] ++
    leBytes 1 1 ++ leBytes 1 type ++ beBytes 2 dst ++ beBytes 2 src ++ leBytes 1 (ofFlag bcast) ++ leBytes 1 ttl ++
    beBytes 2 seq ++ leBytes 6 0 ++ body

/-- TTL of frames sent on port n; 0 acts as 1, and SYNC always uses 1 (R387). -/
def bondTtl (d : Device) (n type : Nat) : Nat := if type = 1 then 1 else max 1 (bitsOf (bondPortCfg d n) 23 16)

/-- Make a frame for port n with the next sequence number, and send it if the port is up. -/
def bondSend (d : Device) (n type dst : Nat) (bcast : Bool) (body : List Byte) : Device :=
  if bondUp d n then
    let x := bondPort d n
    emit (setBondPort d n { x with seq := (x.seq + 1) % 65536 })
      (.bond n (bondFrame (bondId d) dst type (bondTtl d n type) x.seq bcast body))
  else d

/-- Body offset of a Bond frame: 14 bytes of Ethernet header, then 16. -/
def bondBody (f : List Byte) : List Byte := f.drop 30

/-- TYPE, DST, SRC, TTL and SEQ of a received frame. -/
def bfType (f : List Byte) : Nat := byteOf f 15

/-- DST. -/
def bfDst (f : List Byte) : Nat := beAt f 16 2

/-- SRC. -/
def bfSrc (f : List Byte) : Nat := beAt f 18 2

/-- BCAST. -/
def bfBcast (f : List Byte) : Bool := bitOf (byteOf f 20) 0

/-- TTL. -/
def bfTtl (f : List Byte) : Nat := byteOf f 21

/-- SEQ. -/
def bfSeq (f : List Byte) : Nat := beAt f 22 2

/-- The header and body are well formed (R385): version, type, reserved bytes and bits. -/
def bfOk (f : List Byte) : Bool :=
  byteOf f 14 == 1 && decide (1 ≤ bfType f) && decide (bfType f ≤ 4) && decide (byteOf f 20 < 2) && zeroAt f 24 6 &&
    (if bfType f = 1 then zeroAt (bondBody f) 1 3 else if bfType f = 2 then zeroAt (bondBody f) 1 1 else true)

/-- The frame is addressed to this device (R384). -/
def bfMine (d : Device) (f : List Byte) : Bool := f.take 6 == bondMac (bondId d) || f.take 6 == bondBcast

/-- A frame that could not be forwarded out of port n (R387, R397). -/
def fwdDropped (d : Device) (n : Nat) : Device :=
  let x := bondPort d n
  setBondPort d n { x with fwdDrop := (x.fwdDrop + 1) % 256 }

/-- Forward a frame out of the other port of a ring with TTL reduced by 1 (R387). -/
def bondForward (d : Device) (n : Nat) (f : List Byte) : Device :=
  let o := 1 - n
  if bfTtl f ≤ 1 ∨ !bondUp d o then fwdDropped d o else emit d (.bond o (putByte f 21 (bfTtl f - 1)))

/-- Reception of a Bond frame on port n (R384, R385, R387): dropped, forwarded, and whether this device takes it. -/
def bondReceive (d : Device) (n : Nat) (f : List Byte) : Device × Bool :=
  if !bondUp d n || beAt f 12 2 != 0x88B5 || !(bfMine d f || bondRing d) then (d, false)
  else if !bfOk f then
    let x := bondPort d n
    (setBondPort d n { x with bad := (x.bad + 1) % 256 }, false)
  else if bondRing d then
    if bfSrc f = bondId d then (d, false)
    else
      ((if bfDst f ≠ bondId d ∨ bfBcast f then bondForward d n f else d), bfMine d f)
  else (d, true)

/-! Array time (R388–R390). -/

/-- BOND_TIME_CTRL. -/
def bondTimeCtrl (d : Device) : Nat := reg d 0xB00040 0

/-- PARENT_PORT. -/
def parentPort (d : Device) : Nat := bitsOf (bondTimeCtrl d) 29 29

/-- A change of BOND_TIME_STAT.STATE raises its interrupt source (R390). -/
def bondState (d : Device) (st : BondState) : Device :=
  if d.bond.st = st then d else intcEvent { d with bond := { d.bond with st := st, good := 0 } } 128

/-- ROLE has changed (R388, R390). -/
def bondRoleSet (d : Device) (old : Nat) : Device :=
  if bondRole d = old then d
  else if bondRole d = 2 then
    bondState { d with bond := { d.bond with exch := [], asked := [], rate := ethRate d, lastValid := d.up, reqAt := d.up } } .acquire
  else bondState d .off

/-- A SYNC request leaves (R389): 16 times a second while following. -/
def syncRequest (d : Device) : Device :=
  if bondRole d = 2 ∧ d.bond.reqAt ≤ d.up ∧ bondOn d (parentPort d) then
    let d := { d with bond := { d.bond with reqAt := d.up + 62500000 } }
    if bondUp d (parentPort d) then
      let d := { d with bond := { d.bond with asked := (d.time :: d.bond.asked).take 16 } }
      bondSend d (parentPort d) 1 (bitsOf (bondTimeCtrl d) 15 0) false (leBytes 4 0 ++ beBytes 8 d.time ++ leBytes 16 0)
    else d
  else d

/-- The exchange with the smallest d (R389); of equal ones the newest. -/
def bestExch : List (Int × Nat) → Option (Int × Nat)
  | [] => none
  | e :: r => match bestExch r with | some b => if b.2 < e.2 then some b else some e | none => some e

/-- A trim the servo chooses within ±500 ppm: R390 states no law for it. -/
def servoRate (d : Device) : Int := ((free d 40 % 1099511629 : Nat) : Int) - 549755814

/-- The servo acts on a new exchange (R389, R390). -/
def servo (d : Device) (theta : Int) (delay : Nat) : Device :=
  let d := if d.bond.st = .holdover then bondState d .acquire else d
  let ex := ((theta, delay) :: d.bond.exch).take 8
  match bestExch ex with
  | none => d
  | some (th, dl) =>
    let good := if th.natAbs ≤ 2 then d.bond.good + 1 else 0
    let d := { d with bond := { d.bond with exch := ex, offset := th, delay := dl, lastValid := d.up } }
    let d := if d.bond.st = .locked ∧ 4 < th.natAbs then bondState d .acquire else d
    let d := { d with bond := { d.bond with good := good } }
    if d.bond.st = .acquire ∧ 1000 < th.natAbs then
      stepTime { d with bond := { d.bond with exch := [], asked := [] } } (-th)
    else
      let d := { d with bond := { d.bond with rate := servoRate d } }
      if d.bond.st = .acquire ∧ 8 ≤ good then bondState d .locked else d

/-- A SYNC frame that this device takes on port n (R389). -/
def syncTake (d : Device) (n : Nat) (f : List Byte) : Device :=
  let b := bondBody f
  if byteOf b 0 = 0 then
    bondSend d n 1 (bfSrc f) false
      (leBytes 1 1 ++ leBytes 3 0 ++ beBytes 8 (beAt b 4 8) ++ beBytes 8 d.time ++ beBytes 8 d.time)
  else if byteOf b 0 = 1 ∧ bondRole d = 2 ∧ n = parentPort d ∧ bfSrc f = bitsOf (bondTimeCtrl d) 15 0 ∧
      d.bond.asked.contains (beAt b 4 8) then
    let t1 : Int := beAt b 4 8
    let t2 : Int := beAt b 12 8
    let t3 : Int := beAt b 20 8
    let t4 : Int := d.time
    servo { d with bond := { d.bond with asked := sdel (beAt b 4 8) d.bond.asked } }
      (((t4 - t3) - (t2 - t1)) / 2) ((((t2 - t1) + (t4 - t3)) / 2).toNat)
  else d

/-- No valid response for 1 s (R390). -/
def holdoverTimeout (d : Device) : Device :=
  if bondRole d = 2 ∧ (d.bond.st = .acquire ∨ d.bond.st = .locked) ∧ d.bond.lastValid + 1000000000 ≤ d.up then
    bondState d .holdover
  else d

/-! Capture schedules (R392, R393). -/

/-- Send a SCHED body out of every enabled Bond port. -/
def schedSend (d : Device) (dest : Nat) (bcast : Bool) (body : List Byte) : Device :=
  bondSend (bondSend d 0 2 dest bcast body) 1 2 dest bcast body

/-- A write of BOND_SCHED_CTRL (R392): ERR is W1C; GO sends, or sets ERR for a PERIOD out of range. -/
def schedCtrlWrite (d : Device) (v : Nat) : Device :=
  let old := reg d 0xB00090 0x42000000
  let err := bitOf old 29 && !bitOf v 29
  let period := reg d 0xB00088 0 + 2 ^ 32 * reg d 0xB0008C 0
  let bad := bitOf v 31 && !(decide (1000000 ≤ period) && decide (period ≤ 1000000000))
  let d := setReg d 0xB00090 0x42000000 (setBits (v &&& 0x5F00FFFF) 29 29 (ofFlag (err || bad)))
  if bitOf v 31 && !bad then
    let pin := bitsOf v 28 27
    let q := (tget 0 pin d.bond.sseqs + 1) % 65536
    let base := reg d 0xB00080 0 + 2 ^ 32 * reg d 0xB00084 0
    let body := leBytes 1 pin ++ leBytes 1 0 ++ beBytes 2 q ++ beBytes 8 base ++ beBytes 8 period
    let d := { d with bond := { d.bond with sseqs := tset 0 pin q d.bond.sseqs } }
    let d := if bitsOf v 26 24 = 0 then d else
      { d with bond := { d.bond with reps := d.bond.reps ++
        [{ body := body, left := bitsOf v 26 24, at_ := d.up + 10000, bcast := bitOf v 30, dest := bitsOf v 15 0 }] } }
    schedSend d (bitsOf v 15 0) (bitOf v 30) body
  else d

/-- A repeat copy that is due is sent (R392). -/
def schedRepeat (d : Device) : Device :=
  match splitFirst (fun r => decide (r.at_ ≤ d.up)) d.bond.reps with
  | some (pre, r, post) =>
    let rest := if r.left ≤ 1 then [] else [{ r with left := r.left - 1, at_ := r.at_ + 10000 }]
    schedSend { d with bond := { d.bond with reps := pre ++ rest ++ post } } r.dest r.bcast r.body
  | none => d

/-- What a pin has applied. -/
def schedRx (d : Device) (p : Nat) : SchedRx := tget SchedRx.reset p d.bond.rx

/-- A SCHED frame that this device takes (R393). -/
def schedTake (d : Device) (f : List Byte) : Device :=
  let b := bondBody f
  let pin := byteOf b 0
  let q := beAt b 2 2
  let base := beAt b 4 8
  let period := beAt b 12 8
  let x := schedRx d pin
  let ahead := (q + 65536 - x.sseq) % 65536
  if pin < 4 ∧ 1000000 ≤ period ∧ period ≤ 1000000000 ∧ (!x.valid ∨ (0 < ahead ∧ ahead < 32768)) then
    let start := firstInstant base period (d.time + 2000)
    let r := { valid := true, late := x.late || decide (base < start), sseq := q }
    let d := { d with bond := { d.bond with rx := tset SchedRx.reset pin r d.bond.rx } }
    match tfind pin d.ingest.trigs with
    | some t => { d with ingest := { d.ingest with trigs := tput pin { t with next := some (start, base, period) } d.ingest.trigs } }
    | none => d
  else d

/-! Proxies and remote mailboxes (R394, R395). -/

/-- BOND_PROXYk. -/
def proxyCfg (d : Device) (k : Nat) : Nat := reg d (0xB00060 + 4 * k) 0

/-- Proxy channel 24 + k. -/
def proxyAt (d : Device) (k : Nat) : Proxy := tget Proxy.reset k d.bond.proxies

/-- Change a proxy channel. -/
def setProxy (d : Device) (k : Nat) (x : Proxy) : Device :=
  { d with bond := { d.bond with proxies := tset Proxy.reset k x d.bond.proxies } }

/-- Channel c is a proxy. -/
def isProxy (d : Device) (c : Nat) : Bool := decide (24 ≤ c) && decide (c < 32) && bitOf (proxyCfg d (c - 24)) 31

/-- The body of a MSG frame. -/
def msgBody (ch kind ref value : Nat) : List Byte := leBytes 1 ch ++ leBytes 1 kind ++ beBytes 2 ref ++ beBytes 4 value

/-- The port a new message leaves on: one of those that are up, by a free choice; BOND0 when none is. -/
def msgPort (d : Device) : Nat :=
  match [0, 1].filter (bondUp d) with
  | [] => 0
  | [n] => n
  | _ => free d 41 % 2

/-- A proxy channel sends a word or doorbell bits (R394); a message made while no port is up takes its sequence number too, and
waits for its retransmission (R397). -/
def proxySend (d : Device) (c : Nat) (word : Bool) (v : Nat) : Device :=
  let k := c - 24
  let cfg := proxyCfg d k
  let n := msgPort d
  let p := bondPort d n
  let body := msgBody (bitsOf cfg 20 16) (if word then 1 else 2) 0 v
  let x := proxyAt d k
  let d' := setProxy d k { x with msgs := x.msgs ++
    [{ seq := p.seq, port := n, word := word, dest := bitsOf cfg 15 0, body := body, at_ := d.up + 20000, tries := 0 }] }
  if bondUp d n then bondSend d' n 3 (bitsOf cfg 15 0) false body
  else setBondPort d' n { p with seq := (p.seq + 1) % 65536 }

/-- The channel of a word whose message has ended empties (R394). -/
def proxyEmpty (d : Device) (k : Nat) (m : ProxyMsg) : Device :=
  if m.word then
    let c := 24 + k
    let x := mboxAt d c
    if x.full then mboxEmptied (setMbox d c { x with word := 0, full := false }) c (d.bond.bondFilled.contains c) else d
  else d

/-- A message ends without an ACK: ERR and REASON. -/
def proxyFail (d : Device) (k : Nat) (m : ProxyMsg) (reason : Nat) : Device :=
  proxyEmpty (setProxy d k { proxyAt d k with err := true, reason := reason }) k m

/-- Retransmissions of proxy k that are due: three, 20 µs apart, then no answer (R394). -/
def proxyRetransmit (d : Device) (k : Nat) : Device :=
  let x := proxyAt d k
  match splitFirst (fun m => decide (m.at_ ≤ d.up)) x.msgs with
  | some (pre, m, post) =>
    if m.tries < 3 then
      let d := setProxy d k { x with msgs := pre ++ [{ m with at_ := m.at_ + 20000, tries := m.tries + 1 }] ++ post }
      if bondUp d m.port then
        emit d (.bond m.port (bondFrame (bondId d) m.dest 3 (bondTtl d m.port 3) m.seq false m.body))
      else d
    else proxyFail (setProxy d k { x with msgs := pre ++ post }) k m 3
  | none => d

/-- An ACK or NAK ends the message it answers (R394). -/
def proxyAnswer (d : Device) (f : List Byte) (k : Nat) : Device :=
  let b := bondBody f
  let x := proxyAt d k
  match splitFirst (fun m => m.seq == beAt b 2 2 && m.dest == bfSrc f && m.body.take 1 == b.take 1) x.msgs with
  | some (pre, m, post) =>
    let d := setProxy d k { x with msgs := pre ++ post }
    if byteOf b 1 = 3 then proxyEmpty d k m else proxyFail d k m (if beAt b 4 4 = 1 then 1 else 2)
  | none => d

/-- Answer a MSG frame, and remember the answer for 100 µs. -/
def msgAnswer (d : Device) (n : Nat) (f : List Byte) (kind value : Nat) : Device :=
  let keep := d.bond.answered.filter (fun a => decide (d.up ≤ a.at_ + 100000))
  let d := { d with bond := { d.bond with answered := keep ++
    [{ port := n, src := bfSrc f, seq := bfSeq f, kind := kind, value := value, at_ := d.up }] } }
  bondSend d n 3 (bfSrc f) false (msgBody (byteOf (bondBody f) 0) kind (bfSeq f) value)

/-- A word or doorbell MSG (R395). -/
def msgDeliver (d : Device) (n : Nat) (f : List Byte) : Device :=
  let b := bondBody f
  let c := byteOf b 0
  let v := beAt b 4 4
  match d.bond.answered.find? (fun a => a.port == n && a.src == bfSrc f && a.seq == bfSeq f && decide (d.up ≤ a.at_ + 100000)) with
  | some a => bondSend d n 3 (bfSrc f) false (msgBody c a.kind (bfSeq f) a.value)
  | none =>
    if 32 ≤ c ∨ !bitOf (reg d 0xB00050 0) c then msgAnswer d n f 4 2
    else if byteOf b 1 = 2 then msgAnswer (mboxRing d c (BitVec.ofNat 32 v)) n f 3 0
    else
      match mboxSend d c (BitVec.ofNat 32 v) with
      | (_, false) => msgAnswer d n f 4 1
      | (d, true) => msgAnswer { d with bond := { d.bond with bondFilled := sadd c d.bond.bondFilled } } n f 3 0

/-- A MSG frame that this device takes. -/
def msgTake (d : Device) (n : Nat) (f : List Byte) : Device :=
  let kind := byteOf (bondBody f) 1
  if kind = 1 ∨ kind = 2 then msgDeliver d n f
  else if kind = 3 ∨ kind = 4 then (upto 0 8).foldl (fun d k => proxyAnswer d f k) d
  else d

/-! Streams and links (R396, R397). -/

/-- A frame leaves switch port 4 + n as a STREAM frame (R396): false when it is oversize and dropped. -/
def bondStream (d : Device) (n : Nat) (inner : List Byte) : Device × Bool :=
  if 9186 < inner.length + 4 then
    let x := bondPort d n
    (setBondPort d n { x with oversize := (x.oversize + 1) % 256 }, false)
  else (bondSend d n 4 (bitsOf (bondPortCfg d n) 15 0) false inner, true)

/-- Bond port n loses its link (R397). -/
def bondLinkDown (d : Device) (n : Nat) : Device :=
  let x := bondPort d n
  if !x.link then d
  else
    let d := setBondPort d n { x with link := false, downs := (x.downs + 1) % 128 }
    let d := swLinkDown d (4 + n)
    if parentPort d = n ∧ d.bond.st ≠ .off then bondState { d with bond := { d.bond with asked := [] } } .holdover else d

/-- ETH port p. -/
def ethPort (d : Device) (p : Nat) : EthPort :=
  tget EthPort.reset p d.eth.ports

/-- Change ETH port p. -/
def setEthPort (d : Device) (p : Nat) (x : EthPort) : Device :=
  { d with eth := { d.eth with ports := tset EthPort.reset p x d.eth.ports } }

/-- ETH_PORTp_CFG. -/
def ethPortCfg (d : Device) (p : Nat) : Nat := reg d (0xA00000 + 16 * p) 0x02000000

/-- A port's link is lost. -/
def portLinkDown (d : Device) (p : Nat) : Device :=
  if p < 4 then
    let x := ethPort d p
    if x.link then swLinkDown (setEthPort d p { x with link := false, downs := (x.downs + 1) % 256 }) p else d
  else if p < 6 then bondLinkDown d (p - 4)
  else d

/-- A port's link comes up; a port that is not enabled has no link. -/
def portLinkUp (d : Device) (p : Nat) : Device :=
  if p < 4 then
    if bitOf (ethPortCfg d p) 31 then
      swLinkUp (setEthPort d p { ethPort d p with link := true, mode := bitsOf (ethPortCfg d p) 30 28 }) p
    else d
  else if p < 6 ∧ bondOn d (p - 4) then swLinkUp (setBondPort d (p - 4) { bondPort d (p - 4) with link := true }) p
  else d

/-- BOND_PORTn_STAT. -/
def bondPortStat (d : Device) (n : Nat) : Nat :=
  let x := bondPort d n
  ofFlag x.link * 2 ^ 31 + x.downs * 2 ^ 24 + x.bad * 2 ^ 16 + x.fwdDrop * 2 ^ 8 + x.oversize

/-- BOND_TIME_STAT. -/
def bondTimeStat (d : Device) : Nat :=
  let st := match d.bond.st with | .off => 0 | .acquire => 1 | .locked => 2 | .holdover => 3
  st * 2 ^ 62 + ofFlag d.bond.extErr * 2 ^ 61 + min 65535 d.bond.delay * 2 ^ 32 + (d.bond.offset % 2 ^ 32).toNat

/-- BOND_PROXYk as read. -/
def proxyReg (d : Device) (k : Nat) : Nat :=
  let x := proxyAt d k
  proxyCfg d k + ofFlag x.err * 2 ^ 30 + x.reason * 2 ^ 28

/-- A write of BOND_PROXYk (R394): ERR is W1C; EN is ignored while the channel is full. -/
def proxyWrite (d : Device) (k v : Nat) : Device :=
  let x := proxyAt d k
  let d := setProxy d k { x with err := x.err && !bitOf v 30 }
  let v := if (mboxAt d (24 + k)).full then setBits v 31 31 (bitsOf (proxyCfg d k) 31 31) else v
  setReg d (0xB00060 + 4 * k) 0 (v &&& 0x801FFFFF)

/-- A write of BOND_CFG (R384, R387): TOPO and ID are ignored while EN = 1. Ports of a disabled Bond lose their link. -/
def bondCfgWrite (d : Device) (v : Nat) : Device :=
  let old := bondCfg d
  let d := setReg d 0xB00000 0 (if bitOf old 31 then setBits old 31 31 (bitsOf v 31 31) else v &&& 0xC000FFFF)
  if bitOf v 31 then d else portLinkDown (portLinkDown d 4) 5

/-- A write of BOND_PORTn_CFG: a port that is disabled loses its link. -/
def bondPortCfgWrite (d : Device) (n v : Nat) : Device :=
  let d := setReg d (0xB00010 + 16 * n) 0x20010000 (v &&& 0xE0FFFFFF)
  if bitOf v 31 then d else portLinkDown d (4 + n)

/-- A write of BOND_TIME_CTRL (R388, R390). -/
def bondTimeCtrlWrite (d : Device) (v : Nat) : Device :=
  bondRoleSet (setReg d 0xB00040 0 (v &&& 0xE000FFFF)) (bondRole d)

/-! Meanings. -/

/-- A received frame of one type on port n, handed to what takes it. -/
def bondRx (d : Device) (n type : Nat) (f : List Byte) (take : Device → Device) : Device :=
  if 2 ≤ n ∨ (bfOk f ∧ bfType f ≠ type) then d
  else match bondReceive d n f with
    | (d, true) => take d
    | (d, false) => d

/-- BOND_SYNC_RX (R389). -/
def execBondSyncRx (n : Nat) (f : List Byte) (s : State) : Host.Outcome State Fault Refusal :=
  done s (bondRx s.dev n 1 f (fun d => syncTake d n f))

/-- BOND_SCHED_RX (R393). -/
def execBondSchedRx (n : Nat) (f : List Byte) (s : State) : Host.Outcome State Fault Refusal :=
  done s (bondRx s.dev n 2 f (fun d => schedTake d f))

/-- BOND_MSG_RX (R394, R395). -/
def execBondMsgRx (n : Nat) (f : List Byte) (s : State) : Host.Outcome State Fault Refusal :=
  done s (bondRx s.dev n 3 f (fun d => msgTake d n f))

/-- BOND_STREAM_RX (R396): the inner frame enters the switch at port 4 + n. -/
def execBondStreamRx (n : Nat) (f : List Byte) (s : State) : Host.Outcome State Fault Refusal :=
  done s (bondRx s.dev n 4 f (fun d => swReceive d (4 + n) (bondBody f) true d.time))

/-- SYNC_REQUEST_SEND (R389). -/
def execSyncRequestSend (s : State) : Host.Outcome State Fault Refusal := done s (syncRequest s.dev)

/-- BOND_HOLDOVER_TIMEOUT (R390). -/
def execBondHoldoverTimeout (s : State) : Host.Outcome State Fault Refusal := done s (holdoverTimeout s.dev)

/-- BOND_SCHED_REPEAT (R392). -/
def execBondSchedRepeat (s : State) : Host.Outcome State Fault Refusal := done s (schedRepeat s.dev)

/-- PROXY_RETRANSMIT (R394). -/
def execProxyRetransmit (k : Nat) (s : State) : Host.Outcome State Fault Refusal := done s (proxyRetransmit s.dev k)

/-- BOND_LINK_DOWN (R397). -/
def execBondLinkDown (n : Nat) (s : State) : Host.Outcome State Fault Refusal :=
  done s (if n < 2 then bondLinkDown s.dev n else s.dev)

/-- SW_LINK_DOWN (R359). -/
def execSwLinkDown (p : Nat) (s : State) : Host.Outcome State Fault Refusal := done s (portLinkDown s.dev p)

/-- SW_LINK_UP (R359). -/
def execSwLinkUp (p : Nat) (s : State) : Host.Outcome State Fault Refusal := done s (portLinkUp s.dev p)

end Sys2Proof.Machine
end

