-- ==== Sys2Proof/Machine/Eth.lean ====
section
/-! DEFINITION. Ethernet ports (R362), writes of device time (R364), receive flows (R367–R370), NETTX (R371–R375) and egress
scheduling (R377–R383). -/

namespace Sys2Proof.Machine

/-! Port modes (R362) and time writes (R364, R390). -/

/-- A combination of R362. -/
def ethModeOk (mode fec : Nat) : Bool := if mode = 0 then decide (fec ≤ 2) else decide (mode ≤ 3) && fec == 3

/-- A write of ETH_PORTp_CFG. A port that is disabled loses its link. -/
def ethCfgWrite (d : Device) (p v : Nat) : Device :=
  if ethModeOk (bitsOf v 30 28) (bitsOf v 27 26) then
    let d := setReg d (0xA00000 + 16 * p) 0x02000000 (v &&& 0xFE000000)
    if bitOf v 31 then d else portLinkDown d p
  else setEthPort d p { ethPort d p with cfgErr := true }

/-- A follower ignores time writes and sets EXT_ERR (R390). -/
def timeRefused (d : Device) : Device := { d with bond := { d.bond with extErr := true } }

/-- A write of ETH_TIME_STEP. -/
def timeStepWrite (d : Device) (v : Nat) : Device :=
  if bondRole d = 2 then timeRefused d else stepTime d (signedOf 64 v)

/-- A write of ETH_TIME_RATE. -/
def timeRateWrite (d : Device) (v : Nat) : Device :=
  if bondRole d = 2 then timeRefused d else setReg d 0xA00108 0 (v % 2 ^ 32)

/-- ETH_PORTp_STAT. -/
def ethStat (d : Device) (p : Nat) : Nat :=
  let x := ethPort d p
  ofFlag x.link * 2 ^ 31 + x.mode * 2 ^ 28 + ofFlag x.cfgErr * 2 ^ 27 + x.fecUncorr * 2 ^ 8 + x.downs

/-! Receive flows (R367–R370). -/

/-- Flow entry i, 64 bytes. -/
def flowEntry (d : Device) (i : Nat) : List Byte := regBytes d (0xA10000 + 64 * i) 16

/-- Flow i. -/
def flowAt (d : Device) (i : Nat) : Flow := tget Flow.reset i d.eth.flows

/-- Change flow i. -/
def setFlow (d : Device) (i : Nat) (x : Flow) : Device :=
  { d with eth := { d.eth with flows := tset Flow.reset i x d.eth.flows } }

/-- The key of a flow entry agrees with a frame (R367). -/
def flowKey (e l : List Byte) : Bool :=
  let h := l2Of l
  let udp := match udpOff l with | some o => beAt l (o + 2) 2 == fieldAt e 2 2 | none => false
  match fieldAt e 1 1 with
  | 0 => h.etype == fieldAt e 2 2
  | 1 => ipVer h == 4 && ipDst l == (e.drop 8).take 4 && udp
  | 2 => ipVer h == 6 && ipDst l == (e.drop 8).take 16 && udp
  | _ => false

/-- The lowest valid entry that takes a frame. -/
def flowFor (d : Device) (f : Frame) : Option Nat :=
  (tableIdx d 0xA10000 64 1024 0).find? (fun i =>
    let e := flowEntry d i
    (fieldAt e 0 1 == 1 || fieldAt e 0 1 == 2) && bitOf (fieldAt e 7 1) f.port && flowKey e f.data)

/-- The ring a frame on RX goes to: that of its flow, or the default ring. -/
def rxRing (d : Device) (f : Frame) : Option Nat :=
  match flowFor d f with
  | some i => some (fieldAt (flowEntry d i) 4 2)
  | none => let v := reg d 0xA00120 0; if bitOf v 31 then some (bitsOf v 12 0) else none

/-- The extended sequence number of 16-bit number q nearest to the highest seen. -/
def extSeq (high q : Nat) : Nat :=
  let b := high / 65536 * 65536 + q % 65536
  if high + 32768 < b ∧ 65536 ≤ b then b - 65536 else if b + 32768 ≤ high then b + 65536 else b

/-- Merge state of a key: an ST 2022-7 group, or 256 + the flow. -/
def mergeAt (d : Device) (k : Nat) : Merge := tget { started := false, high := 0, seen := [] } k d.eth.merges

/-- An RTP sequence number arrives on a stream (R370): its extended number, and whether it is the first of it and not more than 4,096
behind the highest. -/
def mergeSeq (d : Device) (k q : Nat) : Device × Nat × Bool :=
  let m := mergeAt d k
  let x := if m.started then extSeq m.high q else q
  let fresh := !m.started || (!m.seen.contains x && decide (m.high ≤ x + 4096))
  let high := if m.started then max m.high x else x
  let m' : Merge := { started := true, high := high, seen := (if fresh then [x] else []) ++ m.seen.filter (fun y => decide (high ≤ y + 4096)) }
  ({ d with eth := { d.eth with merges := tset { started := false, high := 0, seen := [] } k m' d.eth.merges } }, x, fresh)

/-- Split bytes into 32-byte entries, the last padded. -/
def entriesOf : Nat → List Byte → List (List Byte)
  | 0, _ => []
  | n + 1, l => if l = [] then [] else padTo 32 l :: entriesOf n (l.drop 32)

/-- Push data entries, EOP on the last. -/
def pushData (d : Device) (ring : Nat) : List (List Byte) → Device
  | [] => d
  | [e] => (unitPush d ring { data := e, sop := false, eop := true } false).1
  | e :: r => pushData (unitPush d ring { data := e, sop := false, eop := false } false).1 ring r

/-- Count a frame or picture a flow drops. -/
def flowDrop (d : Device) (i : Nat) : Device :=
  let x := flowAt d i
  setFlow d i { x with drop := (x.drop + 1) % 2 ^ 32 }

/-- Deliver a frame to a ring as one packet (R368), or drop it whole. -/
def ringFrame (d : Device) (ring : Nat) (flow : Option Nat) (f : Frame) (seq : Option Nat) : Device :=
  let es := entriesOf f.data.length f.data
  let r := ringAt d ring
  if unitRing d ring && decide (r.room < es.length + 1) then
    match flow with | some i => flowDrop d i | none => d
  else
    let hdr := leBytes 2 f.data.length ++ leBytes 1 f.port ++ leBytes 1 f.cls ++ leBytes 2 (flow.getD 0xFFFF) ++
      leBytes 1 (ofFlag (isCe f.data) + 2 * ofFlag seq.isSome) ++ leBytes 1 0 ++ leBytes 8 f.rxTime ++
      leBytes 4 (seq.getD 0) ++ leBytes 12 0
    pushData (unitPush d ring { data := hdr, sop := true, eop := es.isEmpty } true).1 ring es

/-! VIDEO flows (R369). -/

/-- A pitch of w samples of 2 bytes, rounded up to 64. -/
def videoPitch (w : Nat) : Nat := (2 * w + 63) / 64 * 64

/-- Width of plane k of a VIDEO format. -/
def planeWidth (fmt w k : Nat) : Nat := if fmt = 0x11 ∧ k ≠ 0 then w / 2 else w

/-- Offset of row r of plane k. -/
def planeRow (fmt w h k r : Nat) : Nat :=
  ((upto 0 k).foldl (fun o j => o + videoPitch (planeWidth fmt w j) * h) 0) + r * videoPitch (planeWidth fmt w k)

/-- The n-bit numbers of a big-endian byte sequence of `len` bytes. -/
def unpackBits (n : Nat) (l : List Byte) : List Nat :=
  let v := beAt l 0 l.length
  let k := l.length * 8 / n
  (upto 0 k).map (fun i => v / 2 ^ (l.length * 8 - n * (i + 1)) % 2 ^ n)

/-- The pixel groups of a payload, each as its samples: 5 bytes of four 10-bit samples, or 9 bytes of six 12-bit ones. -/
def pgroups (fmt : Nat) : Nat → List Byte → List (List Nat)
  | 0, _ => []
  | n + 1, l =>
    let s := if fmt = 0x11 then 5 else 9
    if l.length < s then [] else unpackBits (if fmt = 0x11 then 10 else 12) (l.take s) :: pgroups fmt n (l.drop s)

/-- Samples of plane k in a pixel group: Cb Y Cr Y, Cb Y Cr twice, or R G B twice; planes are Y, Cb, Cr or G, B, R, and RGB is
stored shifted by 4. -/
def groupPlane (fmt k : Nat) (g : List Nat) : List Nat :=
  let a := fun i => (g[i]?).getD 0
  if fmt = 0x11 then (if k = 0 then [a 1, a 3] else if k = 1 then [a 0] else [a 2])
  else if fmt = 0x12 then (if k = 0 then [a 1, a 4] else if k = 1 then [a 0, a 3] else [a 2, a 5])
  else
    let s := if k = 0 then [a 1, a 4] else if k = 1 then [a 2, a 5] else [a 0, a 3]
    s.map (· * 16)

/-- Write into the picture's buffer as the stream switch. -/
def videoWrite (d : Device) (h off : Nat) (bs : List Byte) : Device := (bufWrite d 40 h off bs).1

/-- Place one sample row segment: row r, pixels from x on. -/
def videoPut (d : Device) (e : List Byte) (v : VideoRx) (r x : Nat) (data : List Byte) : Device × VideoRx :=
  let w := fieldAt e 32 2
  let h := fieldAt e 34 2
  let fmt := fieldAt e 36 1
  let gs := pgroups fmt data.length data
  let gs := gs.take ((w - x) / 2)
  if h ≤ r ∨ w ≤ x then (d, v)
  else
    let d := [0, 1, 2].foldl (fun d k =>
      let col := if fmt = 0x11 ∧ k ≠ 0 then x / 2 else x
      videoWrite d v.handle (planeRow fmt w h k r + 2 * col) ((gs.flatMap (groupPlane fmt k)).flatMap (leBytes 2))) d
    (d, { v with rows := tmod 0 r (fun n => min w (n + 2 * gs.length)) v.rows })

/-- The sample row data headers of a payload: (row, offset, length). -/
def srds : Nat → List Byte → List (Nat × Nat × Nat)
  | 0, _ => []
  | n + 1, l =>
    let s := (beAt l 2 2 % 32768, beAt l 4 2 % 32768, beAt l 0 2)
    if bitOf (beAt l 4 2) 15 then s :: srds n (l.drop 6) else [s]

/-- Place every segment of a payload. -/
def videoSegs (e : List Byte) : List (Nat × Nat × Nat) → List Byte → Device × VideoRx → Device × VideoRx
  | [], _, r => r
  | (row, off, len) :: l, data, (d, v) => videoSegs e l (data.drop len) (videoPut d e v row off (data.take len))

/-- A black row of plane k. -/
def blackRow (fmt w k : Nat) : List Byte :=
  let v := if fmt = 0x20 then 0 else (if k = 0 then 64 else 512) * (if fmt = 0x11 then 1 else 4)
  (List.replicate (planeWidth fmt w k) (leBytes 2 v)).flatten

/-- Fill row r with the row above, row 0 with black. -/
def fillRow (e : List Byte) (h : Nat) (d : Device) (r : Nat) : Device :=
  let w := fieldAt e 32 2
  let ht := fieldAt e 34 2
  let fmt := fieldAt e 36 1
  [0, 1, 2].foldl (fun d k =>
    let bs := if r = 0 then blackRow fmt w k
      else bytesAt d (bufBase d (handleIdx h) + planeRow fmt w ht k (r - 1)) (2 * planeWidth fmt w k)
    videoWrite d h (planeRow fmt w ht k r) bs) d

/-- A picture of flow i ends: missing rows are filled and its record is pushed (R369). -/
def videoEnd (d : Device) (i : Nat) : Device :=
  match (flowAt d i).video with
  | none => d
  | some v =>
    let e := flowEntry d i
    let miss := (upto 0 (fieldAt e 34 2)).filter (fun r => decide (tget 0 r v.rows < fieldAt e 32 2))
    let d := miss.foldl (fillRow e v.handle) d
    let x := flowAt d i
    let n := (x.pictures + 1) % 2 ^ 32
    let d := setFlow d i { x with video := none, pictures := n }
    let bad := decide (miss ≠ [])
    let rec_ := leBytes 4 v.handle ++ leBytes 1 (ofFlag bad) ++ leBytes 1 v.legs ++ leBytes 1 i ++ leBytes 1 (ofFlag bad) ++
      leBytes 8 v.time ++ leBytes 4 n ++ leBytes 4 miss.length ++ leBytes 4 v.rtp
    match unitRecord d (fieldAt e 4 2) rec_ with
    | (d, .full) => flowDrop d i
    | (d, _) => d

/-- The first packet of a picture: a buffer is allocated for the ring's consumer (R369). -/
def videoBegin (d : Device) (i : Nat) (ts rx : Nat) : Device :=
  let e := flowEntry d i
  let d := setFlow d i { flowAt d i with lastTs := some ts }
  match yardAlloc d (ringAt d (fieldAt e 4 2)).consumer (fieldAt e 40 4) with
  | (d, some h) =>
    setFlow d i { flowAt d i with video := some { handle := h, rtp := ts, rows := [], legs := 0, time := rtpDeviceTime ts rx } }
  | (d, none) => flowDrop d i

/-- A packet of a VIDEO flow. -/
def videoPacket (d : Device) (i : Nat) (f : Frame) (p : Rtp) : Device :=
  let e := flowEntry d i
  let d := if (flowAt d i).lastTs = some p.ts then d else videoBegin (videoEnd d i) i p.ts f.rxTime
  match (flowAt d i).video with
  | none => d
  | some v =>
    let hs := srds 16 (p.body.drop 2)
    let (d, v) := videoSegs e hs (p.body.drop (2 + 6 * hs.length)) (d, { v with legs := v.legs ||| 2 ^ f.port })
    let d := setFlow d i { flowAt d i with video := some v }
    if p.marker then videoEnd d i else d

/-- The flow that keeps the picture of an ST 2022-7 group: the lowest of the group, so that all legs build one picture. -/
def groupHead (d : Device) (i g : Nat) : Nat :=
  if g = 0 then i
  else ((tableIdx d 0xA10000 64 1024 0).find? (fun j =>
    fieldAt (flowEntry d j) 0 1 == fieldAt (flowEntry d i) 0 1 && fieldAt (flowEntry d j) 6 1 == g)).getD i

/-- A frame of flow i (R367–R370). -/
def flowFrame (d : Device) (i : Nat) (f : Frame) : Device :=
  let e := flowEntry d i
  let g := fieldAt e 6 1
  let rtp := if fieldAt e 1 1 = 0 then none else (udpPayload f.data).bind (fun p => rtpOf p.2)
  match rtp with
  | none => if fieldAt e 0 1 = 1 then ringFrame d (fieldAt e 4 2) (some i) f none else d
  | some p =>
    let (d, x, fresh) := mergeSeq d (if g = 0 then 256 + i else g) p.seq
    if g ≠ 0 && !fresh then
      let y := flowAt d i
      setFlow d i { y with dup := (y.dup + 1) % 2 ^ 32 }
    else if fieldAt e 0 1 = 1 then ringFrame d (fieldAt e 4 2) (some i) f (some (x % 2 ^ 32))
    else videoPacket d (groupHead d i g) f p

/-- A frame leaves port RX from class c (R360, R367): delivered, or dropped and counted in DOWN of port 7. -/
def rxDeliver (d : Device) (c : Nat) : Device :=
  let d := ageQueue 7 c (queueAt d 7 c).length d
  match queueAt d 7 c with
  | [] => d
  | q :: _ =>
    match frameAt d q.frame with
    | none => dequeue d 7 c
    | some f =>
      let f := if q.ce then { f with data := markCe f.data } else f
      let out := perfEvent (perfEvent (nettxTook d f.ticket 7) 7 1 7 1 false 0 0) 7 2 7 (f.data.length + 4) false 0 0
      if q.dead then dequeue (dropDown d 7) 7 c
      else match flowFor d f, rxRing d f with
        | some i, _ => dequeue (flowFrame out i f) 7 c
        | none, some r => dequeue (ringFrame out r none f none) 7 c
        | none, none => dequeue (dropDown d 7) 7 c

/-- Frames queued on RX for rings that an FLR has reset are dropped at delivery (R360). -/
def killRx (d : Device) (rings : List Nat) : Device :=
  { d with sw := { d.sw with queues := d.sw.queues.map (fun e =>
      if e.1 / 8 = 7 then
        (e.1, e.2.map (fun q =>
          match (frameAt d q.frame).bind (rxRing d) with
          | some r => if rings.contains r then { q with dead := true } else q
          | none => q))
      else e) } }

/-! Egress scheduling (R377–R383). -/

/-- ETH_SHAPEp_c and its CFG. -/
def shapeRate (d : Device) (p c : Nat) : Nat := bitsOf (reg d (0xA01000 + p * 0x100 + c * 0x10) 0) 26 0

/-- ETH_SHAPEp_c_CFG. -/
def shapeCfg (d : Device) (p c : Nat) : Nat := reg d (0xA01004 + p * 0x100 + c * 0x10) (20 * 2 ^ 26 + 16384)

/-- OVERHEAD. -/
def shapeOverhead (d : Device) (p c : Nat) : Nat := bitsOf (shapeCfg d p c) 31 26

/-- Token count of a queue in millibits; it reads 0 with the shaper off. -/
def tokens (d : Device) (p c : Nat) : Int := if shapeRate d p c = 0 then 0 else tget 0 (p * 8 + c) d.eth.tokens

/-- Change a token count. -/
def setTokens (d : Device) (p c : Nat) (n : Int) : Device :=
  { d with eth := { d.eth with tokens := tset 0 (p * 8 + c) n d.eth.tokens } }

/-- One refill tick of a queue (R378). -/
def shaperQueue (d : Device) (p c : Nat) : Device :=
  if shapeRate d p c = 0 then d
  else
    let n : Int := min (tokens d p c + shapeRate d p c) (max 64 (bitsOf (shapeCfg d p c) 15 0) * 8000 : Nat)
    setTokens d p c (if queueAt d p c = [] then min n 0 else n)

/-- The queues of ports 0–5: (port, class). -/
def egressQueues : List (Nat × Nat) := (upto 0 6).flatMap (fun p => (upto 0 8).map (fun c => (p, c)))

/-- The 1 µs tick (R378), when it is due. -/
def shaperTick (d : Device) : Device :=
  if d.eth.tickAt ≤ d.up then
    egressQueues.foldl (fun d q => shaperQueue d q.1 q.2) { d with eth := { d.eth with tickAt := d.eth.tickAt + 1000 } }
  else d

/-- Gates of port p are in force, GATE_CTRL.EN. -/
def gateEn (d : Device) (p : Nat) : Bool := bitOf (reg d (0xA02000 + p * 0x100) 1) 31

/-- The gates of the entry in force. -/
def gatesNow (g : Gate) : Nat := ((g.oper[g.entry]?).map (·.2)).getD 0xFF

/-- Time left of entry i of a list, r ns into the cycle. -/
def entryEnd (g : Gate) (i : Nat) : Nat :=
  let e := (g.oper.take (i + 1)).foldl (fun n x => n + x.1) 0
  if g.oper.length ≤ i + 1 then g.cycle else min e g.cycle

/-- Time in ns from instant t until class c next closes in a list whose entry is i, r ns into the cycle; `none` when it never
closes. -/
def nextClose (g : Gate) (c : Nat) : Nat → Nat → Nat → Nat → Option Nat
  | 0, _, _, _ => none
  | n + 1, i, r, acc =>
    if bitOf (((g.oper[i]?).map (·.2)).getD 0xFF) c then
      let e := entryEnd g i
      let last := decide (g.oper.length ≤ i + 1) || decide (g.cycle ≤ e)
      nextClose g c n (if last then 0 else i + 1) (if last then 0 else e) (acc + (e - r))
    else some acc

/-- The frame fits before its class closes (R377, R383). -/
def gateFits (d : Device) (p c bytes : Nat) : Bool :=
  if !gateEn d p then true
  else
    let g := gateAt d p
    let fits := fun (t : Nat) => decide (bytes * 8 ≤ t * portGbps d p)
    bitOf (gatesNow g) c &&
      (match nextClose g c (g.oper.length + 1) g.entry (gateOffset g d.time) 0 with | some t => fits t | none => true) &&
      (!g.pending || bitOf (((g.next[0]?).map (·.2)).getD 0xFF) c || fits (g.startReg - d.time))

/-- The bytes of a stored frame as they leave port p (R352, R357, R364). -/
def frameOut (d : Device) (p : Nat) (f : Frame) (ce : Bool) : List Byte :=
  let l := match f.leg2 with | some (q, l2) => if q = p then l2 else f.data | none => f.data
  let l := if ce then markCe l else l
  if f.oneStep then oneStepSync l d.time else l

/-- A class of port p may start its head frame (R377). -/
def classReady (d : Device) (p c : Nat) : Bool :=
  match queueAt d p c with
  | [] => false
  | q :: _ =>
    match frameAt d q.frame with
    | none => false
    | some f =>
      (tfind c (swAt d p).paused).isNone && decide (0 ≤ tokens d p c) &&
        gateFits d p c ((frameOut d p f q.ce).length + 4 + shapeOverhead d p c)

/-- The first destination port of a frame (R372). -/
def firstDest (f : Frame) : Option Nat := (destOf f).head?

/-- RESULT of a NETTX record (R358, R375). -/
def nettxResult (x : NetTx) (tag time : Nat) : List Byte :=
  leBytes 2 x.delivered ++ leBytes 2 x.missed ++ leBytes 4 tag ++ leBytes 8 time

/-- A frame's requested transmit timestamp: an interim record when it leaves its first destination (R372). -/
def nettxStamp (d : Device) (f : Frame) (p : Nat) : Device :=
  match f.ticket with
  | some t =>
    if f.stamp ∧ firstDest f = some p then
      match tfind t d.eth.nettx with
      | some x => modNetTx (interimWo d t 0 0 (nettxResult x f.tag d.time)) (some t) (fun x => { x with delivered := 0, missed := 0 })
      | none => d
    else d
  | none => d

/-- Port p can start a frame (R377): the head frame of the highest class that may. -/
def egressStart (d : Device) (p : Nat) : Device :=
  if 6 ≤ p ∨ (swAt d p).st ≠ .up then d
  else
    let d := agePort d p
    match ((upto 0 8).reverse).find? (classReady d p) with
    | none => d
    | some c =>
      match queueAt d p c with
      | [] => d
      | q :: _ =>
        match frameAt d q.frame with
        | none => d
        | some f =>
          let bytes := frameOut d p f q.ce
          let n := bytes.length + 4
          let d := if shapeRate d p c = 0 then d else setTokens d p c (tokens d p c - ((n + shapeOverhead d p c) * 8000 : Nat))
          let (d, ok) := if p < 4 then (emit d (.frame p bytes), true) else bondStream d (p - 4) bytes
          let d := if ok then
              nettxStamp (nettxTook (perfEvent (perfEvent d 7 1 p 1 false 0 0) 7 2 p n false 0 0) f.ticket p) f p
            else nettxMiss d f.ticket p
          dequeue d p c

/-! Samples and high-water marks (R380). -/

/-- Age in ns of a queue's head frame, or 0. -/
def headAge (d : Device) (p c : Nat) : Nat := match queueAt d p c with | [] => 0 | e :: _ => d.time - e.time

/-- The high-water marks take a sample. -/
def hwmTake (d : Device) (p c : Nat) : Device :=
  { d with eth := { d.eth with hwm := tmod (0, 0) (p * 8 + c) (fun h =>
      (max h.1 (min 65535 (depth d p c)), max h.2 (min 65535 (headAge d p c / 1000)))) d.eth.hwm } }

/-- One queue's sample. -/
def sampleQueue (en : Bool) (ring : Nat) (d : Device) (q : Nat × Nat) : Device :=
  if !en then hwmTake d q.1 q.2
  else
    let rec_ := leBytes 4 (0xFFFFFD00 + 8 * q.1 + q.2) ++ leBytes 4 0 ++ leBytes 8 d.time ++ leBytes 4 (depth d q.1 q.2) ++
      leBytes 4 (headAge d q.1 q.2) ++ leBytes 4 ((tokens d q.1 q.2) % 2 ^ 32).toNat
    match unitRecord d ring rec_ with
    | (d, .full) => hwmTake d q.1 q.2
    | (d, _) => d

/-- A sampling instant, when it is due (R380). -/
def queueSample (d : Device) : Device :=
  let v := reg d 0xA00140 100
  if d.eth.sampleAt ≤ d.up then
    egressQueues.foldl (sampleQueue (bitOf v 31) (bitsOf v 28 16))
      { d with eth := { d.eth with sampleAt := d.up + max 10 (bitsOf v 15 0) * 1000 } }
  else d

/-- A read of ETH_QHWMp_c, which clears both fields. -/
def hwmRead (d : Device) (p c : Nat) : Device × Nat :=
  let h := tget (0, 0) (p * 8 + c) d.eth.hwm
  ({ d with eth := { d.eth with hwm := tdel (p * 8 + c) d.eth.hwm } }, h.1 * 65536 + h.2)

/-! Gate lists (R381–R383). -/

/-- Administrative entry i of port p: interval and gates. -/
def adminEntry (d : Device) (p i : Nat) : Nat × Nat :=
  let e := regBytes d (0xA04000 + p * 0x800 + 8 * i) 2
  (fieldAt e 0 4, fieldAt e 4 1)

/-- GATE_CYCLE. -/
def gateCycle (d : Device) (p : Nat) : Nat := reg d (0xA02010 + p * 0x100) 1000000

/-- A write of GATE_CTRL of port p (R381, R382). -/
def gateCtrlWrite (d : Device) (p v : Nat) : Device :=
  let g := gateAt d p
  let len := bitsOf v 8 0
  let store := fun d => setReg d (0xA02000 + p * 0x100) 1 (v &&& 0x800001FF)
  if !bitOf v 30 then store d
  else
    let l := (upto 0 (min len 256)).map (adminEntry d p)
    let cyc := gateCycle d p
    if g.pending || !(decide (1 ≤ len) && decide (len ≤ 256)) || !l.all (fun e => decide (64 ≤ e.1)) ||
        !(decide (1000 ≤ cyc) && decide (cyc ≤ 1000000000)) then setGate d p { g with err := true }
    else
      let base := reg d (0xA02008 + p * 0x100) 0 + 2 ^ 32 * reg d (0xA0200C + p * 0x100) 0
      let start := firstInstant base cyc (d.time + 2000)
      setGate (store d) p { g with next := l, nextCycle := cyc, pending := true, startReg := start
                                   late := g.late || decide (base < start) }

/-- A write to the administrative entries, GATE_BASE or GATE_CYCLE of port p (R382). -/
def gateAdminWrite (d : Device) (p off rst v : Nat) : Device :=
  let g := gateAt d p
  if g.pending then setGate d p { g with err := true } else setReg d off rst v

/-- GATE_STATUS. -/
def gateStatus (d : Device) (p : Nat) : Nat :=
  let g := gateAt d p
  ofFlag g.pending * 2 ^ 31 + ofFlag g.late * 2 ^ 30 + ofFlag g.err * 2 ^ 29 + g.oper.length * 2 ^ 8 + g.entry

/-! NETTX (R371–R375). -/

/-- PORTS of a NETTX. -/
def txPorts (w : WorkOrder) : Nat := woField w 66 2 % 64

/-- LEG2 of a NETTX. -/
def txLeg2 (w : WorkOrder) : Nat := woField w 70 1

/-- All destinations of a NETTX, with an override of PORTS unless 0. -/
def txDests (w : WorkOrder) (forced : Nat) : Nat :=
  (if forced = 0 then txPorts w else forced) ||| (if txLeg2 w < 6 then 2 ^ txLeg2 w else 0)

/-- A frame of a NETTX. -/
def txFrame (w : WorkOrder) (data leg2 : List Byte) (forced : Nat) : Frame :=
  { data := data, leg2 := if txLeg2 w < 6 then some (txLeg2 w, leg2) else none, port := 6, cls := woField w 65 1
    ports := txDests w forced, ticket := some w.ticket, stamp := false, oneStep := false, tag := 0, rxTime := 0 }

/-- A RAW packet's frame (R372); `none` when the layout is broken. -/
def rawFrame (w : WorkOrder) (h : List Byte) (data : List (List Byte)) : Option Frame :=
  let len := fieldAt h 0 2
  let fl := fieldAt h 2 1
  if 60 ≤ len ∧ len ≤ 9212 ∧ fl < 4 ∧ fieldAt h 4 2 < 64 ∧ zeroAt h 3 1 ∧ zeroAt h 6 2 ∧ zeroAt h 12 20 ∧
      data.length = (len + 31) / 32 then
    let l := data.flatten.take len
    some { txFrame w l l (fieldAt h 4 2) with
           stamp := bitOf fl 0 && !woNoInterim w, oneStep := bitOf fl 1, tag := fieldAt h 8 4 }
  else none

/-- An RTP packet of a payload type and source behind a leg of a header template (R371). -/
def rtpWrap (leg : List Byte) (pt ssrc : Nat) (marker : Bool) (seq ts : Nat) (body : List Byte) : List Byte :=
  let rtp := leBytes 1 0x80 ++ leBytes 1 (128 * ofFlag marker + pt % 128) ++ beBytes 2 seq ++ beBytes 4 ts ++
    beBytes 4 ssrc ++ body
  let h := l2Of leg
  let n := 8 + rtp.length
  if ipVer h = 6 then
    let l := putBytes (leg.take (h.off + 40) ++ (leg.drop (h.off + 40)).take 8) (h.off + 4) (beBytes 2 n)
    let l := putBytes (putBytes l (h.off + 44) (beBytes 2 n)) (h.off + 46) [0, 0]
    let pseudo := (l.drop (h.off + 8)).take 32 ++ beBytes 4 n ++ beBytes 4 17
    let c := checksum (sum16 (pseudo ++ l.drop (h.off + 40) ++ rtp))
    putBytes l (h.off + 46) (beBytes 2 (if c = 0 then 0xFFFF else c)) ++ rtp
  else
    let l := putBytes (leg.take (h.off + 28)) (h.off + 2) (beBytes 2 (20 + n))
    let l := putBytes (putBytes l (h.off + 24) (beBytes 2 n)) (h.off + 26) [0, 0]
    fixIpv4 l h.off ++ rtp

/-- An RTP packet of a NETTX. -/
def rtpPacket (leg : List Byte) (w : WorkOrder) (marker : Bool) (seq ts : Nat) (body : List Byte) : List Byte :=
  rtpWrap leg (woField w 74 1) (woField w 76 4) marker seq ts body

/-- Cut a list into pieces of at most k. -/
def pieces (k : Nat) : Nat → List Byte → List (List Byte)
  | 0, _ => []
  | n + 1, l => if l.length ≤ k then [l] else l.take k :: pieces k n (l.drop k)

/-- RTP payloads of an HEVC NAL unit (RFC 7798): a single NAL unit packet, or fragmentation units (R373). -/
def hevcPayloads (pmax : Nat) (nal : List Byte) : List (List Byte) :=
  if nal.length ≤ pmax then [nal]
  else
    let t := byteOf nal 0 / 2 % 64
    let ps := pieces (pmax - 3) nal.length (nal.drop 2)
    let hdr := leBytes 1 (byteOf nal 0 &&& 0x81 ||| 98) ++ leBytes 1 (byteOf nal 1)
    (upto 0 ps.length).map (fun i =>
      hdr ++ leBytes 1 (128 * ofFlag (i == 0) + 64 * ofFlag (i + 1 == ps.length) + t) ++ (ps[i]?).getD [])

/-- RTP payloads of an AV1 OBU: one element, W = 1, Z and Y marking fragments, N on a key picture's sequence header (R373). -/
def av1Payloads (pmax : Nat) (key : Bool) (obu : List Byte) : List (List Byte) :=
  let t := byteOf obu 0 / 8 % 16
  if t = 2 then []
  else
    let ps := pieces (pmax - 1) obu.length obu
    (upto 0 ps.length).map (fun i =>
      leBytes 1 (128 * ofFlag (i != 0) + 64 * ofFlag (i + 1 != ps.length) + 16 + 8 * ofFlag (i == 0 && key && t == 1)) ++
        (ps[i]?).getD [])

/-- The RTP payloads, timestamp and marker a packet of modes 1 and 2 asks for (R373, R374); `none` when it is skipped. -/
def txPayloads (w : WorkOrder) (h : List Byte) (data : List (List Byte)) : Option (List (List Byte) × Nat × Bool) :=
  let pmax := woField w 72 2
  if woField w 64 1 = 1 then
    match data.reverse with
    | last :: r =>
      let unit := r.reverse.flatten ++ last.take (min 28 (fieldAt last 28 2))
      some (if woField w 71 1 = 2 then av1Payloads pmax (bitOf (fieldAt h 1 1) 2) unit else hevcPayloads pmax unit,
            fieldAt h 8 8, bitOf (fieldAt h 1 1) 1)
    | [] => none
  else
    let len := fieldAt h 12 2
    if len ≤ pmax ∧ data.length = (len + 31) / 32 ∧ fieldAt h 8 1 < 2 ∧ zeroAt h 9 3 ∧ zeroAt h 14 18 then
      some ([data.flatten.take len], fieldAt h 0 8, fieldAt h 8 1 == 1)
    else none

/-- RTP frames of a list of payloads, numbered from seq. -/
def txRtp (w : WorkOrder) (tmpl : List Byte) (ts : Nat) (marker : Bool) : Nat → List (List Byte) → List Frame
  | _, [] => []
  | seq, b :: r =>
    let m := marker && r.isEmpty
    txFrame w (rtpPacket (tmpl.take 128) w m seq ts b) (rtpPacket (tmpl.drop 128) w m seq ts b) 0 ::
      txRtp w tmpl ts marker ((seq + 1) % 65536) r

/-- A skipped packet counts as missed on every destination (R372, R374). -/
def txSkip (d : Device) (w : WorkOrder) : Device :=
  modNetTx d (some w.ticket) (fun x => { x with missed := x.missed ||| txDests w 0, everMissed := true })

/-- A whole packet has been read from the source ring. -/
def txTake (d : Device) (w : WorkOrder) (x : NetTx) (es : List (List Byte)) : Device :=
  match es with
  | [] => txSkip d w
  | h :: data =>
    if woField w 64 1 = 0 then
      match rawFrame w h data with
      | some f => modNetTx d (some w.ticket) (fun x => { x with taken := satAdd 0xFFFFFFFF x.taken 1, pend := x.pend ++ [f] })
      | none => txSkip d w
    else
      match txPayloads w h data with
      | some (ps, t, m) =>
        modNetTx d (some w.ticket) (fun y => { y with
          taken := satAdd 0xFFFFFFFF y.taken 1, pend := y.pend ++ txRtp w x.tmpl (rtpTime t) m x.rtpSeq ps
          rtpSeq := (x.rtpSeq + ps.length) % 65536 })
      | none => txSkip d w

/-- Frames that wait enter the switch at port 6 unless it is paused (R354). -/
def txFlush (t : Nat) : Nat → Device → Device
  | 0, d => d
  | n + 1, d =>
    match tfind t d.eth.nettx with
    | some x =>
      match x.pend with
      | [] => d
      | f :: r =>
        if sourcePaused d 6 f.cls then d
        else txFlush t n (swEnter (modNetTx d (some t) (fun x => { x with pend := r })) f)
    | none => d

/-- Read deliverable entries of the source ring until a packet's EOP (R371). -/
def txPull (w : WorkOrder) : Nat → Device → Device
  | 0, d => d
  | n + 1, d =>
    match tfind w.ticket d.eth.nettx with
    | none => d
    | some x =>
      let r := ringAt d x.ring
      match r.front with
      | none => d
      | some e =>
        let d := setRing d x.ring (Ring.popped (if r.head = 0 then r.refilled else r))
        let es := if e.sop then [e.data] else if x.part = [] then [] else x.part ++ [e.data]
        if e.eop then txTake (modNetTx d (some w.ticket) (fun x => { x with part := [] })) w x es
        else txPull w n (modNetTx d (some w.ticket) (fun x => { x with part := es }))

/-- A NETTX takes a packet from its ring and sends it into the switch (R371–R375). -/
def nettxPacket (d : Device) (t : Nat) : Device :=
  match woAt d t, tfind t d.eth.nettx with
  | some w, some x =>
    if w.phase ≠ .running then d
    else if x.pend ≠ [] then txFlush t x.pend.length d
    else
      let r := ringAt d x.ring
      if !r.en || r.consumer != ctxOwner w.ctx || sourcePaused d 6 (woField w 65 1) then d
      else
        let d := txPull w (r.entries.length + 1) (ringCheck d x.ring)
        txFlush t (((tfind t d.eth.nettx).map (fun x => x.pend.length)).getD 0) d
  | _, _ => d

/-- A NETTX ends at its abort boundary (R358, R375, R85). -/
def nettxEnd (d : Device) (w : WorkOrder) (status : Nat) : Device :=
  match tfind w.ticket d.eth.nettx with
  | some x =>
    let st := if status = 0 ∧ x.everMissed then 2 else status
    finishWo { d with eth := { d.eth with nettx := tdel w.ticket d.eth.nettx } } w.ticket st 0 (nettxResult x x.taken 0)
  | none => finishWo d w.ticket status 0 (leBytes 16 0)

/-- A NETTX begins: HANDLEs none; the first RTP sequence number is not stated. -/
def nettxBegin (d : Device) (w : WorkOrder) (tmpl : List Byte) : Device :=
  let x : NetTx :=
    { ring := woField w 68 2, part := [], pend := [], delivered := 0, missed := 0, everMissed := false, taken := 0
      rtpSeq := free d 50 % 65536, tmpl := tmpl }
  { d with eth := { d.eth with nettx := tput w.ticket x d.eth.nettx } }

/-! Meanings. -/

/-- EGRESS_FRAME_START (R377). -/
def execEgressFrameStart (p : Nat) (s : State) : Host.Outcome State Fault Refusal := done s (egressStart s.dev p)

/-- RX_DELIVER (R367): the head frame of class c of port RX. -/
def execRxDeliver (c : Nat) (s : State) : Host.Outcome State Fault Refusal := done s (rxDeliver s.dev c)

/-- NETTX_PACKET (R372). -/
def execNettxPacket (t : Nat) (s : State) : Host.Outcome State Fault Refusal := done s (nettxPacket s.dev t)

/-- SHAPER_TICK (R378). -/
def execShaperTick (s : State) : Host.Outcome State Fault Refusal := done s (shaperTick s.dev)

/-- QUEUE_SAMPLE (R380). -/
def execQueueSample (s : State) : Host.Outcome State Fault Refusal := done s (queueSample s.dev)

/-- GATE_LIST_START (R382). -/
def execGateListStart (p : Nat) (s : State) : Host.Outcome State Fault Refusal := done s (gateStart s.dev p)

/-- GATE_ENTRY_ADVANCE (R381). -/
def execGateEntryAdvance (p : Nat) (s : State) : Host.Outcome State Fault Refusal := done s (gateAdvance s.dev p)

end Sys2Proof.Machine
end

