-- ==== Sys2Proof/Machine/Ingest.lean ====
section
/-! DEFINITION. Sensor ingest (R254–R270): ports and gangs, frames, lines, captured packets, frame end and trigger pins. -/

namespace Sys2Proof.Machine

/-! Ports (R254, R255). -/

/-- CSI_PORTn_CFG. -/
def csiCfg (d : Device) (n : Nat) : Nat := reg d (0xD00000 + 16 * n) 0

/-- Status of CSI port n. -/
def csiAt (d : Device) (n : Nat) : CsiPort := tget CsiPort.reset n d.ingest.ports

/-- Change the status of CSI port n. -/
def setCsi (d : Device) (n : Nat) (x : CsiPort) : Device :=
  { d with ingest := { d.ingest with ports := tset CsiPort.reset n x d.ingest.ports } }

/-- Port n is enabled. -/
def csiEn (d : Device) (n : Nat) : Bool := bitOf (csiCfg d n) 31

/-- An accepted INGEST uses port n. -/
def csiLocked (d : Device) (n : Nat) : Bool := d.ingest.runs.any (fun r => bitOf r.mask n)

/-- A combination of R254 in a write with EN = 1. -/
def csiCfgOk (v : Nat) : Bool :=
  let lanes := bitsOf v 26 24
  let rate := bitsOf v 15 0
  decide (bitsOf v 19 16 ≤ 7) &&
    (if bitOf v 30 then decide (1 ≤ lanes) && decide (lanes ≤ 3) && decide (rate ≤ 8000)
     else (lanes == 1 || lanes == 2 || lanes == 4) && decide (80 ≤ rate) && decide (rate ≤ 9000))

/-- A write of CSI_PORTn_CFG (R254). -/
def csiCfgWrite (d : Device) (n v : Nat) : Device :=
  if csiLocked d n then d
  else if bitOf v 31 then
    if csiCfgOk v then setReg d (0xD00000 + 16 * n) 0 (v &&& 0xC70FFFFF)
    else setCsi d n { csiAt d n with cfgErr := true }
  else setCsi (setReg d (0xD00000 + 16 * n) 0 (v &&& 0xC70FFFFF)) n { csiAt d n with lock := false }

/-- CSI_PORTn_STAT. -/
def csiStat (d : Device) (n : Nat) : Nat :=
  let x := csiAt d n
  ofFlag x.lock * 2 ^ 31 + ofFlag (csiLocked d n) * 2 ^ 30 + ofFlag x.cfgErr * 2 ^ 29 + x.ecc * 2 ^ 8 + x.crc

/-- A packet arrives on port n: a corrected header and a failed CRC are counted. -/
def csiCount (d : Device) (n : Nat) (ecc crcOk : Bool) : Device :=
  let x := csiAt d n
  setCsi d n { x with ecc := (x.ecc + ofFlag ecc) % 256, crc := (x.crc + ofFlag (!crcOk)) % 256 }

/-- PORT_MASK names exactly one gang of R255. -/
def gangOk (d : Device) (mask : Nat) : Bool :=
  match (upto 0 8).find? (bitOf mask) with
  | none => false
  | some g =>
    let ports := (upto 0 8).filter (fun n => csiEn d n && bitsOf (csiCfg d n) 19 16 == g)
    let shape := fun n => (bitOf (csiCfg d n) 30, bitsOf (csiCfg d n) 15 0)
    decide (mask < 256) && ports == (upto 0 8).filter (bitOf mask) && decide (ports.length ≤ 6) &&
      ports.all (fun n => shape n == shape g)

/-! The work order (R258) and its run. -/

/-- WIDTH of an INGEST. -/
def igWidth (w : WorkOrder) : Nat := woField w 68 2

/-- HEIGHT of an INGEST. -/
def igHeight (w : WorkOrder) : Nat := woField w 70 2

/-- PITCH: 2 × WIDTH rounded up to a multiple of 64 (R258). -/
def igPitch (w : WorkOrder) : Nat := (2 * igWidth w + 63) / 64 * 64

/-- CTRL bit i. -/
def igCtrl (w : WorkOrder) (i : Nat) : Bool := bitOf (woField w 67 1) i

/-- The run of a ticket. -/
def runAt (d : Device) (t : Nat) : Option IngestRun := d.ingest.runs.find? (fun r => r.ticket == t)

/-- Change the run of a ticket. -/
def modRun (d : Device) (t : Nat) (f : IngestRun → IngestRun) : Device :=
  { d with ingest := { d.ingest with runs := d.ingest.runs.map (fun r => if r.ticket = t then f r else r) } }

/-- Change the frame in progress. -/
def modFrame (d : Device) (t : Nat) (f : InFrame → InFrame) : Device :=
  modRun d t (fun r => { r with frame := r.frame.map f })

/-- The run that a packet of port n and virtual channel vc belongs to. -/
def runFor (d : Device) (n vc : Nat) : Option IngestRun :=
  if csiEn d n then d.ingest.runs.find? (fun r => bitOf r.mask n && r.vc == vc) else none

/-- Write the progress word (R125, R265). -/
def progressWrite (d : Device) (r : IngestRun) (number count : Nat) : Device :=
  progressPut d 33 ((woAt d r.ticket).elim 0 (·.func)) r.progPhys number count

/-! Lines (R256, R262). -/

/-- Bits per sample of a data type. -/
def dtBits (dt : Nat) : Nat := if dt = 0x2B then 10 else if dt = 0x2C then 12 else if dt = 0x2D then 14 else 16

/-- The samples of one packing group of CSI-2 RAW data: 5 bytes of RAW10, 3 of RAW12, 7 of RAW14, 2 of RAW16. -/
def rawGroup (dt : Nat) (l : List Byte) : List Nat :=
  let b := byteOf l
  if dt = 0x2B then (upto 0 4).map (fun i => b i * 4 + b 4 / 4 ^ i % 4)
  else if dt = 0x2C then [b 0 * 16 + b 2 % 16, b 1 * 16 + b 2 / 16]
  else if dt = 0x2D then
    let low := b 4 + 256 * b 5 + 65536 * b 6
    (upto 0 4).map (fun i => b i * 64 + low / 64 ^ i % 64)
  else [b 0 * 256 + b 1]

/-- Bytes of a packing group. -/
def rawGroupBytes (dt : Nat) : Nat := if dt = 0x2B then 5 else if dt = 0x2C then 3 else if dt = 0x2D then 7 else 2

/-- The samples of a line. -/
def rawSamples (dt : Nat) : Nat → List Byte → List Nat
  | 0, _ => []
  | n + 1, l => if l = [] then [] else rawGroup dt (l.take (rawGroupBytes dt)) ++ rawSamples dt n (l.drop (rawGroupBytes dt))

/-- A sample as stored (R256). -/
def rawStored (dt v : Nat) : Nat := if dt = 0x2B then v * 64 else if dt = 0x2D then v * 4 else v

/-- The bytes of a row of a picture line's payload. -/
def rowBytes (w : WorkOrder) (payload : List Byte) : List Byte :=
  let dt := woField w 66 1
  ((rawSamples dt payload.length payload).take (igWidth w)).flatMap (fun v => leBytes 2 (rawStored dt v))

/-- Leading rows 0 to k − 1 all received. -/
def leadRows (rows : List Nat) (h : Nat) : Nat := ((upto 0 h).find? (fun r => !rows.contains r)).getD h

/-- A picture line is written to its row (R262, R265). `excess` says that the sample limit of R257 loses it. -/
def lineTake (d : Device) (r : IngestRun) (w : WorkOrder) (f : InFrame) (line : Nat) (payload : List Byte)
    (crcOk excess : Bool) : Device :=
  if f.handle.isNone then d
  else if excess then { d with ingest := { d.ingest with overrun := (d.ingest.overrun + 1) % 65536 } }
  else if !crcOk || payload.length * 8 != igWidth w * dtBits (woField w 66 1) || line == 0 || decide (igHeight w < line) ||
      f.rows.contains (line - 1) then modFrame d r.ticket (fun f => { f with bad := f.bad + 1 })
  else match f.handle with
    | none => d
    | some h =>
      match bufWrite d 33 h ((line - 1) * igPitch w) (rowBytes w payload) with
      | (d, false) => d
      | (d, true) =>
        let rows := sadd (line - 1) f.rows
        let k := leadRows rows (igHeight w)
        let grow := decide (f.progress + 16 ≤ k)
        let d := modFrame d r.ticket (fun f => { f with
          rows := rows, rowCrc := tput (line - 1) (crc32c payload) f.rowCrc, progress := if grow then k else f.progress })
        if grow then progressWrite d r f.number k else d

/-! Frame end (R263–R268). -/

/-- The rows that fail a tag 0x02 check (R268). -/
def failedRows (f : InFrame) : List Nat :=
  f.rows.filter (fun r => f.checks.any (fun c => c.line == r + 1 && tget 0 r f.rowCrc != c.crc))

/-- Conceal row r from the rows received (R263). -/
def concealRow (w : WorkOrder) (h : Nat) (rx : List Nat) (d : Device) (r : Nat) : Device :=
  let at_ := fun r => bufBase d (handleIdx h) + r * igPitch w
  let src := if 2 ≤ r ∧ rx.contains (r - 2) then bytesAt d (at_ (r - 2)) (2 * igWidth w)
    else if rx.contains (r + 2) then bytesAt d (at_ (r + 2)) (2 * igWidth w)
    else leBytes (2 * igWidth w) 0
  (bufWrite d 33 h (r * igPitch w) src).1

/-- The timestamp of a frame (R264). -/
def frameStamp (f : InFrame) : Nat := f.stamp.getD f.firstFs

/-- Bytes 0 to 23 of the information block of a frame: what it is of (R266). -/
def infoHead (w : WorkOrder) (f : InFrame) : List Byte :=
  leBytes 4 0x49474E49 ++ leBytes 2 1 ++ leBytes 1 (if woField w 66 1 = 0x2C then 3 else 2) ++ leBytes 1 (woField w 86 1) ++
    leBytes 2 (igWidth w) ++ leBytes 2 (igHeight w) ++ leBytes 4 (igPitch w) ++ leBytes 8 (frameStamp f)

/-- The info block of R266. -/
def infoBlock (w : WorkOrder) (f : InFrame) (end_ rx conc first time : Nat) : List Byte :=
  infoHead w f ++ leBytes 4 f.number ++ leBytes 2 f.sensorFn ++ leBytes 1 f.joined ++ leBytes 1 end_ ++ leBytes 4 rx ++ leBytes 4 conc ++
    leBytes 4 first ++ leBytes 4 f.bad ++ leBytes 4 f.metaLen ++ leBytes 4 f.metaLost ++ leBytes 8 time ++ leBytes 192 0

/-- Arrival records of a ticket that wait for ring space. -/
def arrivalsHeld (d : Device) (t : Nat) : Nat := (d.recs.filter (fun r => r.ticket == t && !r.final)).length

/-- Count a dropped frame (R261). -/
def frameDrop (d : Device) (t : Nat) : Device :=
  let d := { d with ingest := { d.ingest with dropped := (d.ingest.dropped + 1) % 65536 } }
  modRun d t (fun r => { r with dropped := r.dropped + 1, frame := none })

/-- The frame in progress ends (R263–R268): concealment, info block, arrival record; or it is dropped. -/
def frameEnd (d : Device) (t end_ : Nat) : Device :=
  match runAt d t, woAt d t with
  | some r, some w =>
    match r.frame with
    | none => d
    | some f =>
      match f.handle with
      | none => modRun d t (fun r => { r with frame := none })
      | some h =>
        if 4 ≤ arrivalsHeld d t then frameDrop (releaseBuf d (handleIdx h) false) t
        else
          let fail := failedRows f
          let rx := f.rows.filter (fun x => !fail.contains x)
          let miss := (upto 0 (igHeight w)).filter (fun x => !rx.contains x)
          let f := { f with bad := f.bad + fail.length }
          let d := miss.foldl (concealRow w h rx) d
          let d := progressWrite d r f.number (igHeight w)
          let d := (bufWrite d 33 h (woField w 76 4)
            (infoBlock w f end_ rx.length miss.length ((miss.head?).getD 0xFFFFFFFF) d.time)).1
          let bad := ofFlag (decide (miss ≠ []))
          let d := modRun d t (fun r => { r with frame := none, frames := r.frames + ofFlag (!woNoInterim w) })
          interimWo d t bad bad (leBytes 8 (frameStamp f) ++ leBytes 4 f.number ++ leBytes 4 h)
  | _, _ => d

/-! Frame start (R260, R261). -/

/-- A frame starts at a Frame Start of port n whose data field is fn. -/
def frameBegin (d : Device) (r : IngestRun) (w : WorkOrder) (n fn : Nat) : Device :=
  let (d, h) := yardAlloc d (ctxOwner w.ctx) (woField w 72 4)
  let f : InFrame :=
    { number := r.nextNum, handle := h, startAt := d.up, firstFs := d.time, stamp := none, sensorFn := fn % 65536
      joined := 2 ^ n, ended := 0, rows := [], rowCrc := [], bad := 0, checks := [], metaLen := 0, metaLost := 0, progress := 0 }
  let d := modRun d r.ticket (fun r => { r with started := true, nextNum := (r.nextNum + 1) % 2 ^ 32, frame := some f })
  let d := modWo d r.ticket (fun w => { w with phase := .running })
  match h with
  | some _ => progressWrite d r f.number 0
  | none =>
    let d := { d with ingest := { d.ingest with dropped := (d.ingest.dropped + 1) % 65536 } }
    modRun d r.ticket (fun r => { r with dropped := r.dropped + 1 })

/-- A Frame Start packet (R260). -/
def frameStart (d : Device) (n vc fn : Nat) : Device :=
  match runFor d n vc with
  | none => d
  | some r =>
    match woAt d r.ticket with
    | none => d
    | some w =>
      match r.frame with
      | none => frameBegin d r w n fn
      | some f =>
        if bitOf f.joined n ∨ f.startAt + woField w 84 2 * 1000 < d.up then
          let d := frameEnd d r.ticket 2
          match runAt d r.ticket with | some r => frameBegin d r w n fn | none => d
        else modFrame d r.ticket (fun f => { f with joined := f.joined ||| 2 ^ n })

/-- A Frame End packet: the frame ends when every joined port has sent one. -/
def frameEndPacket (d : Device) (n vc : Nat) : Device :=
  match runFor d n vc with
  | none => d
  | some r =>
    match r.frame with
    | none => d
    | some f =>
      if !bitOf f.joined n then d
      else
        let e := f.ended ||| 2 ^ n
        let d := modFrame d r.ticket (fun f => { f with ended := e })
        if e = f.joined then frameEnd d r.ticket 0 else d

/-- The frame timeout of an INGEST (R260). -/
def frameTimeout (d : Device) (t : Nat) : Device :=
  match runAt d t, woAt d t with
  | some r, some w =>
    match r.frame with
    | some f => if f.startAt + woField w 88 4 * 1000 ≤ d.up then frameEnd d t 1 else d
    | none => d
  | _, _ => d

/-- A picture line packet: its header gives the frame's timestamp (R264), then its row (R262). -/
def csiLine (d : Device) (n vc dt line : Nat) (payload : List Byte) (crcOk excess ecc : Bool) : Device :=
  let run := runFor d n vc
  let d := if csiEn d n then csiCount d n ecc crcOk else d
  match run with
  | none => d
  | some r =>
    match woAt d r.ticket, r.frame with
    | some w, some f =>
      if dt = woField w 66 1 then
        let d := if f.stamp.isNone then modFrame d r.ticket (fun f => { f with stamp := some d.time }) else d
        lineTake d r w f line payload crcOk excess
      else d
    | _, _ => d

/-! Captured packets (R267, R268). -/

/-- The tag 0x02 checks of an embedded-data packet. -/
def metaChecks : Nat → List Byte → List LineCrc
  | 0, _ => []
  | n + 1, l =>
    if l = [] ∨ fieldAt l 0 1 = 0 then []
    else
      let rest := metaChecks n (l.drop 16)
      if fieldAt l 0 1 = 2 then { line := fieldAt l 2 2, crc := fieldAt l 4 4 } :: rest else rest

/-- An embedded or user-defined packet (R267). -/
def csiMeta (d : Device) (n vc dt : Nat) (payload : List Byte) (crcOk ecc : Bool) : Device :=
  let run := runFor d n vc
  let d := if csiEn d n then csiCount d n ecc crcOk else d
  match run with
  | none => d
  | some r =>
    match woAt d r.ticket, r.frame with
    | some w, some f =>
      let emb := dt = 0x12 ∧ igCtrl w 0
      let udt := 0x30 ≤ dt ∧ dt ≤ 0x37 ∧ igCtrl w 1
      if !(emb ∨ udt) then d
      else if !crcOk then modFrame d r.ticket (fun f => { f with metaLost := f.metaLost + 1 })
      else
        let d := if emb then modFrame d r.ticket (fun f => { f with checks := f.checks ++ metaChecks payload.length payload }) else d
        if woField w 80 4 < f.metaLen + 8 + payload.length then modFrame d r.ticket (fun f => { f with metaLost := f.metaLost + 1 })
        else match f.handle with
          | none => d
          | some h =>
            let item := leBytes 1 dt ++ leBytes 1 n ++ leBytes 2 f.rows.length ++ leBytes 4 payload.length ++ payload
            let d := (bufWrite d 33 h (woField w 76 4 + 256 + f.metaLen) item).1
            modFrame d r.ticket (fun f => { f with metaLen := f.metaLen + item.length })
    | _, _ => d

/-! Trigger pins (R269, R393) and the run's start and end. -/

/-- Drive SYNC_OUT pin p. -/
def syncOut (d : Device) (p : Nat) (level : Bool) : Device :=
  emit { d with pins := setBits d.pins p p (ofFlag level) } (.pin ("SYNC_OUT" ++ toString p) level)

/-- The sequence in force at the next pulse: a schedule taken over starts at its first instant (R393). -/
def Trig.current (t : Trig) : Trig :=
  match t.next with
  | some (st, b, p) => if st ≤ t.due then { t with base := b, period := p, due := st, next := none } else t
  | none => t

/-- An edge of pin p that is due: the end of a pulse, or the next one. -/
def trigPulse (d : Device) (p : Nat) : Device :=
  match tfind p d.ingest.trigs with
  | none => d
  | some t =>
    let put := fun (d : Device) (t : Trig) => { d with ingest := { d.ingest with trigs := tput p t d.ingest.trigs } }
    if t.low.any (fun l => decide (l ≤ d.up)) then syncOut (put d { t with low := none }) p false
    else
      let t := t.current
      if t.due ≤ d.time then
        syncOut (put d { t with low := some (d.up + t.width), due := t.due + max 1 t.period }) p true
      else d

/-- An INGEST is accepted: its run, and its trigger (R258, R269). -/
def ingestBegin (d : Device) (w : WorkOrder) (prog : Option Nat) : Device :=
  let mask := woField w 64 1
  let r : IngestRun :=
    { ticket := w.ticket, mask := mask, gang := ((upto 0 8).find? (bitOf mask)).getD 0, vc := woField w 65 1
      started := false, nextNum := 0, frames := 0, dropped := 0, frame := none, progPhys := prog }
  let d := { d with ingest := { d.ingest with
      runs := d.ingest.runs ++ [r], arrivals := tdel r.gang d.ingest.arrivals } }
  if igCtrl w 2 then
    let base := woField w 104 8
    let period := woField w 112 8
    let t : Trig :=
      { base := base, period := period, width := woField w 92 4, ticket := w.ticket
        due := firstInstant base period (d.time + 2000), low := none, next := none }
    { d with ingest := { d.ingest with trigs := tput (woField w 87 1) t d.ingest.trigs } }
  else d

/-- The pins of an INGEST stay deasserted once it ends. -/
def trigStop (d : Device) (t : Nat) : Device :=
  let mine := d.ingest.trigs.filter (fun e => e.2.ticket = t)
  let d := { d with ingest := { d.ingest with trigs := d.ingest.trigs.filter (fun e => e.2.ticket ≠ t) } }
  mine.foldl (fun d e => if bitOf d.pins e.1 then syncOut d e.1 false else d) d

/-- An INGEST ends (R270): the frame in progress gets its info block with END 3 and no record; its buffer stays. -/
def ingestEnd (d : Device) (w : WorkOrder) (status : Nat) : Device :=
  match runAt d w.ticket with
  | none => finishWo d w.ticket status 0 (leBytes 16 0)
  | some r =>
    let (d, h, n) := match r.frame with
      | some f =>
        match f.handle with
        | some h =>
          ((bufWrite d 33 h (woField w 76 4) (infoBlock w f 3 f.rows.length 0 0xFFFFFFFF d.time)).1, h, f.rows.length)
        | none => (d, 0, 0)
      | none => (d, 0, 0)
    let d := trigStop d w.ticket
    let d := { d with ingest := { d.ingest with
        runs := d.ingest.runs.filter (fun x => x.ticket ≠ w.ticket), arrivals := tdel r.gang d.ingest.arrivals } }
    finishWo d w.ticket status 0 (leBytes 4 r.frames ++ leBytes 4 r.dropped ++ leBytes 4 h ++ leBytes 4 n)

/-- An arrival record has been written to its ring: the QP's words change (R409). -/
def qpArrive (d : Device) (t : Nat) (data : List Byte) : Device :=
  match runAt d t with
  | some r =>
    let a : QpArrival := { frame := fieldAt data 24 4, stamp := fieldAt data 16 8 }
    { d with ingest := { d.ingest with arrivals := tput r.gang a d.ingest.arrivals } }
  | none => d

/-! Meanings. -/

/-- CSI_HS_SYNC (CSI_PORTn_STAT.LOCK). -/
def execCsiHsSync (n : Nat) (valid : Bool) (s : State) : Host.Outcome State Fault Refusal :=
  done s (if csiEn s.dev n then setCsi s.dev n { csiAt s.dev n with lock := valid } else s.dev)

/-- CSI_FRAME_START (R260). -/
def execCsiFrameStart (n vc fn : Nat) (ecc : Bool) (s : State) : Host.Outcome State Fault Refusal :=
  done s (frameStart (if csiEn s.dev n then csiCount s.dev n ecc true else s.dev) n vc fn)

/-- CSI_LINE (R262). -/
def execCsiLine (n vc dt line : Nat) (payload : List Byte) (crcOk excess ecc : Bool) (s : State) :
    Host.Outcome State Fault Refusal := done s (csiLine s.dev n vc dt line payload crcOk excess ecc)

/-- CSI_META_PACKET (R267). -/
def execCsiMetaPacket (n vc dt : Nat) (payload : List Byte) (crcOk ecc : Bool) (s : State) :
    Host.Outcome State Fault Refusal := done s (csiMeta s.dev n vc dt payload crcOk ecc)

/-- CSI_FRAME_END (R260, R263). -/
def execCsiFrameEnd (n vc : Nat) (ecc : Bool) (s : State) : Host.Outcome State Fault Refusal :=
  done s (frameEndPacket (if csiEn s.dev n then csiCount s.dev n ecc true else s.dev) n vc)

/-- FRAME_TIMEOUT (R260). -/
def execFrameTimeout (t : Nat) (s : State) : Host.Outcome State Fault Refusal := done s (frameTimeout s.dev t)

/-- TRIG_PULSE (R269). -/
def execTrigPulse (p : Nat) (s : State) : Host.Outcome State Fault Refusal := done s (trigPulse s.dev p)

end Sys2Proof.Machine
end

