-- ==== Sys2Proof/Machine/Magazine.lean ====
section
/-! DEFINITION. The magazine engine (R271–R286): links and controllers, OPEN, WRITE and CLOSE, seal records (R441–R443) and emergency
close. -/

namespace Sys2Proof.Machine

/-! Links and controllers (R271–R275). -/

/-- The rings of controller c are configured and enabled as R273 requires. -/
def nvmeRings (d : Device) (c : Nat) : Bool :=
  let ok := fun r log => r.en && r.producer == 0xC001 && r.consumer == 0xC001 && r.sizeLog2 == log
  ok (ringAt d (magRingBase d + 2 * c)) 11 && ok (ringAt d (magRingBase d + 2 * c + 1)) 9

/-- Number the controllers found: each takes the lowest number of its root port that is free. -/
def numberCtrls (used : Nat) : List NvmeFound → List (Nat × NvmeFound)
  | [] => []
  | f :: r =>
    match (upto 0 16).find? (fun i => !bitOf used i) with
    | some i => (i, f) :: numberCtrls (used + 2 ^ i) r
    | none => []

/-- The mask of a list of numbers. -/
def maskOf (l : List Nat) : Nat := l.foldl (fun m i => m ||| 2 ^ i) 0

/-- A link comes up and its controllers are enumerated and initialised (R271–R274). Link 0 is A, 1 is B; only a bifurcated root
port has a link B. -/
def magLinkUp (d : Device) (p link gen : Nat) (found : List NvmeFound) : Device :=
  let x := rpAt d p
  if 2 ≤ p ∨ (link ≠ 0 ∧ !bitOf (magCfg d) p) then d
  else
    let other := if link = 0 then x.onB else x.onA
    let l := numberCtrls other found
    let on := maskOf (l.map (·.1))
    let ready := maskOf ((l.filter (fun e => e.2.twoPairs && nvmeRings d (16 * p + e.1))).map (·.1))
    let ns := l.flatMap (fun e => e.2.spaces.map (fun s => (e.1 * 2 ^ 32 + s.1, s.2)))
    let keep := x.nsBlocks.filter (fun e => bitOf other (e.1 / 2 ^ 32))
    let limits := x.mdts.filter (fun e => bitOf other e.1)
    setRp (l.foldl (fun d e => setNvmeQueue d (16 * p + e.1) NvmeQueue.reset) d) p { x with
      upA := x.upA || link == 0, upB := x.upB || link != 0
      genA := if link = 0 then gen else x.genA, genB := if link = 0 then x.genB else gen
      onA := if link = 0 then on else x.onA, onB := if link = 0 then x.onB else on
      ready := (x.ready &&& other) ||| ready, nsBlocks := ns.foldl (fun t e => tset 0 e.1 e.2 t) keep
      mdts := l.foldl (fun t e => tset 0 e.1 e.2.mdts t) limits }

/-- A link goes down, or one of its controllers stops answering (R275). -/
def magLinkDown (d : Device) (p link : Nat) (ctrl : Option Nat) : Device :=
  if 2 ≤ p then d
  else match ctrl with
    | some c => controllerLost d (16 * p + c % 16)
    | none =>
      let x := rpAt d p
      let on := if link = 0 then x.onA else x.onB
      let d := setRp d p { x with
        upA := x.upA && link != 0, upB := x.upB && link == 0
        genA := if link = 0 then 0 else x.genA, genB := if link = 0 then x.genB else 0
        onA := if link = 0 then 0 else x.onA, onB := if link = 0 then x.onB else 0 }
      ((upto 0 16).filter (bitOf on)).foldl (fun d c => controllerLost d (16 * p + c)) d

/-- Numbers set in a 16-bit mask. -/
def bitCount (m : Nat) : Nat := ((upto 0 64).filter (bitOf m)).length

/-- MAG_RPn_STAT. -/
def magRpStat (d : Device) (p : Nat) : Nat :=
  let x := rpAt d p
  ofFlag x.upA * 2 ^ 31 + ofFlag x.upB * 2 ^ 30 + x.genA % 8 * 2 ^ 27 + x.genB % 8 * 2 ^ 24 +
    bitCount (x.onA ||| x.onB) * 2 ^ 16 + x.ready % 65536

/-- A write of MAG_CFG (R273): RING_BASE, a multiple of 64, stays while a ring bound with 0xC001 is enabled. -/
def magCfgWrite (d : Device) (v : Nat) : Device :=
  let busy := d.rings.any (fun e => e.2.en && e.2.producer == 0xC001)
  let base := if busy then magRingBase d else bitsOf v 28 16 / 64 * 64
  setReg d 0xF00000 0 (base * 2 ^ 16 + v % 4)

/-- MAG_EMERG as read. -/
def magEmerg (d : Device) : Nat :=
  ofFlag (decide (d.mag.emerg ≠ [])) * 2 ^ 31 + ofFlag d.mag.done * 2 ^ 30 + d.mag.reason * 2 ^ 16 + d.mag.trailers

/-! MAGW (R276–R283). -/

/-- CLIP of a MAGW. -/
def mwClip (w : WorkOrder) : Nat := woField w 65 1

/-- OP of a MAGW. -/
def mwOp (w : WorkOrder) : Nat := woField w 64 1

/-- The clip is being closed by emergency close. -/
def inEmergency (d : Device) (k : Nat) : Bool := d.mag.emerg.any (fun r => r.clips.contains k)

/-- A queued MAGW that may start: no MAGW of its clip accepted earlier still waits, and no emergency close runs on the clip (R279, R286). -/
def magwReady (d : Device) (w : WorkOrder) : Bool :=
  w.kind == .magw && w.phase == .queued && !inEmergency d (mwClip w) &&
    d.wos.all (fun v => !(v.kind == .magw && v.phase == .queued && mwClip v == mwClip w && decide (v.seq < w.seq)))

/-- A queued MAGW of an operation that starts now: of those that may start it goes first in the order of R75. -/
def magwNext (d : Device) (t op : Nat) : Option WorkOrder :=
  match woAt d t with
  | some w => if magwReady d w ∧ mwOp w = op ∧ woFirst d (magwReady d) w then some w else none
  | none => none

/-- A MAGW ends without having taken a sequence number. -/
def mwFail (d : Device) (w : WorkOrder) (status : Nat) : Device := finishWo d w.ticket status 0 (magResult 0 0 0 0)

/-- A member entry (R277); `none` when its fields are out of range. -/
def memberOfEntry (e : List Byte) : Option Member :=
  if fieldAt e 0 1 < 2 ∧ fieldAt e 1 1 < 16 ∧ zeroAt e 2 2 then
    some { port := fieldAt e 0 1, ctrl := fieldAt e 1 1, nsid := fieldAt e 4 4, base := fieldAt e 8 6
           len := fieldAt e 14 2 * 65536 }
  else none

/-- The member table of an OPEN. -/
def membersOf (t : List Byte) : Nat → List (Option Member)
  | 0 => []
  | n + 1 => memberOfEntry (t.take 16) :: membersOf (t.drop 16) n

/-- Size of a member's namespace in blocks; 0 when OPEN refuses it. -/
def nsBlocksOf (d : Device) (m : Member) : Nat := tget 0 (m.ctrl * 2 ^ 32 + m.nsid) (rpAt d m.port).nsBlocks

/-- The members of an OPEN are usable (R272, R277). -/
def membersOk (d : Device) (ms : List Member) : Bool :=
  noRepeat (ms.map (fun m => ctrlOf m * 2 ^ 32 + m.nsid)) &&
    ms.all (fun m => ctrlReady d (ctrlOf m) && decide (0 < m.len) && decide (m.base + m.len ≤ nsBlocksOf d m))

/-- A clip-key slot. -/
def slotAt (d : Device) (k : Nat) : Option ClipSlot := tfind k d.ks.slots

/-- KS_SEAL_INTERVAL in ns, limited to 10–60,000 ms. -/
def sealInterval (d : Device) : Nat := max 10 (min 60000 (reg d 0x100060 1000)) * 1000000

/-- MAGW OPEN (R277, R438, R440). -/
def magwOpen (fz : Fuses) (d : Device) (t : Nat) : Device :=
  match magwNext d t 1 with
  | none => d
  | some w =>
    let k := mwClip w
    let ms := membersOf (tget [] 104 w.extra) (woField w 68 1)
    let l := ms.filterMap id
    if (clipAt d k).isSome ∨ l.length ≠ ms.length ∨ !membersOk d l then mwFail d w 0x31
    else match slotAt d (woField w 88 4) with
      | none => mwFail d w 0x71
      | some s =>
        if s.func ≠ w.func then mwFail (plumbEvent d 442 t) w 0x42
        else if s.imported ∨ s.opened ∨ s.clipId ≠ (w.raw.drop 72).take 16 ∨ !keyDsk fz d then mwFail d w 0x71
        else
          let u := 2 ^ woField w 69 1
          let len := l.foldl (fun n m => min n m.len) (65535 * 65536)
          let c : Clip :=
            { func := w.func, ctx := w.ctx, members := l, unit := u, cap := l.length * u * (len / u), clipId := s.clipId
              keySlot := woField w 88 4, keyId := s.keyId, key := s.key, openTime := d.time
              link := seedLink s.clipId s.keyId d.ks.devFpr d.time, linked := 0, nextSeq := 0, nextCba := 0, recs := []
              lastSeal := none, interval := sealInterval d, nextSeal := d.time + sealInterval d, sealFailed := false
              overflowNext := l.length * u * (len / u) - 239, closing := none, finalDone := false, flushing := false
              voids := 0, completes := 0 }
          let d := { d with ks := { d.ks with slots := tput (woField w 88 4) { s with opened := true } d.ks.slots } }
          finishWo (setClip d k c) t 0 0 (magResult 0 0 0 0)

/-- SRC entries of a WRITE: handle, offset, length, until a length of 0. -/
def mwSrc (w : WorkOrder) : List (Nat × Nat × Nat) :=
  ((upto 0 4).map (fun i => (woField w (112 + 16 * i) 4, woField w (116 + 16 * i) 4, woField w (120 + 16 * i) 4))).takeWhile
    (fun e => e.2.2 ≠ 0)

/-- Requester of the engine for a clip: by the root port of its first member. -/
def mwReq (c : Clip) : Nat := 34 + ((c.members[0]?).map (·.port)).getD 0

/-- The extents of an extent list of R117; `none` when its fields are out of range. -/
def extentsOf (l : List Byte) : Option (List (Nat × Nat × Nat)) :=
  let n := fieldAt l 0 2
  if 2 ≤ n ∧ n ≤ 258 then
    let es := (upto 0 n).map (fun k => (fieldAt l (16 + 16 * k) 4, fieldAt l (20 + 16 * k) 4, fieldAt l (24 + 16 * k) 4))
    if fieldAt l 4 4 = es.foldl (fun s e => s + e.2.2) 0 then some es else none
  else none

/-- The payload's pieces: the SRC entries, or the extents that SRC[0] names; otherwise the status that ends the WRITE. -/
def mwPieces (d : Device) (w : WorkOrder) (c : Clip) : Device × (Nat ⊕ List (Nat × Nat × Nat)) :=
  if woField w 67 1 = 0 then (d, .inr (mwSrc w))
  else
    match bufRead d (mwReq c) (woField w 112 4) (woField w 116 4) (16 + 16 * 258) with
    | (d, some l) =>
      match extentsOf l with
      | some es => let st := handlesStatus d (ctxOwner w.ctx) (es.map (·.1)); if st = 0 then (d, .inr es) else (plumbEvent d 442 w.ticket, .inl st)
      | none => (d, .inl 0x31)
    | (d, none) =>
      match bufRead d (mwReq c) (woField w 112 4) (woField w 116 4) 16 with
      | (d, none) => (d, .inl 0x20)
      | (d, some h) =>
        match bufRead d (mwReq c) (woField w 112 4) (woField w 116 4) (16 + 16 * fieldAt h 0 2) with
        | (d, none) => (d, .inl 0x20)
        | (d, some l) =>
          match extentsOf l with
          | some es => let st := handlesStatus d (ctxOwner w.ctx) (es.map (·.1)); if st = 0 then (d, .inr es) else (plumbEvent d 442 w.ticket, .inl st)
          | none => (d, .inl 0x31)

/-- Read the payload of a record; `none` on an error response. -/
def readPieces (req : Nat) : List (Nat × Nat × Nat) → Device → Device × Option (List Byte)
  | [], d => (d, some [])
  | (h, o, n) :: r, d =>
    match bufRead d req h o n with
    | (d, none) => (d, none)
    | (d, some b) =>
      match readPieces req r d with
      | (d, some x) => (d, some (b ++ x))
      | (d, none) => (d, none)

/-- Blocks of a record with a payload of n bytes (R279). -/
def recBlocks (n : Nat) : Nat := (320 + n + 4095) / 4096

/-- MAGW WRITE (R279, R280, R443). -/
def magwWrite (d : Device) (t : Nat) : Device :=
  match magwNext d t 2 with
  | none => d
  | some w =>
    let k := mwClip w
    match clipAt d k with
    | none => mwFail d w 0x31
    | some c =>
      if c.func ≠ w.func then mwFail (plumbEvent d 442 t) w 0x42
      else if c.closing.isSome then mwFail d w 0x31
      else if c.sealFailed then mwFail d w 0x70
      else if !membersReady d c then mwFail d w 0x80
      else
        match mwPieces d w c with
        | (d, .inl st) => mwFail d w st
        | (d, .inr ps) =>
          let len := ps.foldl (fun s e => s + e.2.2) 0
          let n := recBlocks len
          if c.cap - 256 < c.nextCba + n then mwFail d w 0x20
          else
            let hdr := recHeader c (woField w 66 1) c.nextSeq c.nextCba n (woField w 92 4) (woField w 96 8) len
            let r : ClipRec :=
              { seq := c.nextSeq, cba := c.nextCba, blocks := n, kind := woField w 66 1, ticket := some t, header := hdr
                final := recFinal n (recBody c c.nextSeq n hdr []), sent := none, tag := 0, st := .flight, status := 0, nvme := 0 }
            let d := modWo d t (fun w => { w with phase := .running })
            match readPieces (mwReq c) ps d with
            | (d, none) =>
              let c := { c with nextSeq := c.nextSeq + 1, nextCba := c.nextCba + n, recs := c.recs ++ [{ r with st := .void, status := 0x20 }] }
              magDrain (setClip d k c) k
            | (d, some data) =>
              let r := { r with tag := recTag c c.nextSeq hdr data }
              let c' := { c with nextSeq := c.nextSeq + 1, nextCba := c.nextCba + n, recs := c.recs ++ [r] }
              issueRecord d k c' r (recBody c c.nextSeq n hdr data)

/-- MAGW CLOSE (R283): the clip takes no further WRITE, and the close goes on as its records end. -/
def magwClose (d : Device) (t : Nat) : Device :=
  match magwNext d t 3 with
  | none => d
  | some w =>
    let k := mwClip w
    match clipAt d k with
    | none => mwFail d w 0x31
    | some c =>
      if c.func ≠ w.func then mwFail (plumbEvent d 442 t) w 0x42
      else if c.closing.isSome then mwFail d w 0x31
      else
        magDrain (setClip (modWo d t (fun w => { w with phase := .running })) k { c with closing := some t }) k

/-- A status the spec does not name: of a WRITE whose NVMe command fails, or of a MAGW that an emergency close cuts short. It is
one of the error codes of R86. -/
def freeError (d : Device) (k : Nat) : Nat :=
  ([0x10, 0x20, 0x70, 0x80, 0xFF][free d k % 5]?).getD 0x20

/-- A record's NVMe writes have ended with a status, 0 for success (R279, R281, R282). -/
def recordComplete (d : Device) (k seq nvme : Nat) : Device :=
  match clipAt d k with
  | none => d
  | some c =>
    if c.recs.any (fun r => r.seq == seq && r.st == .flight) then
      let d := nvmeEnds d (k, some seq) nvme
      let d := modClip d k (fun c => { c with recs := c.recs.map (fun r =>
        if r.seq = seq ∧ r.st = .flight then
          (if nvme = 0 then { r with st := .written }
           else { r with st := .void, tag := 0, status := freeError d 70, nvme := nvme % 65536 })
        else r) })
      magDrain d k
    else d

/-! Seal records (R441–R443). -/

/-- The DSK, as a key number. -/
def dskKey : Nat := Config.fused 3

/-- The payload of a seal record (R442) for reserved record r of clip c. -/
def sealPayload (fz : Fuses) (d : Device) (c : Clip) (r : ClipRec) : List Byte :=
  let first := match c.lastSeal with | some s => s + 1 | none => 0
  let body := leBytes 2 1 ++ leBytes 2 (ofFlag c.finalDone) ++ leBytes 1 ((lcState fz).getD 7) ++ leBytes 3 0 ++ c.clipId ++
    leBytes 8 first ++ leBytes 8 (r.seq - 1) ++ leBytes 48 c.link ++ leBytes 8 d.time ++ leBytes 48 d.ks.fwMeas ++
    d.ks.devFpr ++ leBytes 4 c.keyId ++ leBytes 4 c.completes ++ leBytes 4 c.voids ++ leBytes 4 0
  body ++ padTo 3405 (Config.signBytes dskKey (leBytes 48 (Config.sha384 (asciiBytes "QD4960 SEAL" ++ body)))) ++ leBytes 3 0

/-- The reserved seal record of clip k whose turn it is: every earlier record has ended and its link is known. -/
def sealReady (d : Device) (k : Nat) : Option ClipRec :=
  match clipAt d k with
  | some c => if inEmergency d k then none else c.recs.find? (fun r => r.kind == 4 && r.st == .reserved && r.seq == c.linked)
  | none => none

/-- Keystone signs a reserved seal record, or it is written void (R441–R443). `good` says that the signature passes its
self-check. FRAME and TIME of its header are not stated. -/
def sealSign (fz : Fuses) (d : Device) (k : Nat) (good : Bool) : Device :=
  match clipAt d k, sealReady d k with
  | some c, some r =>
    let len := 3616
    let hdr := recHeader c 4 r.seq r.cba 1 (free d 60) (free d 61) len
    if keyDsk fz d && good then
      let data := sealPayload fz d c r
      issueRecord d k c { r with header := hdr, tag := recTag c r.seq hdr data, st := .flight } (recBody c r.seq 1 hdr data)
    else
      let c' := { c with recs := c.recs.map (fun x => if x.seq = r.seq then { x with header := hdr, final := hdr, st := .void } else x) }
      magDrain (sealFails (setClip d k c') k) k
  | _, _ => d

/-! The end of a clip. -/

/-- Erase a clip-key slot (R437). -/
def eraseSlot (d : Device) (s : Nat) : Device := { d with ks := { d.ks with slots := tdel s d.ks.slots } }

/-- A clip's slot is free: a DESTROY that waits for it erases its key (R437). -/
def freeClip (d : Device) (k : Nat) : Device :=
  match clipAt d k with
  | none => d
  | some c =>
    let d := { d with mag := { d.mag with clips := tdel k d.mag.clips } }
    match slotAt d c.keySlot with
    | some s => if s.destroy then eraseSlot d c.keySlot else d
    | none => d

/-- The trailer and every flush of a CLOSE have completed (R283, R443). -/
def closeDone (d : Device) (k nvme : Nat) : Device :=
  match clipAt d k with
  | none => d
  | some c =>
    match c.closing with
    | none => d
    | some t =>
      if !c.flushing || inEmergency d k then d
      else
        let d := nvmeEnds d (k, none) nvme
        let st := if nvme ≠ 0 then freeError d 71 else if c.sealFailed then 0x70 else 0
        let seq := if c.finalDone then c.nextSeq - 1 else c.nextSeq
        freeClip (finishWo d t st 0 (magResult (c.cap - 256) (nvme % 65536) seq (trailerBlocks c))) k

/-! Emergency close (R285, R286). -/

/-- Emergency close ends clip k: its trailer and flushes on the emergency queue pair (R274) unless a member cannot be reached, its MAGWs,
its slot. -/
def emergClip (reason : Nat) (lost : List Nat) (d : Device) (k : Nat) : Device :=
  match clipAt d k with
  | none => d
  | some c =>
    let reach := membersReady d c && !lost.contains k
    let d := if reach then
        let d := (nvmeWrites d c (k, none) (c.cap - 256) (clipTrailer d c reason) true ++ nvmeFlushes c (k, none)).foldl nvmeSend d
        { d with mag := { d.mag with trailers := d.mag.trailers ||| 2 ^ k } }
      else d
    let st := freeError d 72
    let d := c.recs.foldl (fun d r =>
      match r.ticket with
      | some t => if (woAt d t).isSome then finishWo d t (if r.st = .written then 0 else st) 0 (magResult r.cba r.nvme r.seq r.blocks) else d
      | none => d) d
    let d := match c.closing with
      | some t => finishWo d t st 0 (magResult (c.cap - 256) 0 c.nextSeq 0)
      | none => d
    freeClip d k

/-- The oldest emergency close ends (R286). `lost` names the clips with a member that cannot be reached. -/
def emergencyDone (d : Device) (lost : List Nat) : Device :=
  match d.mag.emerg with
  | [] => d
  | r :: rest =>
    let d := { d with mag := { d.mag with trailers := 0 } }
    let d := r.clips.foldl (emergClip r.reason lost) (nvmeWithdraw d (fun o => r.clips.contains o.1))
    { d with mag := { d.mag with emerg := rest, done := true, reason := r.reason } }

/-- A write of MAG_EMERG (R285): DONE is W1C; SW_TRIG is the PF's. -/
def magEmergWrite (d : Device) (v : Nat) : Device :=
  let d := if bitOf v 30 then { d with mag := { d.mag with done := false } } else d
  if bitOf v 28 then startEmergency d 7 (fun _ => true) else d

/-! Aborts (R84). -/

/-- A running MAGW is aborted: its commands already issued complete and none is added; its record is void (R282). A CLOSE in
progress leaves its clip open. -/
def magwAbort (d : Device) (w : WorkOrder) (status : Nat) : Device :=
  let k := mwClip w
  match clipAt d k with
  | none => finishWo d w.ticket status 0 (magResult 0 0 0 0)
  | some c =>
    if c.closing = some w.ticket then
      finishWo (setClip d k { c with closing := none, flushing := false, finalDone := false }) w.ticket status 0
        (magResult (c.cap - 256) 0 c.nextSeq 0)
    else match c.recs.find? (fun r => r.ticket == some w.ticket) with
      | some r => magDrain (voidRec (nvmeWithdraw d (· == (k, some r.seq))) k r.seq status) k
      | none => finishWo d w.ticket status 0 (magResult 0 0 0 0)

/-! Meanings. -/

/-- MAG_LINK_UP (R271). -/
def execMagLinkUp (p link gen : Nat) (found : List NvmeFound) (s : State) : Host.Outcome State Fault Refusal :=
  done s (magLinkUp s.dev p link gen found)

/-- MAG_LINK_DOWN (R275): the link, or one controller that stops answering. -/
def execMagLinkDown (p link : Nat) (ctrl : Option Nat) (s : State) : Host.Outcome State Fault Refusal :=
  done s (magLinkDown s.dev p link ctrl)

/-- MAGW_OPEN (R277). -/
def execMagwOpen (t : Nat) (s : State) : Host.Outcome State Fault Refusal := done s (magwOpen s.fuses s.dev t)

/-- MAGW_WRITE (R279). -/
def execMagwWrite (t : Nat) (s : State) : Host.Outcome State Fault Refusal := done s (magwWrite s.dev t)

/-- MAGW_CLOSE (R283). -/
def execMagwClose (t : Nat) (s : State) : Host.Outcome State Fault Refusal := done s (magwClose s.dev t)

/-- MAG_RECORD_COMPLETE (R281). -/
def execMagRecordComplete (clip seq nvme : Nat) (s : State) : Host.Outcome State Fault Refusal :=
  done s (recordComplete s.dev clip seq nvme)

/-- SEAL_RECORD_SIGN (R441). -/
def execSealRecordSign (clip : Nat) (good : Bool) (s : State) : Host.Outcome State Fault Refusal :=
  done s (sealSign s.fuses s.dev clip good)

/-- MAGW_CLOSE_FLUSH_DONE (R283). -/
def execMagwCloseFlushDone (clip nvme : Nat) (s : State) : Host.Outcome State Fault Refusal :=
  done s (closeDone s.dev clip nvme)

/-- MAG_EMERG_N_FALL (R285). -/
def execMagEmergNFall (s : State) : Host.Outcome State Fault Refusal := done s (startEmergency s.dev 1 (fun _ => true))

/-- EMERGENCY_CLOSE_DONE (R286). -/
def execEmergencyCloseDone (lost : List Nat) (s : State) : Host.Outcome State Fault Refusal :=
  done s (emergencyDone s.dev lost)

end Sys2Proof.Machine
end

