-- ==== Sys2Proof/Machine/Keystone.lean ====
section
/-! DEFINITION. Keystone's work orders (R436–R449), anti-rollback commits (R433) and tamper events (R450, R451). -/

namespace Sys2Proof.Machine

/-- OP of a KEYOP or SEAL. -/
def ksOp (w : WorkOrder) : Nat := woField w 64 1

/-- A work order of Keystone. -/
def isKs (w : WorkOrder) : Bool := w.kind == .keyop || w.kind == .seal

/-- Keystone takes ticket t now, for an operation of a type (R439): no seal record is ready, and it comes first in its queue. -/
def ksNext (d : Device) (t : Nat) (kind : WoKind) (op : Nat) : Option WorkOrder :=
  match woAt d t with
  | some w =>
    if w.kind = kind ∧ ksOp w = op ∧ w.phase = .queued ∧ woFirst d isKs w ∧ d.mag.clips.all (fun e => (sealReady d e.1).isNone) then
      some w
    else none
  | none => none

/-- RESULT of a KEYOP (R436). -/
def keyResult (slot keyId written : Nat) : List Byte := leBytes 4 slot ++ leBytes 4 keyId ++ leBytes 4 written ++ leBytes 4 0

/-- A KEYOP fails: nothing is written. -/
def keyFail (d : Device) (w : WorkOrder) (status : Nat) : Device := finishWo d w.ticket status 0 (keyResult 0 0 0)

/-- A slot of another function is named (R438). -/
def keyOther (d : Device) (w : WorkOrder) : Device := keyFail (plumbEvent d 442 w.ticket) w 0x42

/-- The lowest free clip-key slot. -/
def freeKeySlot (d : Device) : Option Nat := (upto 0 64).find? (fun k => (slotAt d k).isNone)

/-- KEY_SLOT of a work order. -/
def keySlotOf (w : WorkOrder) : Nat := woField w 68 4

/-- A signature block by a key over a message (R59). -/
def sigBlock (key : Nat) (msg : List Byte) : List Byte := padTo 3456 (Config.signBytes key msg)

/-- n bytes that the spec leaves open. -/
def freeBytes (d : Device) (k n : Nat) : List Byte := leBytes n (free d k)

/-! KEYOP (R437). -/

/-- CLIP_NEW. -/
def clipNew (fz : Fuses) (d : Device) (t : Nat) : Device :=
  match ksNext d t .keyop 1 with
  | none => d
  | some w =>
    if !keyClip fz d then keyFail d w 0x71
    else match freeKeySlot d with
      | none => keyFail d w 0x71
      | some k =>
        let s : ClipSlot :=
          { key := free d 80, keyId := free d 81 % 0xFFFFFFFF + 1, clipId := (w.raw.drop 72).take 16, func := w.func
            imported := false, opened := false, destroy := false }
        finishWo { d with ks := { d.ks with slots := tput k s d.ks.slots } } t 0 0 (keyResult k s.keyId 0)

/-- The wrapped-key record of R446; ephemeral values, ciphertext and IV are drawn. -/
def wrapRecord (d : Device) (s : ClipSlot) (r : Recip) : List Byte :=
  let iv := freeBytes d 84 12
  let head := leBytes 4 0x594B5257 ++ leBytes 2 1 ++ leBytes 2 0 ++ r.id ++ s.clipId ++ leBytes 4 s.keyId ++ leBytes 4 0 ++
    d.ks.devFpr ++ freeBytes d 82 97 ++ leBytes 7 0 ++ freeBytes d 83 1568 ++ iv
  let kek := free d 85
  let ct := padTo 32 (Config.aes256 kek (leNat iv) (leBytes 32 s.key))
  let body := head ++ ct ++ leBytes 16 (Config.gcmTag kek (leNat iv) head ct) ++ leBytes 4 0
  body ++ sigBlock dskKey body

/-- WRAP. -/
def keyWrap (fz : Fuses) (d : Device) (t : Nat) : Device :=
  match ksNext d t .keyop 2 with
  | none => d
  | some w =>
    match slotAt d (keySlotOf w), tfind (woField w 65 1) d.ks.recips with
    | none, _ => keyFail d w 0x71
    | some s, r =>
      if s.func ≠ w.func then keyOther d w
      else if s.imported ∨ !keyDsk fz d then keyFail d w 0x71
      else match r with
        | none => keyFail d w 0x71
        | some r =>
          if r.notAfter ≤ d.time then keyFail d w 0x71
          else
            let rec_ := wrapRecord d s r
            match bufWrite d 32 (woField w 96 4) (woField w 100 4) rec_ with
            | (d, true) => finishWo d t 0 0 (keyResult (keySlotOf w) s.keyId 5288)
            | (d, false) => keyFail d w 0x20

/-- A recipient record has the form of R445. -/
def recipOk (b : List Byte) : Bool :=
  fieldAt b 0 4 == 0x50434552 && fieldAt b 4 2 == 1 && zeroAt b 7 1 && zeroAt b 129 7

/-- ENROL; `good` says what a check of the record's signature block with its signer's key finds. -/
def keyEnrol (fz : Fuses) (d : Device) (t : Nat) (good : SigOk) : Device :=
  match ksNext d t .keyop 3 with
  | none => d
  | some w =>
    if !keyClip fz d then keyFail d w 0x71
    else match bufRead d 32 (woField w 88 4) (woField w 92 4) 5160 with
      | (d, none) => keyFail d w 0x20
      | (d, some b) =>
        let signer := fieldAt b 6 1
        if !recipOk b then keyFail d w 0x31
        else if !(signer == 1 || signer == 2) then keyFail d w 0x70
        else if !keySigner fz signer then keyFail d w 0x71
        else
        let (d, verified) := hybridOk d (signerKey fz signer) (b.take 1704) (b.drop 1704) good
        if !verified ∨ fieldAt b 24 8 ≤ d.time then keyFail d w 0x70
        else
          let r : Recip :=
            { id := (b.drop 8).take 16, notAfter := fieldAt b 24 8, ec := (b.drop 32).take 97, kem := (b.drop 136).take 1568 }
          finishWo { d with ks := { d.ks with recips := tput (woField w 65 1) r d.ks.recips } } t 0 0 (keyResult 0 0 0)

/-- DESTROY. -/
def keyDestroy (d : Device) (t : Nat) : Device :=
  match ksNext d t .keyop 4 with
  | none => d
  | some w =>
    let k := keySlotOf w
    match slotAt d k with
    | none => keyFail d w 0x71
    | some s =>
      if s.func ≠ w.func then keyOther d w
      else
        let d := if d.mag.clips.any (fun e => e.2.keySlot = k) then
            { d with ks := { d.ks with slots := tput k { s with destroy := true } d.ks.slots } }
          else eraseSlot d k
        finishWo d t 0 0 (keyResult k s.keyId 0)

/-- A wrapped-key record has the form of R446 for an import (R447). -/
def importOk (b : List Byte) : Bool :=
  fieldAt b 0 4 == 0x594B5257 && fieldAt b 4 2 == 1 && zeroAt b 6 2 && zeroAt b 8 16 && zeroAt b 44 4 && zeroAt b 193 7 &&
    zeroAt b 1828 4 && fieldAt b 5288 4 == 0x52444B51

/-- The device exchange key (R429). -/
def dxkKey : Nat := Config.fused 4

/-- The DSK that a device key record names, as a number no signer's key has (R430). -/
def recordKey (r : List Byte) : Nat := 2 ^ 386 + leNat ((r.drop 24).take 97 ++ (r.drop 128).take 1952)

/-- The checks of an IMPORT (R447): the device key record after the wrapped-key record is Queleivo's, the wrapped-key record is signed by
the DSK it names, and KEK and tag check. -/
def importVerified (fz : Fuses) (d : Device) (b : List Byte) (good : ImportOk) : Device × Bool :=
  let r := b.drop 5288
  let (d, queleivo) := hybridOk d (signerKey fz 1) (r.take 3752) (r.drop 3752) good.record
  let (d, signed) := hybridOk d (recordKey r) (b.take 1832) ((b.drop 1832).take 3456) good.wrapped
  let (d, kek) := sigCheck d 2 dxkKey (b.take 1832) [] good.kek
  (d, queleivo && signed && kek)

/-- IMPORT; `good` says what its checks find. The key is what the record wraps. -/
def keyImport (fz : Fuses) (d : Device) (t : Nat) (good : ImportOk) : Device :=
  match ksNext d t .keyop 5 with
  | none => d
  | some w =>
    if !keyDsk fz d then keyFail d w 0x71
    else match bufRead d 32 (woField w 88 4) (woField w 92 4) (5288 + 7208) with
      | (d, none) => keyFail d w 0x20
      | (d, some b) =>
        if !importOk b then keyFail d w 0x31
        else
        let (d, verified) := importVerified fz d b good
        if !verified then keyFail d w 0x70
        else match freeKeySlot d with
          | none => keyFail d w 0x71
          | some k =>
            let s : ClipSlot :=
              { key := Config.unwrapKey dxkKey (b.take 1832), keyId := fieldAt b 40 4, clipId := (b.drop 24).take 16, func := w.func
                imported := true, opened := false, destroy := false }
            finishWo { d with ks := { d.ks with slots := tput k s d.ks.slots } } t 0 0 (keyResult k s.keyId 0)

/-- REGION (R437, R302, R304): a fresh key, and the region's registers. What any region of that key slot held cannot be read any more. -/
def keyRegion (d : Device) (t : Nat) : Device :=
  match ksNext d t .keyop 6 with
  | none => d
  | some w =>
    let n := woField w 66 1
    let mode := woField w 67 1
    let base := woField w 104 4 % 2 ^ 18 + (if mode = 0xFF then 0 else 2 ^ 31) + (if mode = 1 then 2 ^ 30 else 0)
    let limit := woField w 108 4 % 2 ^ 18 + n * 2 ^ 24
    match regionWrite d n base limit with
    | (d, false) => keyFail d w 0x31
    | (d, true) =>
      let d := dramForget d (fun a => regionSlot d a != n)
      let d := { d with mem := { d.mem with keys := tset 0 n (free d 87) d.mem.keys, zeroised := sdel n d.mem.zeroised } }
      finishWo d t 0 0 (keyResult 0 0 0)

/-! SEAL (R449). -/

/-- RESULT of a SEAL. -/
def sealResult (rd wr : Nat) : List Byte := leBytes 8 rd ++ leBytes 8 wr

/-- A SEAL fails: nothing is written. -/
def sealFail (d : Device) (w : WorkOrder) (status : Nat) : Device := finishWo d w.ticket status 0 (sealResult 0 0)

/-- SIGN. -/
def sealStatement (fz : Fuses) (d : Device) (t : Nat) : Device :=
  match ksNext d t .seal 1 with
  | none => d
  | some w =>
    if !keyDsk fz d then sealFail d w 0x71
    else
      let n := woField w 80 4
      match bufRead d 32 (woField w 72 4) (woField w 76 4) n with
      | (d, none) => sealFail d w 0x20
      | (d, some input) =>
        let body := leBytes 4 0x54534753 ++ leBytes 2 1 ++ leBytes 1 ((lcState fz).getD 7) ++ leBytes 1 0 ++ leBytes 8 d.time ++
          leBytes 48 (Config.sha384 input) ++ (w.raw.drop 96).take 32 ++ leBytes 48 d.ks.fwMeas ++ d.ks.devFpr ++
          leBytes 2 w.ctx ++ leBytes 1 w.func ++ leBytes 5 0
        match bufWrite d 32 (woField w 84 4) (woField w 88 4) (body ++ sigBlock dskKey body) with
        | (d, true) => finishWo d t 0 0 (sealResult n 3656)
        | (d, false) => sealFail d w 0x20

/-- OPEN_RECORD: both checks pass before anything is written. -/
def openRecord (fz : Fuses) (d : Device) (t : Nat) : Device :=
  match ksNext d t .seal 2 with
  | none => d
  | some w =>
    match slotAt d (keySlotOf w) with
    | none => sealFail d w 0x71
    | some s =>
      if s.func ≠ w.func then sealFail (plumbEvent d 442 t) w 0x42
      else if !keyClip fz d then sealFail d w 0x71
      else match bufRead d 32 (woField w 72 4) (woField w 76 4) 256 with
        | (d, none) => sealFail d w 0x20
        | (d, some h) =>
          let n := fieldAt h 56 8
          let blocks := fieldAt h 40 4
          if fieldAt h 0 4 ≠ 0x44435246 ∨ fieldAt h 76 4 ≠ s.keyId ∨ blocks ≠ recBlocks n then sealFail d w 0x70
          else match bufRead d 32 (woField w 72 4) (woField w 76 4) (blocks * 4096) with
            | (d, none) => sealFail d w 0x20
            | (d, some r) =>
              let iv := fieldAt h 64 12
              let ct := (r.drop 256).take n
              let tag := fieldAt r (blocks * 4096 - 64) 16
              if tag = 0 ∨ Config.gcmTag s.key iv h ct ≠ tag then sealFail d w 0x70
              else match bufWrite d 32 (woField w 84 4) (woField w 88 4) (padTo n (Config.aes256 s.key iv ct)) with
                | (d, true) => finishWo d t 0 0 (sealResult (blocks * 4096) n)
                | (d, false) => sealFail d w 0x20

/-! Anti-rollback and tamper. -/

/-- Set anti-rollback counter n. -/
def setArb (fz : Fuses) (n v : Nat) : Fuses :=
  if n = 0 then { fz with arb0 := v } else if n = 1 then { fz with arb1 := v }
  else if n = 2 then { fz with arb2 := v } else { fz with arb3 := v }

/-- A write of KS_ARB_COMMIT by the PF (R433). `good` says that the fuse read-back agrees; otherwise only some of the bits are
blown, and the F4 event names the field. -/
def arbCommit (fz : Fuses) (d : Device) (n : Nat) (good : Bool) : Fuses × Device :=
  let old := arbCount fz n
  let run := min 63 (tget 0 n d.ks.run)
  if run ≤ old then (fz, d)
  else if good then (setArb fz n run, d)
  else (setArb fz n (old + free d 88 % (run - old)), plumbEvent d 437 n)

/-- KS_TAMPER_CFG.EN as it acts: 0xF in FIELD (R450). -/
def tamperEn (fz : Fuses) (d : Device) : Nat := if lcState fz = some 2 then 0xF else d.ks.tamperEn

/-- A write of KS_TAMPER_CFG. -/
def tamperCfgWrite (fz : Fuses) (d : Device) (v : Nat) : Device :=
  if d.ks.lock ∨ lcState fz = some 2 then d
  else { d with ks := { d.ks with tamperEn := v % 16, lock := bitOf v 31 } }

/-- Every DMC key slot is zeroised (R451): no DRAM byte can be read any more. -/
def zeroiseKeys (d : Device) : Device :=
  { wipeRange d 0 0x080000000000 with mem := { (wipeRange d 0 0x080000000000).mem with keys := [], zeroised := upto 0 64 } }

/-- A tamper source trips (R450, R451): inputs 0–3 when armed, detectors 4–6 always. A life-cycle request that has not begun to
blow fuses is abandoned (R456); a save of Sleep can no longer be read (R482). -/
def tamper (fz : Fuses) (d : Device) (src : Nat) : Device :=
  if 7 ≤ src ∨ (src < 4 ∧ !bitOf (tamperEn fz d) src) then d
  else
    let st := d.ks.tamper ||| 2 ^ src
    let d := { d with ks := { d.ks with tamper := st, latched := true }, crp := { d.crp with saveOk := false } }
    let d := match d.ks.req with
      | some r =>
        if r.blowing then d else { d with ks := { d.ks with req := none, lcStatus := freeError d 89 } }
      | none => d
    plumbEvent (zeroiseKeys (absWipe d)) 438 (st + 2 ^ 31)

/-! Meanings. -/

/-- CLIP_NEW (R437). -/
def execClipNew (t : Nat) (s : State) : Host.Outcome State Fault Refusal := done s (clipNew s.fuses s.dev t)

/-- WRAP (R446). -/
def execWrap (t : Nat) (s : State) : Host.Outcome State Fault Refusal := done s (keyWrap s.fuses s.dev t)

/-- ENROL (R445). -/
def execEnrol (t : Nat) (good : SigOk) (s : State) : Host.Outcome State Fault Refusal :=
  done s (keyEnrol s.fuses s.dev t good)

/-- DESTROY (R437). -/
def execDestroy (t : Nat) (s : State) : Host.Outcome State Fault Refusal := done s (keyDestroy s.dev t)

/-- IMPORT (R447). -/
def execKeyImport (t : Nat) (good : ImportOk) (s : State) : Host.Outcome State Fault Refusal :=
  done s (keyImport s.fuses s.dev t good)

/-- REGION (R437). -/
def execRegion (t : Nat) (s : State) : Host.Outcome State Fault Refusal := done s (keyRegion s.dev t)

/-- SIGN (R449). -/
def execSign (t : Nat) (s : State) : Host.Outcome State Fault Refusal := done s (sealStatement s.fuses s.dev t)

/-- OPEN_RECORD (R449). -/
def execOpenRecord (t : Nat) (s : State) : Host.Outcome State Fault Refusal := done s (openRecord s.fuses s.dev t)

/-- TAMPER_EVENT (R451). -/
def execTamperEvent (src : Nat) (s : State) : Host.Outcome State Fault Refusal := done s (tamper s.fuses s.dev src)

end Sys2Proof.Machine
end

