-- ==== Sys2Proof/Machine/Mortar.lean ====
section
/-! DEFINITION. The Mortar compositor (R239–R253): COMP, frame programs, frame boundaries, layers, composition, writeback, and
what leaves SDI outputs and IP senders (R288, R289, R376). -/

namespace Sys2Proof.Machine

/-- Mortar output n. -/
def outAt (d : Device) (n : Nat) : MortarOut := tget MortarOut.reset n d.mortar.outs

/-- Change Mortar output n. -/
def setOut (d : Device) (n : Nat) (o : MortarOut) : Device :=
  { d with mortar := { d.mortar with outs := tset MortarOut.reset n o d.mortar.outs } }

/-! Acceptance (R240, R241, R245). -/

/-- OUT_MASK. -/
def compMask (w : WorkOrder) : Nat := woField w 64 1

/-- Outputs of a COMP. -/
def compOuts (w : WorkOrder) : List Nat := (upto 0 6).filter (bitOf (compMask w))

/-- Record keys of the program for output i: its header, layer l's record and descriptor, and the writeback descriptor. -/
def progKey (i : Nat) : Nat := 72 + 8 * i

/-- Key of layer l's record. -/
def layerKey (i l : Nat) : Nat := 1000 * (i + 1) + 10 * l

/-- Key of the writeback descriptor. -/
def wbKey (i : Nat) : Nat := 1000 * (i + 1) + 900

/-- Read a layer record of 48 bytes in three pieces of 16. -/
def readLayer (c key a : Nat) (s : Device × Records) : Device × Records :=
  match ctxRead s.1 c a 16 with
  | (d, none) => (d, s.2)
  | (d, some x) =>
    match ctxRead d c (a + 16) 16 with
    | (d, none) => (d, s.2)
    | (d, some y) =>
      match ctxRead d c (a + 32) 16 with
      | (d, none) => (d, s.2)
      | (d, some z) => (d, s.2 ++ [(key, x ++ y ++ z)])

/-- LAYERS of a program header. -/
def progLayers (h : List Byte) : Nat := fieldAt h 4 1

/-- LFLAGS bit of a layer record: 0 ENABLE, 1 PREMULT, 2 STRIPE_OK, 3 WAIT. -/
def layerFlag (r : List Byte) (b : Nat) : Bool := bitOf (fieldAt r 26 2) b

/-- Read one layer: its record, its descriptor, and its progress address when WAIT = 1. -/
def readOneLayer (c i a : Nat) (s : Device × Records) (l : Nat) : Device × Records :=
  let s := readLayer c (layerKey i l) (a + 64 + 48 * l) s
  match tfind (layerKey i l) s.2 with
  | none => s
  | some r =>
    let s := readRecord c (layerKey i l + 1) (fieldAt r 0 8) 64 s
    if layerFlag r 3 then readProgress c (layerKey i l + 2) (fieldAt r 32 8) .load s else s

/-- Read the program of output i. -/
def readProg (w : WorkOrder) (s : Device × Records) (i : Nat) : Device × Records :=
  let a := woField w (72 + 8 * i) 8
  let s := readRecord w.ctx (progKey i) a 64 s
  match tfind (progKey i) s.2 with
  | none => s
  | some h =>
    let s := readRecord w.ctx (wbKey i) (fieldAt h 16 8) 64 s
    let s := readProgress w.ctx (wbKey i + 1) (fieldAt h 24 8) .store s
    (upto 0 (min 16 (progLayers h))).foldl (readOneLayer w.ctx i a) s

/-- Records a COMP names for reading at acceptance (R245). -/
def compReads (d : Device) (w : WorkOrder) : Device × Records := (compOuts w).foldl (readProg w) (d, [])

/-- A record kept with the work order. -/
def recOf (w : WorkOrder) (k : Nat) : Option (List Byte) := tfind k w.extra

/-- Layer numbers of the program for output i. -/
def layerNums (w : WorkOrder) (i : Nat) : List Nat := upto 0 (progLayers (woExtra w (progKey i)))

/-- Layer l of the program for output i is enabled. -/
def layerOn (w : WorkOrder) (i l : Nat) : Bool := layerFlag (woExtra w (layerKey i l)) 0

/-- Handles of the writeback and layer descriptors, program by program (R77 step 3). -/
def compHandles (w : WorkOrder) : List Nat :=
  (compOuts w).flatMap (fun i =>
    ((wbKey i) :: ((upto 0 (min 16 (progLayers (woExtra w (progKey i))))).map (fun l => layerKey i l + 1))).filterMap (fun k =>
      (recOf w k).map sfHandle))

/-- Surface descriptors of a COMP that were read. -/
def compSurfaces (w : WorkOrder) : List (List Byte) :=
  (compOuts w).flatMap (fun i =>
    (wbKey i :: (upto 0 (min 16 (progLayers (woExtra w (progKey i))))).map (fun l => layerKey i l + 1)).filterMap (recOf w))

/-- Every record of the program for output i was read (R245, first row). -/
def progRead (w : WorkOrder) (i : Nat) : Bool :=
  let named := fun (a k : Nat) => a == 0 || hasRecord w.extra k
  match recOf w (progKey i) with
  | none => woField w (72 + 8 * i) 8 == 0
  | some h =>
    named (fieldAt h 16 8) (wbKey i) && named (fieldAt h 24 8) (wbKey i + 1) &&
      (upto 0 (min 16 (progLayers h))).all (fun l =>
        match recOf w (layerKey i l) with
        | none => false
        | some r => named (fieldAt r 0 8) (layerKey i l + 1) && (!layerFlag r 0 || fieldAt r 0 8 != 0) &&
            (!layerFlag r 3 || hasRecord w.extra (layerKey i l + 2)))

/-- Source and destination rectangles of a layer: x, y, w, h. -/
def rectAt (r : List Byte) (o : Nat) : Nat × Nat × Nat × Nat := (fieldAt r o 2, fieldAt r (o + 2) 2, fieldAt r (o + 4) 2, fieldAt r (o + 6) 2)

/-- An enabled layer record against its surface and raster (R241, R245, second row). -/
def layerOk (raster : Nat × Nat) (r s : List Byte) : Bool :=
  let (sx, sy, sw, sh) := rectAt r 8
  let (dx, dy, dw, dh) := rectAt r 16
  !isCfa (sfFormat s) && decide (sx + sw ≤ sfWidth s) && decide (sy + sh ≤ sfHeight s) && decide (dx % 2 = 0) && decide (dw % 2 = 0) &&
    decide (dx + dw ≤ raster.1) && decide (dy + dh ≤ raster.2) && ratioOk sw dw && ratioOk sh dh

/-- Reserved fields and flags of a layer record. -/
def layerReserved (r : List Byte) : Bool := zeroAt r 40 8 && decide (fieldAt r 26 2 < 16)

/-- The program for output i against R241 (R245, second row). -/
def progOk (d : Device) (w : WorkOrder) (i : Nat) : Bool :=
  let h := woExtra w (progKey i)
  let raster := rasterOf (sdiReg d i)
  let wb := bitOf (fieldAt h 5 1) 0
  let s := woExtra w (wbKey i)
  (fieldAt h 0 2, fieldAt h 2 2) == raster && decide (progLayers h ≤ 16) && decide (fieldAt h 5 1 ≤ 1) && zeroAt h 6 2 &&
    zeroAt h 14 2 && zeroAt h 36 28 && [0, 1, 9].contains (fieldAt h 34 1) &&
    (!wb || (hasRecord w.extra (wbKey i) && !isCfa (sfFormat s) && (sfWidth s, sfHeight s) == raster)) &&
    (layerNums w i).all (fun l =>
      let r := woExtra w (layerKey i l)
      layerReserved r && (!layerOn w i l || layerOk raster r (woExtra w (layerKey i l + 1))))

/-- Stripes of a layer, each of which takes a pipe (R244). -/
def layerStripes (r : List Byte) : Nat :=
  let sw := (rectAt r 8).2.2.1
  if sw ≤ 8192 then 1 else ((upto 2 6).find? (fun n => decide ((sw + n - 1) / n + 8 ≤ 8192))).getD 8

/-- Pipes of the program for output i. -/
def progPipes (w : WorkOrder) (i : Nat) : Nat :=
  ((layerNums w i).filter (layerOn w i)).foldl (fun n l => n + layerStripes (woExtra w (layerKey i l))) 0

/-- A layer too wide without STRIPE_OK (R245, third row). -/
def tooWide (w : WorkOrder) (i : Nat) : Bool :=
  (layerNums w i).any (fun l =>
    let r := woExtra w (layerKey i l)
    layerOn w i l && decide (8192 < (rectAt r 8).2.2.1) && !layerFlag r 2)

/-- The checks of R245: 0 or the status of the first failure. -/
def compChecks (d : Device) (w : WorkOrder) : Nat :=
  let outs := compOuts w
  if !outs.all (progRead w) then 0x20
  else if compMask w = 0 ∨ 64 ≤ compMask w ∨ !zeroAt w.raw 65 7 ∨ !zeroAt w.raw 120 136 ∨
      !(upto 0 6).all (fun i => decide (woField w (72 + 8 * i) 8 ≠ 0) == bitOf (compMask w) i) ∨ !outs.all (progOk d w) then 0x31
  else if outs.any (tooWide w) then 0x30
  else if outs.any (fun i => decide (16 < progPipes w i)) then 0x31
  else 0

/-- Physical address kept under a record key. -/
def physOf (w : WorkOrder) (k : Nat) : Option Nat := (recOf w k).map (fun b => fieldAt b 0 8)

/-- The frame program of a COMP for output i (R241). -/
def progOf (w : WorkOrder) (i : Nat) : FrameProg :=
  let h := woExtra w (progKey i)
  { ticket := w.ticket, ctx := w.ctx, func := w.func, head := h
    layers := ((layerNums w i).filter (layerOn w i)).map (fun l =>
      let s := woExtra w (layerKey i l + 1)
      { index := l, ctx := w.ctx, surf := s, raw := woExtra w (layerKey i l), waitPhys := physOf w (layerKey i l + 2)
        bufIdx := handleIdx (sfHandle s) })
    wbSurf := woExtra w (wbKey i)
    wbBuf := if bitOf (fieldAt h 5 1) 0 then some (handleIdx (sfHandle (woExtra w (wbKey i)))) else none
    wbProg := physOf w (wbKey i + 1) }

/-- An accepted COMP queues its programs (R246). -/
def compAccept (d : Device) (w : WorkOrder) : Device :=
  let d := (compOuts w).foldl (fun d i => let o := outAt d i; setOut d i { o with queue := o.queue ++ [progOf w i] }) d
  { d with mortar := { d.mortar with comps := d.mortar.comps ++
      [{ ticket := w.ticket, start := 0, frame := 0, lowest := 6, repeatMask := 0, done := 0, mask := compMask w }] } }

/-! The end of a COMP (R246, R252). -/

/-- The run of a COMP. -/
def compAt (d : Device) (t : Nat) : Option CompRun := d.mortar.comps.find? (fun c => c.ticket == t)

/-- Change the run of a COMP. -/
def modComp (d : Device) (t : Nat) (f : CompRun → CompRun) : Device :=
  { d with mortar := { d.mortar with comps := d.mortar.comps.map (fun c => if c.ticket = t then f c else c) } }

/-- RESULT of a COMP (R252). -/
def compResult (c : CompRun) : List Byte := leBytes 8 c.start ++ leBytes 4 c.frame ++ leBytes 2 c.repeatMask ++ leBytes 1 c.done ++ leBytes 1 0

/-- Buffers an output reads or writes: of its program, of what its layers show, and of the programs that may resume. -/
def outBufs (o : MortarOut) : List Nat :=
  let prog := fun (p : FrameProg) => p.layers.map (·.bufIdx) ++ p.wbBuf.toList
  ((o.prog.toList ++ o.prev.map (·.1)).flatMap prog ++ o.shown.map (fun e => e.2.bufIdx)).foldl (fun l i => sadd i l) []

/-- Keep the buffers an output holds equal to those it uses (R249, R319). -/
def outHolds (d : Device) (n : Nat) : Device :=
  let o := outAt d n
  let want := outBufs o
  let d := (want.filter (fun i => !o.held.contains i)).foldl holdBuf d
  let d := (o.held.filter (fun i => !want.contains i)).foldl unholdBuf d
  setOut d n { outAt d n with held := want }

/-- Programs of COMP t may be withdrawn no longer: what stood before one of them resumes no more, and its buffers are let go
(R246, R249). -/
def prevDrop (t : Nat) (d : Device) (n : Nat) : Device :=
  let o := outAt d n
  let mine := match o.prog with | some p => p.ticket == t | none => false
  let rest := o.prev.dropWhile (fun e => e.1.ticket ≠ t)
  outHolds (setOut d n { o with prev := if mine then [] else o.prev.takeWhile (fun e => e.1.ticket ≠ t) ++ rest.take 1 }) n

/-- A COMP ends with a status; FLAGS bit 4 says that a layer was not ready (R248). -/
def compEnd (d : Device) (t status : Nat) : Device :=
  match compAt d t with
  | none => d
  | some c =>
    let d := (upto 0 6).foldl (prevDrop t) { d with mortar := { d.mortar with comps := d.mortar.comps.filter (fun c => c.ticket ≠ t) } }
    finishWo d t status
      (if c.repeatMask = 0 then 0 else 16) (compResult c)

/-- A program of the COMP is in force on output n. -/
def compInForce (d : Device) (t n : Nat) : Bool :=
  match (outAt d n).prog with | some p => p.ticket == t | none => false

/-- Withdraw the programs of a COMP that are not in effect; outputs where one is in effect resume the previous program at the end
of the frame in progress (R246). The COMP ends when none is left in effect. -/
def compWithdraw (d : Device) (t status : Nat) : Device :=
  let d := (upto 0 6).foldl (fun d n =>
    let o := outAt d n
    setOut d n { o with
      queue := o.queue.filter (fun p => p.ticket ≠ t), prev := o.prev.filter (fun e => e.1.ticket ≠ t)
      resume := o.resume || compInForce d t n }) d
  if (upto 0 6).any (compInForce d t) then d else compEnd d t status

/-! Frame boundaries (R246–R249). -/

/-- A layer is ready at a boundary (R247). -/
def layerReady (d : Device) (l : Layer) : Bool :=
  if !layerFlag l.raw 3 then true
  else match l.waitPhys with
    | none => false
    | some a =>
      match progressGet d 36 a with
      | (_, some (frame, rows)) =>
        let (_, sy, _, sh) := rectAt l.raw 8
        frame == fieldAt l.raw 28 4 && decide (sy + sh ≤ rows)
      | _ => false

/-- The read of a layer's progress word at a boundary, with the events it raises (R247, R298). -/
def layerPoll (d : Device) (l : Layer) : Device :=
  match l.waitPhys with
  | some a => if layerFlag l.raw 3 then (progressGet d 36 a).1 else d
  | none => d

/-- Test the waiting layers of output n (R247, R248): ready ones are shown, the others repeat what their index showed. -/
def testLayers (d : Device) (n : Nat) : Device :=
  let o := outAt d n
  match o.prog with
  | none => d
  | some p =>
    let mine := p.layers.filter (fun l => o.waiting.contains l.index)
    let ready := mine.filter (layerReady d)
    let wait := (mine.filter (fun l => !layerReady d l)).map (·.index)
    setOut (mine.foldl layerPoll d) n { o with
      shown := ready.foldl (fun t l => tput l.index l t) o.shown, waiting := wait
      repeats := (o.repeats + wait.length) % 65536 }

/-- A program takes effect on output n: layer indexes it does not use show nothing (R246, R248). -/
def takeProg (d : Device) (n : Nat) (p : FrameProg) (rest : List FrameProg) : Device :=
  let o := outAt d n
  setOut d n { o with
    queue := rest, prog := some p, prev := if o.resume then o.prev else (o.prog.map (fun q => (q, o.waiting))).toList ++ o.prev, resume := false
    shown := o.shown.filter (fun e => p.layers.any (fun l => l.index == e.1)), waiting := p.layers.map (·.index) }

/-- The program before an aborted one resumes on output n: the layers that were ready show again, the others repeat what their index
showed in the frame before (R246–R248). -/
def resumeProg (d : Device) (n : Nat) (p : FrameProg) (wait : List Nat) (rest : List (FrameProg × List Nat)) : Device :=
  let o := outAt d n
  setOut d n { o with
    prog := some p, prev := rest, resume := false, waiting := wait
    shown := (p.layers.filter (fun l => !wait.contains l.index)).foldl (fun t l => tput l.index l t)
      (o.shown.filter (fun e => p.layers.any (fun l => l.index == e.1))) }

/-- What the COMP of a program that has just taken effect on output n records (R246, R248, R252). -/
def compTook (d : Device) (t n : Nat) : Device :=
  let o := outAt d n
  let late := o.waiting.foldl (fun m l => m ||| 2 ^ l) 0
  let d := modWo d t (fun w => if w.phase = .queued then { w with phase := .running } else w)
  let d := modComp d t (fun c => { c with
    start := if c.done = 0 then d.time else c.start
    frame := if n < c.lowest then o.frames else c.frame, lowest := min n c.lowest
    repeatMask := c.repeatMask ||| late, done := c.done ||| 2 ^ n })
  match compAt d t with
  | some c => if c.done = c.mask then compEnd d t 0 else d
  | none => d

/-- Outputs stop resuming for COMPs that ended their frame: those with an abort and nothing left in effect end now (R246). -/
def compSettle (d : Device) (t : Nat) : Device :=
  match woAt d t with
  | some w =>
    match w.abort with
    | some r => if w.kind = .comp ∧ !(upto 0 6).any (compInForce d t) then compEnd d t (match r with | .deadline => 0x12 | _ => 0x10) else d
    | none => d
  | none => d

/-- Make output n send black, with no program (R239, R246). -/
def outBlack (d : Device) (n : Nat) : Device :=
  let o := outAt d n
  setOut d n { o with prog := none, prev := [], resume := false, shown := [], waiting := [], blank := false }

/-- The frame boundary of output n (R246–R249): the configuration and the oldest queued program take effect, an aborted program
gives way to the one before it, layers are tested, holds follow, a new frame is counted. -/
def frameBoundary (d : Device) (n : Nat) : Device :=
  let left := (outAt d n).prog.map (·.ticket)
  let blank := fun d => if (outAt d n).blank then outBlack d n else d
  let settle := fun d => match left with | some t => compSettle d t | none => d
  let d := sdiApply d n
  if 6 ≤ n then d
  else if !sdiEn (sdiAt d n).cfg then outHolds (settle (blank d)) n
  else
    let d := blank (setSdi d n { sdiAt d n with bound := d.time })
    let o := outAt d n
    let d := setOut d n { o with frames := (o.frames + 1) % 2 ^ 32, wbStop := false, wbCount := 0, line := 0, lines := [] }
    let d := match o.queue with
      | p :: rest => compTook (testLayers (takeProg d n p rest) n) p.ticket n
      | [] =>
        if o.resume then
          match o.prev with
          | (p, wait) :: rest => testLayers (resumeProg d n p wait rest) n
          | [] => outBlack d n
        else testLayers d n
    let d := outHolds (settle d) n
    let p := (outAt d n).prog
    match p with
    | some p => if p.wbBuf.isSome then progressPut d 37 p.func p.wbProg (outAt d n).frames 0 else d
    | none => d

/-! Composition (R242–R244, R250, R251). -/

/-- A colour matrix and offsets as a CSC record holds them (R223). -/
def matrixOut (mx : List Int) (o : List Int) (v : List Nat) (i : Nat) : Nat :=
  let sum := ((upto 0 3).map (fun j => (mx[3 * i + j]?).getD 0 * (((v[j]?).getD 0 : Nat) : Int))).foldl (· + ·) 0
  clampTo 65535 ((sum + 2048) / 4096 + (o[i]?).getD 0)

/-- R′G′B′ to Y′CbCr by the BT.709 (1) or BT.2020 (9) matrix in Q3.12 (R242). -/
def toYcc (code : Nat) : List Nat → Nat → Nat :=
  if code = 9 then matrixOut [1076, 2777, 243, -572, -1476, 2048, 2048, -1883, -165] [0, 32768, 32768]
  else matrixOut [871, 2929, 296, -469, -1579, 2048, 2048, -1860, -188] [0, 32768, 32768]

/-- Y′CbCr to R′G′B′ by the same matrices. -/
def toRgb (code : Nat) : List Nat → Nat → Nat :=
  if code = 9 then matrixOut [4096, 0, 6040, 4096, -674, -2340, 4096, 7706, 0] [-48320, 24112, -61648]
  else matrixOut [4096, 0, 6450, 4096, -767, -1917, 4096, 7601, 0] [-51600, 21472, -60808]

/-- A format of R, G and B components. -/
def isRgb (f : Nat) : Bool := f == 0x20 || f == 0x21

/-- A layer's rows lo to hi − 1 in the composition space, with its alpha as a fourth component (R242). -/
def layerSource (d : Device) (space : Nat) (l : Layer) (lo hi : Nat) : List Rows :=
  let s := l.surf
  let dep := fmtDepth (sfFormat s)
  let (sx, sy, sw, _) := rectAt l.raw 8
  let g := fieldAt l.raw 24 2
  let code := if space = 0 then fieldAt s 42 1 else space
  let pixel := fun (rows : List (List Nat)) (x : Nat) =>
    let at_ := fun k x => lift dep ((((rows[k]?).getD [])[x]?).getD 0)
    let raw :=
      if isMono (sfFormat s) then (let v := at_ 0 x; if space = 0 then [v, v, v] else [v, 32768, 32768])
      else if sfFormat s = 0x21 then [at_ 0 (4 * x), at_ 0 (4 * x + 1), at_ 0 (4 * x + 2)]
      else if sfFormat s = 0x20 then [at_ 2 x, at_ 0 x, at_ 1 x]
      else match fmtChroma (sfFormat s) with
        | some (dx, _) => [at_ 0 x, at_ 1 (x / dx), at_ 2 (x / dx)]
        | none => [0, 0, 0]
    let conv := if isMono (sfFormat s) then raw
      else if isRgb (sfFormat s) && space != 0 then (upto 0 3).map (toYcc code raw)
      else if !isRgb (sfFormat s) && space == 0 then (upto 0 3).map (toRgb code raw)
      else raw
    let a := if sfFormat s = 0x21 then at_ 0 (4 * x + 3) else 65535
    conv ++ [(a * g + 32767) / 65535]
  let rows := (upto lo (hi - lo)).map (fun y =>
    let planes := (upto 0 (sfPlanes s).length).map (fun k => surfRow d s k ((sy + y) * (sfPlane s k).h / max 1 (sfHeight s)))
    (upto 0 sw).map (fun x => pixel planes (sx + x)))
  (upto 0 4).map (fun c => rows.map (fun r => r.map (fun p => (p[c]?).getD 0)))

/-- Source rows that output row y of a layer reads: first and one past the last (R225, R244). -/
def layerRows (l : Layer) (y : Nat) : Nat × Nat :=
  let (_, _, _, sh) := rectAt l.raw 8
  let (_, dy, _, dh) := rectAt l.raw 16
  let t := scalePos sh dh (y - dy)
  (edge sh (t / 64 - 3), edge sh (t / 64 + 4) + 1)

/-- A layer's components and alpha on row y of the raster, over its DST columns: vertically first, then horizontally (R244). -/
def layerLine (d : Device) (space : Nat) (l : Layer) (y : Nat) : List (List Nat) :=
  let (_, _, sw, sh) := rectAt l.raw 8
  let (_, dy, dw, dh) := rectAt l.raw 16
  let (lo, hi) := layerRows l y
  let vt := sincTable sh dh
  let ht := sincTable sw dw
  (layerSource d space l lo hi).map (fun r =>
    let col := (upto 0 sw).map (fun x => scaleTap vt sh dh (y - dy) (fun j => px r x (j - lo)))
    (upto 0 dw).map (fun x => scaleTap ht sw dw x (fun i => (col[i]?).getD 0)))

/-- Blend a component of a layer onto the one beneath it (R243). -/
def blend (premult : Bool) (s a b : Nat) : Nat :=
  ((if premult then s * 65535 else s * a) + b * (65535 - a) + 32767) / 65535

/-- Lay a layer's line over the components beneath it. -/
def layerOver (l : Layer) (above below : List (List Nat)) : List (List Nat) :=
  let (dx, _, dw, _) := rectAt l.raw 16
  (upto 0 3).map (fun c =>
    let b := (below[c]?).getD []
    (upto 0 b.length).map (fun x =>
      let v := (b[x]?).getD 0
      if dx ≤ x ∧ x < dx + dw then
        blend (layerFlag l.raw 1) ((((above[c]?).getD [])[x - dx]?).getD 0) ((((above[3]?).getD [])[x - dx]?).getD 0) v
      else v))

/-- A layer reaches row y of the raster. -/
def layerOnRow (l : Layer) (y : Nat) : Bool :=
  let (_, dy, _, dh) := rectAt l.raw 16
  decide (dy ≤ y) && decide (y < dy + dh)

/-- Malformed dressed tiles met for the first time on row y of a layer (R237). -/
def layerBadTiles (d : Device) (l : Layer) (y : Nat) : Nat :=
  let (sx, sy, sw, _) := rectAt l.raw 8
  let (_, dy, _, _) := rectAt l.raw 16
  let (lo, hi) := layerRows l y
  let read : Block := { x := sx, y := sy + lo, w := sw, h := hi - lo }
  ((badTilesIn d l.surf (sy + hi)).filter (fun b => blocksMeet b read && (y == dy || decide (sy + (layerRows l (y - 1)).2 ≤ b.y)))).length

/-- Compose one layer on row y: transparent, and counted, when its source has not arrived (R251). -/
def composeLayer (n y late space : Nat) (s : Device × List (List Nat)) (e : Nat × Layer) : Device × List (List Nat) :=
  let (d, below) := s
  let l := e.2
  if !layerOnRow l y then s
  else
    let (lo, hi) := layerRows l y
    let (sx, sy, sw, _) := rectAt l.raw 8
    let drop := fun d : Device => let o := outAt d n; setOut d n { o with underrun := (o.underrun + 1) % 65536 }
    if bitOf late e.1 then (drop d, below)
    else match surfaceReadIn d 36 l.surf (sy + lo) (sy + hi) sx (sx + sw) with
      | (d, false) => (drop d, below)
      | (d, true) =>
        ({ d with mortar := { d.mortar with dressErr := (d.mortar.dressErr + layerBadTiles d l y) % 65536 } },
          layerOver l (layerLine d space l y) below)

/-- The background of a program across a row. -/
def background (p : FrameProg) (w : Nat) : List (List Nat) := (upto 0 3).map (fun c => List.replicate w (fieldAt p.head (8 + 2 * c) 2))

/-- Y′CbCr 4:2:2 10-bit samples of a row, in the order Cb, Y, Cr, Y (R287, R376). -/
def videoLine (space : Nat) (comps : List (List Nat)) (w : Nat) : List Nat :=
  let at_ := fun c x => (((comps[c]?).getD [])[x]?).getD 0
  let m : Img := { w := w, h := 1, comps := (upto 0 3).map (fun c =>
    [(upto 0 w).map (fun x => if space = 0 then toYcc 1 [at_ 0 x, at_ 1 x, at_ 2 x] c else at_ c x)]) }
  let p := packPlanes 0x11 1 m
  let q := fun k x => px ((p[k]?).getD []) x 0
  (upto 0 (w / 2)).flatMap (fun i => [q 1 i, q 0 (2 * i), q 2 i, q 0 (2 * i + 1)])

/-- A row of video black. -/
def blackLine (w : Nat) : List Nat := (upto 0 (w / 2)).flatMap (fun _ => [512, 64, 512, 64])

/-- 10-bit samples packed four to five bytes, first sample in the highest bits (R376). -/
def pack10 : Nat → List Nat → List Byte
  | 0, _ => []
  | n + 1, l =>
    if l = [] then []
    else beBytes 5 ((l.take 4).foldl (fun v s => v * 1024 + s) 0) ++ pack10 n (l.drop 4)

/-- The packets of a line of IP sender i (R376): one sample row segment of at most 1,200 bytes each. -/
def ipPackets (tmpl : List Byte) (cfg seq ts pt ssrc y last : Nat) : Nat → Nat → List Byte → List Frame
  | 0, _, _ => []
  | n + 1, k, l =>
    if l = [] then []
    else
      let body := l.take 1200
      let num := seq + k
      let hdr := beBytes 2 (num / 65536 % 65536) ++ beBytes 2 body.length ++ beBytes 2 y ++ beBytes 2 (k * 480)
      let m := decide (y = last) && decide (l.length ≤ 1200)
      let pkt := fun leg => rtpWrap leg pt ssrc m (num % 65536) ts (hdr ++ body)
      let leg2 := bitsOf cfg 15 12
      { data := pkt (tmpl.take 128), leg2 := if leg2 < 6 then some (leg2, pkt (tmpl.drop 128)) else none, port := 0
        cls := bitsOf cfg 21 19, ports := bitsOf cfg 5 0 ||| (if leg2 < 6 then 2 ^ leg2 else 0), ticket := none, stamp := false
        oneStep := false, tag := 0, rxTime := 0 } :: ipPackets tmpl cfg seq ts pt ssrc y last n (k + 1) (l.drop 1200)

/-- Frames of IP sender n that wait enter the switch at its port, unless it is paused (R354). -/
def ipFlush (n : Nat) : Nat → Device → Device
  | 0, d => d
  | k + 1, d =>
    match (sdiAt d n).pend with
    | [] => d
    | f :: r =>
      if sourcePaused d (4 + n) f.cls then d
      else ipFlush n k (swEnter (setSdi d n { sdiAt d n with pend := r }) f)

/-- An IP sender sends a line (R376). -/
def ipLine (d : Device) (n y : Nat) (samples : List Nat) : Device :=
  let x := sdiAt d n
  let h := reg d (sdiOff n + 4) 0
  let last := (rasterOf x.cfg).2 - 1
  let tmpl := bytesAt d (bufBase d (handleIdx h)) 256
  let ps := (ipPackets tmpl x.cfg x.seq x.stamp (Config.freeNat 0 101 % 128) (Config.freeNat 0 (102 + n) % 2 ^ 32) y last 64 0
    (pack10 samples.length samples)).map (fun f => { f with port := 4 + n })
  let d := setSdi d n { x with seq := (x.seq + ps.length) % 2 ^ 32, pend := x.pend ++ ps }
  ipFlush n (x.pend.length + ps.length) d

/-- The line leaves output n. -/
def lineOut (d : Device) (n y : Nat) (samples : List Nat) : Device :=
  if n < 4 then emit d (.sdiLine n y samples) else ipLine d n y samples

/-- Writeback of row y (R250): dropped and counted when memory does not take it in time; the progress word then stops. -/
def writeback (d : Device) (n y : Nat) (p : FrameProg) (comps : List (List Nat)) (late : Bool) : Device :=
  let o := outAt d n
  let (w, h) := rasterOf (sdiAt d n).cfg
  let o := { o with lines := (if y % 4 = 0 then [] else o.lines) ++ [comps] }
  let d := setOut d n o
  let drop := fun d : Device =>
    let d := setOut d n { outAt d n with wbStop := true }
    { d with mortar := { d.mortar with wbLate := (d.mortar.wbLate + 1) % 65536 } }
  if p.wbBuf.isNone then d
  else if late then drop d
  else
    let base := y / 4 * 4
    let m : Img := { w := w, h := y + 1, comps := (upto 0 3).map (fun c =>
      List.replicate base [] ++ o.lines.map (fun l => (l[c]?).getD [])) }
    match surfaceWrite d 37 p.wbSurf y (y + 1) (packPlanes (sfFormat p.wbSurf) 1 m) with
    | (d, false) => drop d
    | (d, true) =>
      if o.wbStop ∨ (y + 1 < o.wbCount + 16 ∧ y + 1 ≠ h) then d
      else progressPut (setOut d n { outAt d n with wbCount := y + 1 }) 37 p.func p.wbProg o.frames (y + 1)

/-- Mortar composes the next line of output n (R242–R244, R250, R251). `late` marks layers whose source line has not arrived,
`wbLate` a writeback row that memory does not take in time. -/
def lineCompose (d : Device) (n late : Nat) (wbLate : Bool) : Device :=
  let o := outAt d n
  let y := o.line
  let (w, h) := rasterOf (sdiAt d n).cfg
  if 6 ≤ n ∨ !sdiEn (sdiAt d n).cfg ∨ h ≤ y then d
  else
    match o.prog with
    | none => lineOut (setOut d n { o with line := y + 1 }) n y (blackLine w)
    | some p =>
      let space := fieldAt p.head 34 1
      let (d, comps) := o.shown.foldl (composeLayer n y late space) (d, background p w)
      let d := writeback d n y p comps wbLate
      lineOut (setOut d n { outAt d n with line := y + 1 }) n y (videoLine space comps w)

/-! SDI frames (R288, R289, R376). -/

/-- An output begins a frame at its aligned instant (R288, R470): payload ID and timecode on SDI, the RTP timestamp of the
alignment point on an IP sender; the next frame follows R471. -/
def sdiFrame (d : Device) (n : Nat) : Device :=
  let x := sdiAt d n
  if 6 ≤ n ∨ !sdiEn x.cfg ∨ d.time < x.due then d
  else
    let (num, den) := rateOf (sdiRate x.cfg)
    let point := ((x.due : Int) - x.err).toNat
    let natural : Int := x.due + (1000000000 * den : Nat) / (num : Nat)
    let layer0 := match tfind 0 (outAt d n).shown with | some l => sfTime l.surf | none => 0
    let t := if layer0 = 0 then x.bound else layer0
    let d := setSdi d n { sdiPlan d n x natural with stamp := rtpTime point }
    if n < 4 then emit d (.sdiFrame n (bitsOf x.cfg 30 22) (timecodeOf d x.cfg t)) else d

/-- MORTAR_FRAME_BOUNDARY. -/
def execMortarFrameBoundary (n : Nat) (s : State) : Host.Outcome State Fault Refusal := done s (frameBoundary s.dev n)

/-- MORTAR_LINE_COMPOSE. -/
def execMortarLineCompose (n late : Nat) (wbLate : Bool) (s : State) : Host.Outcome State Fault Refusal :=
  done s (lineCompose s.dev n late wbLate)

/-- SDI_FRAME_SEND. -/
def execSdiFrameSend (n : Nat) (s : State) : Host.Outcome State Fault Refusal := done s (sdiFrame s.dev n)

/-- SDI_PLL_UPDATE. -/
def execSdiPllUpdate (n : Nat) (s : State) : Host.Outcome State Fault Refusal := done s (sdiPll s.dev n)

end Sys2Proof.Machine
end

