-- ==== Sys2Proof/Machine/Stop.lean ====
section
/-! DEFINITION. How work orders end other than by their own completion: cancel (R87), deadlines (R78), abort boundaries (R84), function reset
(R89–R91, R407); and the writing of completion and thread records (R50, R66, R81). -/

namespace Sys2Proof.Machine

/-! Ending work. -/

/-- A coded picture whose work is over and whose record waits for earlier pictures of its stream (R96). -/
def isHeld (d : Device) (t : Nat) : Bool := d.codec.encs.any (fun e => e.2.held.any (fun h => h.1 == t))

/-- The point from which a start-by deadline no longer ends the work (R78): every program in effect, for a COMP. -/
def woStarted (d : Device) (w : WorkOrder) : Bool :=
  match w.kind with
  | .comp => match compAt d w.ticket with | some c => c.done == c.mask | none => false
  | _ => w.phase == .running || w.phase == .suspended

/-- Work that has not started ends at once (R78, R87). -/
def stopQueued (d : Device) (w : WorkOrder) (status : Nat) : Device :=
  match w.kind with
  | .comp => if (compAt d w.ticket).isSome then compWithdraw d w.ticket status else finishWo d w.ticket status 0 (leBytes 16 0)
  | .dma => finishWo d w.ticket status 0 (dmaResult 0 0 0)
  | .magw => finishWo d w.ticket status 0 (magResult 0 0 0 0)
  | .nettx => nettxEnd d w status
  | .ingest => ingestEnd d w status
  | .keyop => keyFail d w status
  | .seal => sealFail d w status
  | _ => stopEngineWork d w.ticket status

/-- Running work at its abort boundary (R84). `n` and `host` say how far a DMA has come in its descriptor, and what host memory returned
to it. -/
def stopRunning (d : Device) (w : WorkOrder) (status n : Nat) (host : List Byte) : Device :=
  match w.kind with
  | .comp => compSettle d w.ticket
  | .dma => dmaAbort d w status n host
  | .magw => magwAbort d w status
  | .nettx => nettxEnd d w status
  | .ingest => ingestEnd d w status
  | .keyop => keyFail d w status
  | .seal => sealFail d w status
  | _ => stopEngineWork d w.ticket status

/-- Of two reasons for an abort the one that ranks first (R85). -/
def abortJoin (old : Option AbortReq) (new : AbortReq) : AbortReq :=
  match old with
  | some a => if abortStatus a = 0x11 ∨ (abortStatus a = 0x10 ∧ abortStatus new = 0x12) then a else new
  | none => new

/-- The engines on which a work order is at work: the verify engines of a picture that is coded (R109). -/
def enginesNow (d : Device) (w : WorkOrder) : List Nat :=
  match encRunAt d w.ticket with
  | some r => if r.coded then verifyEngines w else woEngines w
  | none => woEngines w

/-- A work order is suspended, and no engine of it runs it (R178). -/
def woSuspended (d : Device) (w : WorkOrder) : Bool :=
  onEngines w.kind && w.phase == .running && (enginesNow d w).any (fun u => (engineAt d u).susp.contains w.ticket) &&
    (enginesNow d w).all (fun u => (engineAt d u).cur != some w.ticket)

/-- Ask for the end of a work order (R78, R87, R89): at once when it has not started or is suspended; otherwise at its boundary. A COMP
withdraws what is not in effect now, and ends with the frame in progress (R246). -/
def askStop (d : Device) (w : WorkOrder) (why : AbortReq) : Device :=
  let st := abortStatus why
  if w.kind = .comp then
    if (compAt d w.ticket).isSome then
      compWithdraw (modWo d w.ticket (fun w => { w with abort := some (abortJoin w.abort why) })) w.ticket st
    else stopQueued d w st
  else if w.phase = .dispatched ∨ w.phase = .queued then stopQueued d w st
  else if woSuspended d w then stopRunning d w st 0 []
  else modWo d w.ticket (fun w => { w with abort := some (abortJoin w.abort why) })

/-- ABORT_AT_BOUNDARY: the unit of a work order reaches the boundary of R84 with an abort pending. -/
def abortAt (d : Device) (t n : Nat) (host : List Byte) : Device :=
  match woAt d t with
  | none => d
  | some w =>
    match w.abort with
    | some why => if w.phase = .ending ∨ isHeld d t then d else stopRunning d w (abortStatus why) n host
    | none => d

/-! Cancel (R87) and deadlines (R78). -/

/-- A cancel request without effect is counted. -/
def cancelMissed (d : Device) : Device := { d with cancelMiss := satAdd 0xFFFF d.cancelMiss 1 }

/-- A request to cancel a ticket. `only` is the function of a VF or a Holt context that writes it. -/
def cancelTicket (d : Device) (t : Nat) (only : Option Nat) : Device :=
  match woAt d t with
  | none => cancelMissed d
  | some w =>
    let foreign : Bool := match only with | some f => f != w.func | none => false
    if w.phase = .ending ∨ isHeld d t ∨ woNoCancel w ∨ w.kind = .seal ∨ w.kind = .keyop ∨ foreign then cancelMissed d
    else askStop d w .cancel

/-- A VF's write of a ticket to WO_CANCEL, which lies outside its grant (R400): it cancels nothing, and is counted where the ticket is not
an outstanding one of the VF (R87). -/
def cancelOutside (d : Device) (t f : Nat) : Device :=
  match woAt d t with
  | some w => if w.func = f ∧ w.phase ≠ .ending then d else cancelMissed d
  | none => cancelMissed d

/-- A deadline passes. -/
def deadlineExpire (d : Device) (t : Nat) : Device :=
  match woAt d t with
  | none => d
  | some w =>
    let m := woDlMode w
    if w.phase = .ending ∨ w.phase = .dispatched ∨ isHeld d t ∨ m = 0 ∨ woDeadline w = 0 ∨ d.time < woDeadline w then d
    else if !woStarted d w ∨ m = 2 then askStop d w .deadline
    else d

/-! Records (R50, R66, R81). -/

/-- The oldest record of a ticket is written to its ring once that has space: TIME is filled, the ticket and the holds of the work
end with its final record. At a disabled ring the record is lost (R325). -/
def recordWrite (d : Device) (t : Nat) : Device :=
  match splitFirst (fun r => r.ticket == t) d.recs with
  | none => d
  | some (pre, r, post) =>
    let bytes := stampRec r.data d.time
    let gone := fun (d : Device) => let d := { d with recs := pre ++ post }; if r.final then endWork d t (fieldAt r.data 4 1) else d
    match unitRecord d r.ring bytes with
    | (_, .full) => d
    | (d, .dropped) => gone d
    | (d, .appended) =>
      gone (match woAt d t with | some w => if w.kind = .ingest ∧ !r.final then qpArrive d t bytes else d | none => d)

/-! Function disable and function reset (R89–R91, R407). -/

/-- Contexts of function f that are not EMPTY. -/
def ctxsOf (d : Device) (f : Nat) : List Nat := (d.ctxs.filter (fun e => e.2.st != .empty && e.2.func == f)).map (·.1)

/-- One context stops (R89 step 2); THREADS counts those that ran. -/
def flrStop (f : Nat) (d : Device) (c : Nat) : Device :=
  let (d, ran) := stopCtx d c
  setFunc d f { funcAt d f with threads := (funcAt d f).threads + ofFlag ran }

/-- A record of the function that waits is discarded (R90). -/
def flrRecord (d : Device) (r : RecWait) : Device :=
  if r.final then
    match woAt d r.ticket with | some w => discardWo d w | none => countDiscard d r.func
  else countDiscard d r.func

/-- A work order of the function is cancelled (R89 step 3). -/
def flrWork (d : Device) (t : Nat) : Device :=
  match woAt d t with
  | none => d
  | some w =>
    if isHeld d t then
      let out := fun (s : EncStream) => { s with held := s.held.filter (fun h => h.1 ≠ t), order := s.order.filter (· ≠ t) }
      discardWo { d with codec := { d.codec with encs := d.codec.encs.map (fun e => (e.1, out e.2)) } } w
    else if w.phase = .ending then d
    else askStop d w .function

/-- A vector loses its count, timer and PBA bit (R406). -/
def flrVectors (d : Device) (f : Nat) : Device :=
  let quiet := fun (e : Nat × Vec) => if e.1 / 128 = f then (e.1, { e.2 with count := 0, timer := none, due := false }) else e
  let vecs := (d.host.vecs.map quiet).filter (fun e => decide (e.2 ≠ Vec.reset))
  { d with host := { d.host with vecs := vecs } }

/-- Host reads of a ring that wait answer 0 (R89 step 1). -/
def flrHostReads (d : Device) (f : Nat) : Device :=
  (d.rings.filter (fun e => !e.2.hostWait.isEmpty && e.2.consumer == funcOwner f)).foldl
    (fun d e => e.2.hostWait.foldl (fun d _ => emit d (.hostData f (List.replicate 32 0) false))
      (setRing d e.1 { ringAt d e.1 with hostWait := [] })) d

/-- The program in force on output n is function f's. -/
def outOf (d : Device) (f n : Nat) : Bool := match (outAt d n).prog with | some p => p.func == f | none => false

/-- Outputs stop showing programs of function f: those queued go, one in force gives way to black at the next frame boundary, and at
once on an output that sends no frames (R246). -/
def flrOutputs (d : Device) (f : Nat) : Device :=
  (upto 0 6).foldl (fun d n =>
    let o := outAt d n
    let d := setOut d n { o with
      queue := o.queue.filter (fun p => p.func ≠ f), blank := o.blank || outOf d f n, prev := o.prev.filter (fun e => e.1.func ≠ f) }
    if outOf d f n ∧ !sdiEn (sdiAt d n).cfg then frameBoundary d n else d) d

/-- Steps 1 to 3 of R89 for one function. -/
def flrBegin (pf : Bool) (d : Device) (f : Nat) : Device :=
  let x := funcAt d f
  let d := setFunc d f { x with
    flr := true, flrPf := pf, cancelled := if x.flr then x.cancelled else 0, discarded := if x.flr then x.discarded else 0
    threads := if x.flr then x.threads else 0, buffers := if x.flr then x.buffers else 0 }
  let d := flrHostReads (flrVectors (intcForget d f) f) f
  let d := (ctxsOf d f).foldl (flrStop f) d
  let d := { d with threadRecs := d.threadRecs.filter (fun r => r.func ≠ f) }
  let d := { d with wos := d.wos.map (fun (w : WorkOrder) => if w.func = f then { w with counted := true } else w) }
  let mine := d.recs.filter (fun r => r.func == f)
  let d := mine.foldl flrRecord { d with recs := d.recs.filter (fun r => r.func ≠ f) }
  let d := ((d.wos.filter (fun w => w.func == f)).map (·.ticket)).foldl flrWork d
  let d := flrOutputs d f
  if d.mag.clips.any (fun e => e.2.func == f) then startEmergency d 5 (fun c => c.func == f) else d

/-- An FLR or disable of function f starts (R89, R407). An FLR of the PF acts on all 16 functions and absorbs theirs; one that repeats a
running one has no further effect. -/
def flrStart (d : Device) (f : Nat) : Device :=
  if f = 0 then
    if (funcAt d 0).flr then d else patchAbandon ((upto 0 16).foldl (flrBegin true) d)
  else if 16 ≤ f ∨ (funcAt d f).flr then d
  else flrBegin false d f

/-- Steps 2 and 3 of R89 are done for function f: no thread, no work order, no clip of it is left, and no output shows a program of
it (R246). -/
def flrQuiet (d : Device) (f : Nat) : Bool :=
  !(upto 0 6).any (outOf d f) &&
  (ctxsOf d f).isEmpty && d.wos.all (fun w => w.func != f) && d.mag.clips.all (fun e => e.2.func != f)

/-- Buffers of function f and of its contexts. -/
def flrBufs (d : Device) (f : Nat) : List Nat :=
  (d.yard.bufs.filter (fun e => e.2.st == .owned &&
    (e.2.owner == funcOwner f || (decide (e.2.owner < 512) && assignFunc d e.2.owner == f)))).map (·.1)

/-- A ring of function f or of one of its contexts (R332). -/
def flrRing (d : Device) (f : Nat) (r : Ring) : Bool :=
  let mine := fun (code : Nat) => code == funcOwner f || (decide (code < 512) && assignFunc d code == f)
  r.en && (mine r.producer || mine r.consumer)

/-- Step 5 of R89 for one function: its buffers return wiped, its rings are reset (R332), its clip keys go (R439). -/
def flrReturn (pf : Bool) (d : Device) (f : Nat) : Device :=
  let l := flrBufs d f
  let n := (l.filter (fun i => (bufAt d i).holds == 0)).length
  let d := l.foldl (fun d i => releaseBuf d i true) d
  let d := setFunc d f { funcAt d f with buffers := (funcAt d f).buffers + n }
  let sum := reg d 0x200 0
  let rs := ((d.rings.filter (fun e => flrRing d f e.2)).map (·.1)).filter (fun r => pf || !(bitOf sum 31 && r == bitsOf sum 12 0))
  let d := rs.foldl ringReset (killRx d rs)
  { d with ks := { d.ks with slots := d.ks.slots.filter (fun e => e.2.func ≠ f) } }

/-- The function's configuration space and own page take their reset values (R407). -/
def flrReset (d : Device) (f : Nat) : Device :=
  { d with
    regs := d.regs.filter (fun e => !(decide (ownPage f ≤ e.1) && decide (e.1 < ownPage f + 0x1000)))
    host := { d.host with
      funcs := tset Func.reset f Func.reset d.host.funcs
      vecs := d.host.vecs.filter (fun e => e.1 / 128 ≠ f) } }

/-- The summary record of a VF (R91). -/
def summaryBytes (d : Device) (f : Nat) : List Byte :=
  let x := funcAt d f
  leBytes 4 (0xFFFFFE00 + f) ++ leBytes 1 0x11 ++ leBytes 1 f ++ leBytes 1 0xFF ++ leBytes 1 0 ++ leBytes 8 d.time ++ leBytes 4 x.cancelled ++
    leBytes 4 x.discarded ++ leBytes 2 x.threads ++ leBytes 2 0 ++ leBytes 4 x.buffers

/-- Steps 5 and 6 of R89 and the end of the FLR (R91, R407). The FLR of a VF waits while its summary record finds its ring full. -/
def flrEnd (d : Device) (f : Nat) : Device :=
  let x := funcAt d f
  if !x.flr then d
  else if x.flrPf then
    if f ≠ 0 ∨ !(upto 0 16).all (flrQuiet d) then d
    else
      let d := (upto 0 16).foldl (flrReturn true) d
      let n := (upto 0 16).foldl (fun n f => n + (funcAt d f).cancelled) 0
      let d := { (upto 0 16).foldl flrReset d with pfCancelled := n % 2 ^ 24 }
      { d with host := { d.host with numVfs := 0, vfEnable := false } }
  else if !flrQuiet d f then d
  else
    let e := flrReturn false d f
    let sum := reg d 0x200 0
    if !bitOf sum 31 then flrReset { e with pfLost := satAdd 0xFF e.pfLost 1 } f
    else
      match unitRecord e (bitsOf sum 12 0) (summaryBytes e f) with
      | (_, .full) => d
      | (e, _) => flrReset e f

/-- A read of WO_LAST_PF_FLR (R91): the value, and LOST cleared. -/
def lastPfFlr (d : Device) : Device × Nat := ({ d with pfLost := 0 }, d.pfLost * 2 ^ 24 + d.pfCancelled)

/-! Meanings. -/

/-- COMPLETION_RECORD_WRITE (R81). -/
def execCompletionRecordWrite (t : Nat) (s : State) : Host.Outcome State Fault Refusal := done s (recordWrite s.dev t)

/-- DEADLINE_EXPIRE (R78). -/
def execDeadlineExpire (t : Nat) (s : State) : Host.Outcome State Fault Refusal := done s (deadlineExpire s.dev t)

/-- ABORT_AT_BOUNDARY (R84). -/
def execAbortAtBoundary (t : Nat) (stop : AbortAt) (s : State) : Host.Outcome State Fault Refusal :=
  done s (abortAt s.dev t stop.n stop.host)

/-- THREAD_RECORD_WRITE (R50). -/
def execThreadRecordWrite (c : Nat) (s : State) : Host.Outcome State Fault Refusal := done s (threadRecordWrite s.dev c)

/-- LOAD_COMPLETE (R60). -/
def execLoadComplete (c : Nat) (sigOk : SigOk) (s : State) : Host.Outcome State Fault Refusal :=
  done s (loadComplete s.fuses s.dev c sigOk)

/-- FLR_INITIATE (R89): an FLR written to function f. -/
def execFlrInitiate (f : Nat) (s : State) : Host.Outcome State Fault Refusal :=
  done s (if funcOn s.dev f then flrStart s.dev f else s.dev)

/-- FLR_COMPLETE (R407). -/
def execFlrComplete (f : Nat) (s : State) : Host.Outcome State Fault Refusal := done s (flrEnd s.dev f)

end Sys2Proof.Machine
end

