-- ==== Sys2Proof/Machine/Accept.lean ====
section
/-! DEFINITION. Acceptance of a dispatched work order (R74–R77) and the checks each type adds (R115, R133, R184, R229, R245, R259, R276,
R334, R371, R436, R448). -/

namespace Sys2Proof.Machine

/-! The common header (R72–R74, R77 step 1). -/

/-- FIRST. -/
def woFirstEng (w : WorkOrder) : Nat := woField w 20 1

/-- COUNT. -/
def woCount (w : WorkOrder) : Nat := woField w 21 1

/-- A standing work order, which goes on until it is ended (R17, R78): an INGEST, a NETTX, or a DMA that parks. -/
def isStanding (w : WorkOrder) : Bool := w.kind == .ingest || w.kind == .nettx || (w.kind == .dma && dmaPark w)

/-- FINISH-BY with a deadline. -/
def finishBy (w : WorkOrder) : Bool := woDlMode w == 2 && woDeadline w != 0

/-- VERSION, DL_MODE and the reserved fields of the header. -/
def headerOk (w : WorkOrder) : Bool :=
  woField w 1 1 == 1 && decide (woField w 2 1 < 8) && decide (woDlMode w < 3) && decide (woField w 6 2 < 4) && zeroAt w.raw 19 1 &&
    zeroAt w.raw 22 2 && zeroAt w.raw 56 8 && !(isStanding w && finishBy w)

/-- The placement fields (R74). -/
def placementOk (w : WorkOrder) : Bool :=
  let f := woFirstEng w
  let n := woCount w
  match w.kind with
  | .enc | .encr | .dec | .vfy => decide (1 ≤ n) && decide (n ≤ 48) && (f == 0xFF || (decide (f < 96) && decide (f + n ≤ 96)))
  | .pix => decide (1 ≤ n) && decide (n ≤ 24) && (f == 0xFF || (decide (f < 24) && decide (f + n ≤ 24)))
  | .ana => n == 1 && (f == 0xFF || decide (f < 12))
  | _ => f == 0 && n == 0

/-- HANDLEi is none. -/
def noHandle (w : WorkOrder) (i : Nat) : Bool := handleGen (woHandle w i) == 0

/-- The header fields that a type requires to be none or 0 (R133, R182, R217, R240, R258, R276, R333, R371, R436, R448). -/
def noneOk (w : WorkOrder) : Bool :=
  match w.kind with
  | .enc | .encr => true
  | .dec | .vfy => noHandle w 1 && noHandle w 3 && (!decRing w || noHandle w 0) && (w.kind != .dec || woField w 40 8 == 0)
  | .ana => noHandle w 3 && woField w 48 8 == 0
  | .pix => noHandle w 1 && noHandle w 2 && noHandle w 3
  | _ => (upto 0 4).all (noHandle w) && woField w 40 8 == 0 && woField w 48 8 == 0

/-! Records read before step 1 (R77). -/

/-- The segment slot of a DMA chain, when it meets R334: BASE, LIMIT and whether its class is ASHLAR. -/
def chainRecord (d : Device) (w : WorkOrder) : Records :=
  let s := segSlot (ctxAt d w.ctx) (woField w 66 1)
  if s.valid ∧ s.r ∧ s.cls ≤ 1 ∧ woField w 72 8 + 63 ≤ s.limit then
    [(66, leBytes 8 s.base ++ leBytes 8 s.limit ++ leBytes 1 (ofFlag (s.cls == 1)))]
  else []

/-- The records of a work order beside its surface descriptors. -/
def typeReads (d : Device) (w : WorkOrder) : Device × Records :=
  match w.kind with
  | .enc | .encr => encReads d w
  | .dec | .vfy => decReads d w
  | .pix => pixReads d w
  | .comp => compReads d w
  | .dma => (d, chainRecord d w)
  | .magw => if woField w 64 1 = 1 then readTable w.ctx 104 (woField w 104 8) 16 (min 32 (woField w 68 1)) (d, []) else (d, [])
  | .nettx => if woField w 64 1 = 0 then (d, []) else readTable w.ctx 80 (woField w 80 8) 128 2 (d, [])
  | .ingest => readProgress w.ctx 96 (woField w 96 8) .store (d, [])
  | .ana | .seal | .keyop => (d, [])

/-- A surface descriptor named by the header: its bytes, none when there is none or its read fails. -/
def surfRead (d : Device) (w : WorkOrder) (o : Nat) : Device × List Byte :=
  if woField w o 8 = 0 then (d, [])
  else match ctxRead d w.ctx (woField w o 8) 64 with
    | (d, some b) => (d, b)
    | (d, none) => (d, [])

/-- The work order with everything it names for reading. -/
def readAll (d : Device) (w : WorkOrder) : Device × WorkOrder :=
  let (d, a) := surfRead d w 40
  let (d, b) := surfRead d w 48
  let (d, r) := typeReads d w
  (d, { w with surfIn := a, surfOut := b, extra := r })

/-! Handles (R77 step 3). -/

/-- Type-specific handles, in increasing offset of the field that names them. -/
def typeHandles (w : WorkOrder) : List Nat :=
  match w.kind with
  | .enc | .encr => encHandles w
  | .dec | .vfy => decHandles w
  | .pix => pixHandles w
  | .comp => compHandles w
  | .magw =>
    if woField w 64 1 ≠ 2 then [] else if woField w 67 1 = 1 then [woField w 112 4] else (mwSrc w).map (·.1)
  | .keyop => [woField w 88 4, woField w 96 4]
  | .seal => [woField w 72 4, woField w 84 4]
  | .ana | .dma | .nettx | .ingest => []

/-- Every handle a work order names, in the order of R77. -/
def allHandles (w : WorkOrder) : List Nat :=
  realHandles ((upto 0 4).map (woHandle w) ++ ([w.surfIn, w.surfOut].filter (fun s => !s.isEmpty)).map sfHandle ++ typeHandles w)

/-! Surfaces (R77 steps 4 to 6). -/

/-- The surfaces of a work order whose fields and extent steps 5 and 6 judge; DPB slots are judged by R184. -/
def woSurfaces (w : WorkOrder) : List (List Byte) :=
  [w.surfIn, w.surfOut].filter (fun s => !s.isEmpty) ++
    (match w.kind with
     | .pix => (tfind 72 w.extra).toList
     | .comp => (compOuts w).flatMap (fun i =>
        (if bitOf (fieldAt (woExtra w (progKey i)) 5 1) 0 then (recOf w (wbKey i)).toList else []) ++
          ((layerNums w i).filter (layerOn w i)).filterMap (fun l => recOf w (layerKey i l + 1)))
     | _ => [])

/-- Formats that a type takes (R77 step 5, R93, R130, R184, R186). -/
def sourceOk (w : WorkOrder) : Bool :=
  match w.kind with
  | .enc | .encr | .ana => w.surfIn.isEmpty || !(sfFormat w.surfIn == 0x21 || sfFormat w.surfIn == 0x30)
  | .dec | .vfy =>
    (w.surfIn.isEmpty || !(sfFormat w.surfIn == 0x21 || sfFormat w.surfIn == 0x30)) &&
      (w.surfOut.isEmpty || (if decUnpack w then sfFormat w.surfOut == 0x02 else slotFormats.contains (sfFormat w.surfOut)))
  | _ => true

/-- Both surface descriptors that are named were read. -/
def surfacesRead (w : WorkOrder) : Bool :=
  (woField w 40 8 == 0 || !w.surfIn.isEmpty) && (woField w 48 8 == 0 || !w.surfOut.isEmpty)

/-! Checks of the types without engines. -/

/-- R334. -/
def dmaChecks (w : WorkOrder) : Nat :=
  if 63 < dmaChannel w ∨ 2 ≤ woField w 65 1 ∨ 15 < woField w 66 1 ∨ woField w 72 8 % 64 ≠ 0 ∨ !zeroAt w.raw 67 5 ∨
      !zeroAt w.raw 80 176 then 0x31
  else if !hasRecord w.extra 66 then 0x20
  else 0

/-- The fields of R276, by operation. -/
def magwFieldsOk (w : WorkOrder) : Bool :=
  let op := woField w 64 1
  let src := mwSrc w
  decide (1 ≤ op) && decide (op ≤ 3) && decide (woField w 65 1 ≤ 15) && zeroAt w.raw 70 2 && zeroAt w.raw 176 80 &&
    (upto 0 4).all (fun i => zeroAt w.raw (124 + 16 * i) 4) &&
    (op != 1 || (decide (1 ≤ woField w 68 1) && decide (woField w 68 1 ≤ 32) && decide (5 ≤ woField w 69 1) && decide (woField w 69 1 ≤ 10))) &&
    (op != 2 || (decide (1 ≤ woField w 66 1) && decide (woField w 66 1 ≤ 3) && decide (woField w 67 1 ≤ 1) &&
      (if woField w 67 1 = 1 then handleGen (woField w 112 4) != 0 else src.all (fun e => handleGen e.1 != 0))))

/-- The checks of a MAGW at acceptance (R276, R277). -/
def magwChecks (w : WorkOrder) : Nat :=
  if !magwFieldsOk w then 0x31 else if woField w 64 1 = 1 ∧ !hasRecord w.extra 104 then 0x20 else 0

/-- The ranges and reserved fields of R371. -/
def nettxFieldsOk (w : WorkOrder) : Bool :=
  let m := woField w 64 1
  let p := woField w 66 2
  let l := woField w 70 1
  decide (m ≤ 2) && decide (woField w 65 1 ≤ 7) && p != 0 && decide (p < 64) && decide (woField w 68 2 ≤ 8191) &&
    (l == 0xFF || (decide (l ≤ 5) && !bitOf p l)) && (m != 1 || woField w 71 1 == 0 || woField w 71 1 == 2) &&
    (m == 0 || (decide (256 ≤ woField w 72 2) && decide (woField w 72 2 ≤ 8952) && decide (woField w 74 1 ≤ 127))) &&
    zeroAt w.raw 75 1 && zeroAt w.raw 88 168

/-- The checks of R371. -/
def nettxChecks (d : Device) (w : WorkOrder) : Nat :=
  let r := ringAt d (woField w 68 2)
  if !nettxFieldsOk w then 0x31
  else if !(r.en && r.consumer == ctxOwner w.ctx) then 0x42
  else if woField w 64 1 ≠ 0 ∧ !hasRecord w.extra 80 then 0x20
  else 0

/-- The fields of R258. -/
def ingestFieldsOk (w : WorkOrder) : Bool :=
  let within := fun (lo hi v : Nat) => decide (lo ≤ v) && decide (v ≤ hi)
  within 0x2B 0x2E (woField w 66 1) && decide (woField w 65 1 ≤ 15) && decide (woField w 67 1 < 8) &&
    within 16 20480 (igWidth w) && igWidth w % 2 == 0 && within 16 8704 (igHeight w) && igHeight w % 2 == 0 &&
    woField w 76 4 % 4096 == 0 && decide (igPitch w * igHeight w ≤ woField w 76 4) &&
    decide (woField w 76 4 + 256 + woField w 80 4 ≤ woField w 72 4) && within 1 1000 (woField w 84 2) && decide (woField w 86 1 ≤ 3) &&
    within 100 1000000 (woField w 88 4) && zeroAt w.raw 120 136 &&
    (!igCtrl w 2 || (decide (woField w 87 1 ≤ 3) && within 1 65535 (woField w 92 4) && within 1000000 1000000000 (woField w 112 8)))

/-- The checks of R259. -/
def ingestChecks (d : Device) (w : WorkOrder) : Nat :=
  if !gangOk d (woField w 64 1) ∨ !ingestFieldsOk w ∨
      d.ingest.runs.any (fun r => r.mask &&& woField w 64 1 != 0 && r.vc == woField w 65 1) then 0x31
  else if woField w 96 8 ≠ 0 ∧ !hasRecord w.extra 96 then 0x20
  else 0

/-- The ranges of R436, by operation. -/
def keyopChecks (w : WorkOrder) : Nat :=
  let op := woField w 64 1
  let input := handleGen (woField w 88 4) != 0 && woField w 92 4 % 8 == 0
  let output := handleGen (woField w 96 4) != 0 && woField w 100 4 % 8 == 0
  let m := woField w 67 1
  if decide (1 ≤ op) && decide (op ≤ 6) && zeroAt w.raw 112 144 && (!(op == 2 || op == 3) || decide (woField w 65 1 ≤ 31)) &&
      (!(op == 2 || op == 4) || decide (keySlotOf w ≤ 63)) && (!(op == 3 || op == 5) || input) && (op != 2 || output) &&
      (op != 6 || (decide (1 ≤ woField w 66 1) && decide (woField w 66 1 ≤ 63) && (m == 0 || m == 1 || m == 0xFF) &&
        decide (woField w 104 4 < 2 ^ 18) && decide (woField w 108 4 < 2 ^ 18))) then 0 else 0x31

/-- The ranges of R448, by operation. -/
def sealChecks (w : WorkOrder) : Nat :=
  let op := woField w 64 1
  let off := woField w 76 4
  if (op == 1 || op == 2) && zeroAt w.raw 65 3 && zeroAt w.raw 92 4 && zeroAt w.raw 128 128 && handleGen (woField w 72 4) != 0 &&
      handleGen (woField w 84 4) != 0 && woField w 88 4 % 8 == 0 &&
      (if op = 1 then off % 8 == 0 && decide (1 ≤ woField w 80 4) else decide (keySlotOf w ≤ 63) && off % 4096 == 0) then 0 else 0x31

/-! Placement (R74). -/

/-- First unit ID of a kind's engines, and how many there are. -/
def engineRange (k : WoKind) : Nat × Nat :=
  match k with
  | .pix => (96, 24)
  | .ana => (135, 12)
  | _ => (0, 96)

/-- Live work placed on engine u. -/
def engineLoad (d : Device) (u : Nat) : Nat := (d.wos.filter (fun v => woLive v && onEngines v.kind && (woEngines v).contains u)).length

/-- The verify engines lie outside a placement that starts at u (R109). -/
def verifyClear (w : WorkOrder) (u : Nat) : Bool :=
  !isEnc w || (verifyEngines w).all (fun v => !(upto u (woCount w)).contains v)

/-- The runs a dispatcher may choose: inside the kind's range, an ENCR in one truss, clear of the verify engines. -/
def runsFor (w : WorkOrder) : List Nat :=
  let (lo, n) := engineRange w.kind
  (upto lo (n + 1 - woCount w)).filter (fun u => verifyClear w u && (!isEncr w || u / 8 == (u + woCount w - 1) / 8))

/-- Queue lengths of a run of engines together. -/
def runLoad (d : Device) (w : WorkOrder) (u : Nat) : Nat := (upto u (woCount w)).foldl (fun n v => n + engineLoad d v) 0

/-- The dispatcher's choice: a run with the least load; which one on a tie is left open. -/
def chooseRun (d : Device) (w : WorkOrder) : Nat :=
  let l := runsFor w
  let best := l.filter (fun u => l.all (fun v => decide (runLoad d w u ≤ runLoad d w v)))
  (best[free d 156 % max 1 best.length]?).getD (engineRange w.kind).1

/-- The unit of a work order when it is accepted. -/
def placeUnit (d : Device) (w : WorkOrder) : Nat := if onEngines w.kind ∧ woFirstEng w = 0xFF then chooseRun d w else w.unit

/-! The checks in order. -/

/-- The checks after step 7. -/
def typeChecks (d : Device) (w : WorkOrder) : Nat :=
  match w.kind with
  | .enc | .encr => encChecks d w (verifyClear w w.unit)
  | .dec | .vfy => decChecks d w
  | .ana => anaChecks d w
  | .pix => pixChecks d w
  | .comp => compChecks d w
  | .dma => dmaChecks w
  | .magw => magwChecks w
  | .nettx => nettxChecks d w
  | .ingest => ingestChecks d w
  | .keyop => keyopChecks w
  | .seal => sealChecks w

/-- The status of the first check that fails (R77); 0 when every check passes. -/
def acceptStatus (d : Device) (w : WorkOrder) : Nat :=
  let hs := handlesStatus d (ctxOwner w.ctx) (allHandles w)
  if woField w 0 1 ≠ kindCode w.kind ∨ !headerOk w ∨ !placementOk w ∨ !noneOk w then 0x31
  else if woField w 16 2 ≠ w.ctx ∨ woField w 18 1 ≠ w.func then 0x42
  else if hs ≠ 0 then hs
  else if !surfacesRead w then 0x20
  else if !((woSurfaces w).all sfOk && sourceOk w) then 0x31
  else if !(woSurfaces w).all (sfFits d) then 0x20
  else if woDlMode w ≠ 0 ∧ woDeadline w ≠ 0 ∧ woDeadline w ≤ d.time then 0x12
  else typeChecks d w

/-- A refused work order ends with one final record (R77); a violation of ownership raises its event (R13). What was read at acceptance
stays known for the record; no engine has been chosen (R80). -/
def refuseWo (d : Device) (w : WorkOrder) (status : Nat) : Device :=
  let d := modWo d w.ticket (fun v => { v with surfIn := w.surfIn, surfOut := w.surfOut, extra := w.extra })
  let d := if status = 0x42 ∨ status = 0x43 then plumbEvent d 442 w.ticket else d
  stopQueued d w status

/-- What acceptance starts, by type (R96, R246, R258, R371). -/
def acceptKind (d : Device) (w : WorkOrder) : Device :=
  match w.kind with
  | .enc | .encr => encAccept d w
  | .comp => compAccept d w
  | .nettx => nettxBegin (modWo d w.ticket (fun v => { v with phase := .running })) w (woExtra w 80)
  | .ingest => ingestBegin d w (physOf w 96)
  | _ => d

/-- A work order passes every check: its buffers are held (R15), it joins its unit's queue (R75). -/
def takeWo (d : Device) (w : WorkOrder) : Device :=
  let is := (allHandles w).map handleIdx
  let d := is.foldl holdBuf d
  let w := { w with holds := is, seq := d.woSeq, phase := .queued }
  acceptKind (modWo { d with woSeq := d.woSeq + 1 } w.ticket (fun _ => w)) w

/-- A unit takes the dispatched work order of a ticket (R77). -/
def acceptWo (d : Device) (t : Nat) : Device :=
  match woAt d t with
  | none => d
  | some w =>
    if w.phase ≠ .dispatched ∨ streamWaits d w then d
    else
      let (d, w) := readAll d w
      let v := { w with unit := placeUnit d w, low := placeUnit d w }
      let st := acceptStatus d v
      if st = 0 then takeWo d v else refuseWo d w st

/-- WO_ACCEPT (R77). -/
def execWoAccept (t : Nat) (s : State) : Host.Outcome State Fault Refusal := done s (acceptWo s.dev t)

end Sys2Proof.Machine
end

