-- ==== Sys2Proof/Machine/Host.lean ====
section
/-! DEFINITION. The host port: link and power states (R405, R476), moderation timers (R404), virtual functions (R398), IDE (R402). -/

namespace Sys2Proof.Machine

/-- A configuration request to function f is served: boot has reached HOST_READY and no FLR of f runs (R407, R476). Otherwise it completes
with Configuration Request Retry Status. -/
def cfgServed (d : Device) (f : Nat) : Bool := decide (3 ≤ d.crp.stage) && funcOn d f && !funcBusy d f

/-- Every vector that is due tries to send (R405). -/
def tryDue (d : Device) : Device := d.host.vecs.foldl (fun d e => vecTry d (e.1 / 128) (e.1 % 128)) d

/-- The due vectors of one function try to send. -/
def tryFunc (d : Device) (f : Nat) : Device := (upto 0 128).foldl (fun d v => vecTry d f v) d

/-- The moderation timer of a vector expires (R404). -/
def vecTimer (d : Device) (f v : Nat) : Device :=
  let x := vecAt d f v
  match x.timer with
  | some t => if t ≤ d.up then vecTry (setVec d f v { x with timer := none, due := true }) f v else d
  | none => d

/-- Change the state of the host link. -/
def setLink (d : Device) (l : HLink) : Device := { d with host := { d.host with link := l } }

/-- Change every function. -/
def mapFuncs (d : Device) (g : Func → Func) : Device := (upto 0 16).foldl (fun d f => setFunc d f (g (funcAt d f))) d

/-- The link reaches L0 (R405): WAKE_N is released and held vectors send. -/
def linkL0 (d : Device) : Device :=
  if d.host.perst then d
  else tryDue (mapFuncs (setLink d .l0) (fun x => { x with wake := false }))

/-- The link enters L1 (R398). -/
def linkL1 (d : Device) : Device := if d.host.link = .l0 then setLink d .l1 else d

/-- Function f enters D3hot (R405). -/
def enterD3 (d : Device) (f : Nat) : Device :=
  let x := funcAt d f
  if cfgServed d f && x.d == .d0 then setFunc d f { x with d := .d3hot, pmeSent := false } else d

/-- Function f returns to D0 (R405): each due vector sends one message once its entry is unmasked. -/
def enterD0 (d : Device) (f : Nat) : Device :=
  let x := funcAt d f
  if cfgServed d f && x.d == .d3hot then tryFunc (setFunc d f { x with d := .d0 }) f else d

/-- MSI-X Enable of function f is written: vectors due meanwhile send (R405). -/
def msixEnable (d : Device) (f : Nat) (on : Bool) : Device :=
  if cfgServed d f then tryFunc (setFunc d f { funcAt d f with msixEn := on }) f else d

/-- NumVFs is written: it takes effect only while VF Enable is 0 (R398). More than TotalVFs, 15, is not stored. -/
def numVfsWrite (d : Device) (n : Nat) : Device :=
  if cfgServed d 0 && !d.host.vfEnable && decide (n ≤ 15) then { d with host := { d.host with numVfs := n } } else d

/-- VF Enable is set (R398). -/
def vfEnableSet (d : Device) : Device := if cfgServed d 0 then { d with host := { d.host with vfEnable := true } } else d

/-- VF Enable is cleared: an FLR of every VF (R398). -/
def vfEnableClear (d : Device) : Device :=
  if cfgServed d 0 && d.host.vfEnable then
    let d := (upto 1 d.host.numVfs).foldl flrStart d
    { d with host := { d.host with vfEnable := false } }
  else d

/-- The host sends PME_Turn_Off and the device acknowledges (R482). -/
def pmeTurnOff (d : Device) : Device := emit { d with host := { d.host with pmeOff := true } } .pmeAck

/-- The host port is held in reset: no link, no DOE session, no IDE stream (R476). -/
def portReset (d : Device) : Device := { d with host := { d.host with link := .down, perst := true, ide := [], spdm := Spdm.reset } }

/-- HOST_PERST_N falls (R476): D3cold when every function is in D3hot, otherwise an FLR of the PF. -/
def perstAssert (d : Device) : Device :=
  if d.host.perst then d
  else if (upto 0 16).all (fun f => !funcOn d f || (funcAt d f).d == .d3hot) then
    mapFuncs (portReset d) (fun x => if x.d = .d3hot then { x with d := .d3cold } else x)
  else portReset (flrStart d 0)

/-- HOST_PERST_N rises (R476): link training starts; functions leave D3cold with MSI-X disabled. -/
def perstRelease (d : Device) : Device :=
  if !d.host.perst then d
  else mapFuncs { d with host := { d.host with perst := false, pmeOff := false } }
    (fun x => if x.d = .d3cold then { x with d := .d0, msixEn := false } else x)

/-- WAKE_N is asserted (R405). -/
def wakeN (d : Device) : Bool := d.host.funcs.any (fun e => e.2.wake)

/-- IDE stream n: 0 the link stream, 1 to 4 selective ones. -/
def ideAt (d : Device) (n : Nat) : Ide := tget { open_ := false, secure := false, key := 0 } n d.host.ide

/-- Change IDE stream n. -/
def setIde (d : Device) (n : Nat) (x : Ide) : Device :=
  { d with host := { d.host with ide := tset { open_ := false, secure := false, key := 0 } n x d.host.ide } }

/-- A TLP of stream n fails IDE integrity (R402): dropped, the stream Insecure, the F1 event. -/
def ideFail (d : Device) (n : Nat) : Device :=
  if n < 5 ∧ (ideAt d n).open_ then plumbEvent (setIde d n { ideAt d n with secure := false }) 434 n else d

/-- HP_FSTAT of function f: HELD counts vectors due and not yet signalled. -/
def funcStat (d : Device) (f : Nat) : Nat :=
  let x := funcAt d f
  let held := (d.host.vecs.filter (fun e => e.1 / 128 == f && e.2.due && !canSend d f)).length
  ofFlag x.flr * 2 ^ 31 + ofFlag (d.host.link == .l1) * 2 ^ 30 + (if x.d = .d0 then 0 else 3) * 2 ^ 28 + ofFlag x.wake * 2 ^ 27 + held % 256

/-! Meanings. -/

/-- MSIX_TIMER_EXPIRE (R404). -/
def execMsixTimerExpire (f v : Nat) (s : State) : Host.Outcome State Fault Refusal := done s (vecTimer s.dev f v)

/-- LINK_L0_ENTRY (R405). -/
def execLinkL0Entry (s : State) : Host.Outcome State Fault Refusal := done s (linkL0 s.dev)

/-- LINK_L1_ENTRY (R405). -/
def execLinkL1Entry (s : State) : Host.Outcome State Fault Refusal := done s (linkL1 s.dev)

/-- D3HOT_ENTRY (R405). -/
def execD3hotEntry (f : Nat) (s : State) : Host.Outcome State Fault Refusal := done s (enterD3 s.dev f)

/-- D0_ENTRY (R405). -/
def execD0Entry (f : Nat) (s : State) : Host.Outcome State Fault Refusal := done s (enterD0 s.dev f)

/-- VF_ENABLE_SET (R398). -/
def execVfEnableSet (s : State) : Host.Outcome State Fault Refusal := done s (vfEnableSet s.dev)

/-- VF_ENABLE_CLEAR (R398). -/
def execVfEnableClear (s : State) : Host.Outcome State Fault Refusal := done s (vfEnableClear s.dev)

/-- PME_TURN_OFF (R482). -/
def execPmeTurnOff (s : State) : Host.Outcome State Fault Refusal := done s (pmeTurnOff s.dev)

/-- HOST_PERST_ASSERT (R476). -/
def execHostPerstAssert (s : State) : Host.Outcome State Fault Refusal := done s (perstAssert s.dev)

/-- HOST_PERST_RELEASE (R476). -/
def execHostPerstRelease (s : State) : Host.Outcome State Fault Refusal := done s (perstRelease s.dev)

/-- IDE_TLP_FAIL (R402). -/
def execIdeTlpFail (n : Nat) (s : State) : Host.Outcome State Fault Refusal := done s (ideFail s.dev n)

end Sys2Proof.Machine
end

