-- ==== Sys2Proof/Machine/Spdm.lean ====
section
/-! DEFINITION. DOE, SPDM and IDE key management (R402, R434, R435). Message codes and layouts are those of DMTF DSP0274 1.3 and of PCI Express
6.0, which the manual names without restating (PRESUMED). -/

namespace Sys2Proof.Machine

/-- Keystone's firmware runs, so it can answer (R402, R432). -/
def ksUp (d : Device) : Bool := d.ks.bootOk && !d.ks.stopped

/-- The alias key: derived from the identity key and the firmware measurement (R429). -/
def aliasKey (d : Device) : Nat := Config.sha384 (leBytes 48 (Config.fused 2) ++ leBytes 48 d.ks.fwMeas)

/-- A measurement of R435, index 1 to 5. -/
def measurement (fz : Fuses) (d : Device) (i : Nat) : List Byte :=
  match i with
  | 1 => leBytes 48 (Config.fused 5)
  | 2 => leBytes 48 d.ks.fwMeas
  | 3 => leBytes 48 (Config.sha384 (leBytes 2 fz.lcA ++ leBytes 2 fz.lcB ++ leBytes 1 fz.arb0 ++ leBytes 1 fz.arb1 ++ leBytes 1 fz.arb2 ++
      leBytes 1 fz.arb3 ++ leBytes 48 fz.makerHash))
  | 4 => leBytes 48 (Config.sha384 ((upto 0 12).flatMap (fun n =>
      (upto (8 * n) 8).flatMap (fun u => leBytes 4 (mcodeVer d u)) ++ leBytes 48 (tget Retained.reset n d.codec.keep).digest)))
  | _ => leBytes 48 d.ks.chain

/-- The certificate chain of slot 0 (R434). -/
def certChain (fz : Fuses) (d : Device) : List Byte :=
  let alias_ := Config.publicOf (aliasKey d) ++ (upto 1 3).flatMap (measurement fz d)
  Config.publicOf (Config.fused 11) ++ Config.publicOf (Config.fused 12) ++ Config.publicOf (Config.fused 2) ++ leBytes 48 (leNat d.ks.devFpr) ++
    alias_ ++ padTo 96 (Config.signBytes (Config.fused 2) alias_)

/-- A signature by AK (R434). -/
def akSign (d : Device) (msg : List Byte) : List Byte := padTo 96 (Config.signBytes (aliasKey d) msg)

/-- A response message: version 1.3, code, two parameters, body. -/
def spdmMsg (code p1 p2 : Nat) (body : List Byte) : List Byte := leBytes 1 0x13 ++ leBytes 1 code ++ leBytes 1 p1 ++ leBytes 1 p2 ++ body

/-- Change the responder. -/
def setSpdm (d : Device) (x : Spdm) : Device := { d with host := { d.host with spdm := x } }

/-- Answer a request: request and response join the transcript. -/
def spdmReply (d : Device) (req rsp : List Byte) (f : Spdm → Spdm) : Device :=
  let x := f d.host.spdm
  emit (setSpdm d { x with transcript := x.transcript ++ req ++ rsp }) (.spdm rsp)

/-- ERROR: code 4 unexpected request, 1 invalid request, 6 decrypt error. -/
def spdmError (d : Device) (code : Nat) : Device := emit d (.spdm (spdmMsg 0x7F code 0 []))

/-- A request that is answered only when Keystone runs and a condition of the protocol's order holds. -/
def spdmWhen (d : Device) (ok : Bool) (f : Device) : Device := if !ksUp d then d else if ok then f else spdmError d 4

/-- GET_VERSION: the connection starts afresh. -/
def getVersion (d : Device) (req : List Byte) : Device :=
  let rsp := leBytes 1 0x10 ++ leBytes 1 0x04 ++ leBytes 3 0 ++ leBytes 1 1 ++ leBytes 2 0x1300
  spdmWhen d true (spdmReply (setSpdm d { d.host.spdm with version := true, caps := false, algs := false, handshake := false, transcript := [] })
    req rsp id)

/-- GET_CAPABILITIES: certificates, challenge, measurements with signature, key exchange, encryption, MAC, heartbeat, key update. -/
def getCapabilities (d : Device) (req : List Byte) : Device :=
  spdmWhen d d.host.spdm.version
    (spdmReply d req (spdmMsg 0x61 0 0 (leBytes 4 0 ++ leBytes 1 0 ++ leBytes 3 0 ++ leBytes 4 0x000082F6)) (fun x => { x with caps := true }))

/-- NEGOTIATE_ALGORITHMS: ECDSA P-384, SHA-384, secp384r1, AES-256-GCM, if the request offers them (`offered`). -/
def negotiate (d : Device) (req : List Byte) (offered : Bool) : Device :=
  spdmWhen d d.host.spdm.caps
    (if offered then
      spdmReply d req (spdmMsg 0x63 2 0 (leBytes 4 0x00000080 ++ leBytes 4 0x00000002 ++ leBytes 2 0x0010 ++ leBytes 2 0x0002)) (fun x => { x with algs := true })
    else spdmError d 1)

/-- GET_DIGESTS: slot 0 only (R434). -/
def getDigests (fz : Fuses) (d : Device) (req : List Byte) : Device :=
  spdmWhen d d.host.spdm.algs (spdmReply d req (spdmMsg 0x01 0 1 (leBytes 48 (Config.sha384 (certChain fz d)))) id)

/-- GET_CERTIFICATE: part of the chain of slot 0. -/
def getCertificate (fz : Fuses) (d : Device) (req : List Byte) (slot off len : Nat) : Device :=
  let c := certChain fz d
  let part := (c.drop off).take len
  spdmWhen d d.host.spdm.algs
    (if slot = 0 then spdmReply d req (spdmMsg 0x02 0 0 (leBytes 2 part.length ++ leBytes 2 (c.length - off - part.length) ++ part)) id
     else spdmError d 1)

/-- A 32-byte nonce of a response. -/
def spdmNonce (d : Device) (k : Nat) : List Byte := leBytes 32 (free d k)

/-- CHALLENGE: signed with AK over the transcript (R434). -/
def challenge (fz : Fuses) (d : Device) (req : List Byte) (slot : Nat) : Device :=
  let body := spdmMsg 0x03 0 1 (leBytes 48 (Config.sha384 (certChain fz d)) ++ spdmNonce d 91 ++ leBytes 2 0)
  spdmWhen d d.host.spdm.algs
    (if slot = 0 then spdmReply d req (body ++ akSign d (d.host.spdm.transcript ++ req ++ body)) id else spdmError d 1)

/-- One measurement block: index, DMTF specification, size, a raw digest. -/
def measBlock (fz : Fuses) (d : Device) (i : Nat) : List Byte :=
  leBytes 1 i ++ leBytes 1 1 ++ leBytes 2 51 ++ leBytes 1 0 ++ leBytes 2 48 ++ measurement fz d i

/-- GET_MEASUREMENTS: index 0 asks for the number of blocks, 1 to 5 for one, 0xFF for all; signed with AK when asked (R435). -/
def getMeasurements (fz : Fuses) (d : Device) (req : List Byte) (i : Nat) (sign : Bool) : Device :=
  let l := if i = 0xFF then upto 1 5 else if 1 ≤ i ∧ i ≤ 5 then [i] else []
  let blocks := l.flatMap (measBlock fz d)
  let body := spdmMsg 0x60 (if i = 0 then 5 else 0) 0 (leBytes 1 l.length ++ leBytes 3 blocks.length ++ blocks ++ spdmNonce d 92 ++ leBytes 2 0)
  spdmWhen d d.host.spdm.algs
    (if i ≤ 5 ∨ i = 0xFF then spdmReply d req (if sign then body ++ akSign d (d.host.spdm.transcript ++ req ++ body) else body) id else spdmError d 1)

/-- KEY_EXCHANGE: a handshake starts under a fresh secp384r1 share. -/
def keyExchange (fz : Fuses) (d : Device) (req : List Byte) (slot : Nat) : Device :=
  let body := spdmMsg 0x64 0 0 (leBytes 2 (free d 93 % 65536) ++ leBytes 2 0 ++ spdmNonce d 94 ++ leBytes 96 (free d 95) ++
    leBytes 48 (Config.sha384 (certChain fz d)) ++ leBytes 2 0)
  spdmWhen d d.host.spdm.algs
    (if slot = 0 then spdmReply d req (body ++ akSign d (d.host.spdm.transcript ++ req ++ body)) (fun x => { x with handshake := true, key := free d 96 })
     else spdmError d 1)

/-- FINISH: the session opens when its verify data is right. -/
def finishSession (d : Device) (req : List Byte) (good : Bool) : Device :=
  spdmWhen d d.host.spdm.handshake
    (if good then spdmReply d req (spdmMsg 0x65 0 0 []) (fun x => { x with handshake := false, session := true })
     else spdmError (setSpdm d { d.host.spdm with handshake := false }) 6)

/-- HEARTBEAT. -/
def heartbeat (d : Device) (req : List Byte) : Device := spdmWhen d d.host.spdm.session (spdmReply d req (spdmMsg 0x68 0 0 []) id)

/-- KEY_UPDATE: operations 1 and 2 renew the session's keys, 3 verifies them. -/
def keyUpdate (d : Device) (req : List Byte) (op tag : Nat) : Device :=
  spdmWhen d d.host.spdm.session
    (if 1 ≤ op ∧ op ≤ 3 then
      spdmReply d req (spdmMsg 0x69 op tag []) (fun x => if op = 3 then x else { x with key := free d 97 })
    else spdmError d 1)

/-- END_SESSION. -/
def endSession (d : Device) (req : List Byte) : Device :=
  spdmWhen d d.host.spdm.session (spdmReply d req (spdmMsg 0x6C 0 0 []) (fun x => { x with session := false, key := 0 }))

/-- DOE discovery: entry `index` of the protocols 0 discovery, 1 CMA/SPDM, 2 secured CMA/SPDM, and the next index. -/
def doeDiscovery (d : Device) (index : Nat) : Device :=
  emit d (.doe (if index < 3 then leBytes 2 1 ++ leBytes 1 index ++ leBytes 1 ((index + 1) % 3) else leBytes 2 0xFFFF ++ leBytes 2 0))

/-- IDE_KM within a secure session: object 2 KEY_PROG, 4 K_SET_GO, 5 K_SET_STOP, for stream n; 0 QUERY. Outside a session it is not served. -/
def ideKm (d : Device) (obj n key : Nat) : Device :=
  let x := ideAt d n
  let rsp := fun (d : Device) (code st : Nat) => emit d (.ideKm (leBytes 1 code ++ leBytes 1 n ++ leBytes 1 st))
  if !d.host.spdm.session ∨ !ksUp d then d
  else if obj = 0 then rsp d 1 0
  else if obj = 2 then (if n < 5 then rsp (setIde d n { x with key := key }) 3 0 else rsp d 3 1)
  else if 5 ≤ n then d
  else if obj = 4 then rsp (setIde d n { x with open_ := true, secure := true }) 6 0
  else if obj = 5 then rsp (setIde d n { x with open_ := false, secure := false }) 6 0
  else d

/-! Meanings. -/

/-- GET_VERSION. -/
def execGetVersion (req : List Byte) (s : State) : Host.Outcome State Fault Refusal := done s (getVersion s.dev req)

/-- GET_CAPABILITIES. -/
def execGetCapabilities (req : List Byte) (s : State) : Host.Outcome State Fault Refusal := done s (getCapabilities s.dev req)

/-- NEGOTIATE_ALGORITHMS. -/
def execNegotiateAlgorithms (req : List Byte) (offered : Bool) (s : State) : Host.Outcome State Fault Refusal := done s (negotiate s.dev req offered)

/-- GET_DIGESTS. -/
def execGetDigests (req : List Byte) (s : State) : Host.Outcome State Fault Refusal := done s (getDigests s.fuses s.dev req)

/-- GET_CERTIFICATE (R434). -/
def execGetCertificate (req : List Byte) (slot off len : Nat) (s : State) : Host.Outcome State Fault Refusal :=
  done s (getCertificate s.fuses s.dev req slot off len)

/-- CHALLENGE (R434). -/
def execChallenge (req : List Byte) (slot : Nat) (s : State) : Host.Outcome State Fault Refusal := done s (challenge s.fuses s.dev req slot)

/-- GET_MEASUREMENTS (R435). -/
def execGetMeasurements (req : List Byte) (index : Nat) (sign : Bool) (s : State) : Host.Outcome State Fault Refusal :=
  done s (getMeasurements s.fuses s.dev req index sign)

/-- KEY_EXCHANGE. -/
def execKeyExchange (req : List Byte) (slot : Nat) (s : State) : Host.Outcome State Fault Refusal := done s (keyExchange s.fuses s.dev req slot)

/-- FINISH. -/
def execFinish (req : List Byte) (good : Bool) (s : State) : Host.Outcome State Fault Refusal := done s (finishSession s.dev req good)

/-- HEARTBEAT. -/
def execHeartbeat (req : List Byte) (s : State) : Host.Outcome State Fault Refusal := done s (heartbeat s.dev req)

/-- KEY_UPDATE. -/
def execKeyUpdate (req : List Byte) (op tag : Nat) (s : State) : Host.Outcome State Fault Refusal := done s (keyUpdate s.dev req op tag)

/-- END_SESSION. -/
def execEndSession (req : List Byte) (s : State) : Host.Outcome State Fault Refusal := done s (endSession s.dev req)

/-- DOE_DISCOVERY (R402). -/
def execDoeDiscovery (index : Nat) (s : State) : Host.Outcome State Fault Refusal := done s (doeDiscovery s.dev index)

/-- IDE_KM (R402). -/
def execIdeKm (obj stream key : Nat) (s : State) : Host.Outcome State Fault Refusal := done s (ideKm s.dev obj stream key)

end Sys2Proof.Machine
end

