-- ==== Sys2Proof/Machine/Qp.lean ====
section
/-! DEFINITION. The Quick Port (R408–R412), and the mailbox operations that all requesters share (R394, R423, R424). -/

namespace Sys2Proof.Machine

/-- QP_CLK runs: not in cold reset, POR or Sleep (R411). -/
def qpOn (d : Device) : Bool := !d.crp.resetHeld && d.crp.pwr != .sleep && d.crp.pwr != .waking

/-- Send a word on a channel; a proxy channel also sends it over Bond (R394, R423). -/
def wordSend (d : Device) (c : Nat) (w : Word32) : Device × Bool :=
  match mboxSend d c w with
  | (d, true) => (if isProxy d c then proxySend d c true w.toNat else d, true)
  | (d, false) => (d, false)

/-- Set doorbell bits; a proxy channel sends them over Bond instead (R394, R424). -/
def bellSet (d : Device) (c : Nat) (bits : Word32) : Device :=
  if isProxy d c then proxySend d c false bits.toNat else mboxRing d c bits

/-- Receive from a channel; a proxy channel stays full until the remote answers (R394, R423). -/
def wordRecv (d : Device) (c : Nat) : Device × Option Word32 :=
  if isProxy d c && (proxyAt d (c - 24)).msgs.any (·.word) then (d, none) else mboxRecv d c

/-- TOP_ID (R1). -/
def topId : Nat := 0x4960A100

/-- The fault summary at 0x030 (R409). -/
def qpFault (d : Device) : Nat := ofFlag (faultN d) * 2 ^ 31 + plumbHighest d * 2 ^ 28 + plumbOpen d % 65536

/-- The word at a QP address (R409). -/
def qpWord (d : Device) (a : Nat) : Nat :=
  if a = 0 then topId
  else if a = 1 then d.time % 2 ^ 32
  else if a = 2 then d.qpLatch
  else if 0x10 ≤ a ∧ a < 0x18 then match tfind (a - 0x10) d.ingest.arrivals with | some x => 2 ^ 31 + x.frame % 2 ^ 31 | none => 0
  else if 0x18 ≤ a ∧ a < 0x20 then match tfind (a - 0x18) d.ingest.arrivals with | some x => x.stamp % 2 ^ 32 | none => 0
  else if 0x20 ≤ a ∧ a < 0x30 then poolFree d (a - 0x20)
  else if a = 0x30 then qpFault d
  else if a = 0x31 then magEmerg d
  else if 0x100 ≤ a ∧ a < 0x200 then reg d (0x1001000 + 4 * (a - 0x100)) 0
  else 0

/-- A read: the word is driven, unless QP_CLK is stopped (R408, R411). A read of TIME_LO latches the high half (R409). -/
def qpRead (d : Device) (a : Nat) : Device :=
  if qpOn d then
    let d' := if a = 1 then { d with qpLatch := d.time / 2 ^ 32 } else d
    emit d' (.qp (qpWord d a))
  else d

/-- The value a write carries: undefined when it follows a read without the turnaround cycle (R408). -/
def qpValue (d : Device) (v : Word32) (clash : Bool) : Word32 := if clash then BitVec.ofNat 32 (free d 90) else v

/-- A write at 0x800–0x83F (R409, R412). A refused one is a violation of R13, whose event has no context to name: its detail is a free value. -/
def qpBell (d : Device) (a : Nat) (v : Word32) (clash : Bool) : Device :=
  if !qpOn d ∨ a < 0x800 ∨ 0x840 ≤ a then d
  else
    let c := a - 0x800
    if 32 ≤ c ∧ !d.qpSecure then plumbEvent { d with qpRefused := (d.qpRefused + 1) % 256 } 441 (free d 12)
    else bellSet d c (qpValue d v clash)

/-- A write at 0x900–0x90F (R409): the word is stored and "QP trigger k", source 112 + k of R413, is raised. -/
def qpTrigger (d : Device) (a : Nat) (v : Word32) (clash : Bool) : Device :=
  if !qpOn d ∨ a < 0x900 ∨ 0x910 ≤ a then d
  else
    let k := a - 0x900
    intcEvent { d with qpTrig := tset 0 k (qpValue d v clash).toNat d.qpTrig } (112 + k)

/-! Meanings. -/

/-- QP_READ (R409). -/
def execQpRead (a : Nat) (s : State) : Host.Outcome State Fault Refusal := done s (qpRead s.dev a)

/-- QP_READ_TIME_LO (R409). -/
def execQpReadTimeLo (s : State) : Host.Outcome State Fault Refusal := done s (qpRead s.dev 1)

/-- QP_DOORBELL_WRITE (R409). -/
def execQpDoorbellWrite (a : Nat) (v : Word32) (clash : Bool) (s : State) : Host.Outcome State Fault Refusal := done s (qpBell s.dev a v clash)

/-- QP_TRIGGER_WRITE (R409). -/
def execQpTriggerWrite (a : Nat) (v : Word32) (clash : Bool) (s : State) : Host.Outcome State Fault Refusal := done s (qpTrigger s.dev a v clash)

end Sys2Proof.Machine
end

