-- ==== Sys2Proof/Machine/Crp.lean ====
section
/-! DEFINITION. Reset (R473–R475, R501, R502), life-cycle changes (R453–R456), boot (R432, R477–R479) and power states (R480–R483). -/

namespace Sys2Proof.Machine

/-! Life-cycle fuses (R428, R452, R455). -/

/-- The code blown for a target of R454. -/
def lcCode (target : Nat) : Nat := if target = 0x10 then 0 else codeOfLc target

/-- Fuse fields other than LC_CODE that a request blows (R453). -/
def blowOther (fz : Fuses) (r : LcReq) : Fuses :=
  { fz with
    dusSet := fz.dusSet || r.target == 1
    dusKill := fz.dusKill || r.target == 4
    makerSet := fz.makerSet || r.target == 0x10
    makerHash := if r.target = 0x10 then r.maker else fz.makerHash }

/-- Step 5 of R455: the fuses are blown, both LC_CODE copies last. Blowing only adds bits. -/
def blowFuses (fz : Fuses) (r : LcReq) : Fuses :=
  { blowOther fz r with lcA := fz.lcA ||| lcCode r.target, lcB := fz.lcB ||| lcCode r.target }

/-- A power loss during step 5 (R456): what came before the LC_CODE copies may be blown or not, and of these any bits. -/
def blowPart (d : Device) (fz : Fuses) (r : LcReq) : Fuses :=
  if free d 150 % 2 = 0 then fz
  else { blowOther fz r with
    lcA := fz.lcA ||| (lcCode r.target &&& free d 151), lcB := fz.lcB ||| (lcCode r.target &&& free d 152) }

/-- The request whose fuses are being blown. -/
def lcBlowing (d : Device) : Option LcReq := match d.ks.req with | some r => if r.blowing then some r else none | none => none

/-! Resets. -/

/-- The device right after a reset that leaves only what no reset can touch: the model's counters and outputs, the levels at input
pins, and that VDD_AON lies in range. -/
def bareReset (d : Device) : Device :=
  { Device.reset with
    draw := d.draw, up := d.up, out := d.out, verdicts := d.verdicts, gpioIn := d.gpioIn
    ks := Keystone.reset d.draw
    host := { HostPort.reset with perst := d.host.perst }
    crp := { Crp.reset with upAt := d.up, stageAt := d.up } }

/-- Pins that a reset releases: SYNC_OUT outputs that are asserted, and SLEEP_N. -/
def resetPins (old d : Device) : Device :=
  let d := ((upto 0 4).filter (bitOf old.pins)).foldl (fun d p => emit d (.pin ("SYNC_OUT" ++ toString p) false)) d
  if old.crp.pwr = .sleep then emit d (.pin "SLEEP_N" true) else d

/-- XSPI_RESET_N goes low for 10 µs (R506). -/
def xspiReset (d : Device) : Device :=
  emit { d with crp := { d.crp with xspiLow := some (d.up + 10000) } } (.pin "XSPI_RESET_N" false)

/-- Plumb over a cold or warm reset: the safety domain keeps its configuration; counting, the watchdog's EN and a pending chip reset are
cleared (R464, R465). -/
def plumbKept (p : Plumb) : Plumb :=
  { p with esc := [], chip := none, wdEn := false, wdAt := 0, wdSecond := false, wdStopped := false }

/-- CE_MCHK over a reset other than POR: COUNT counts on from POR, the other fields take their reset values (R210). -/
def mchkKept (d : Device) : Table Mchk := d.codec.mchk.filterMap (fun e => if e.2.count = 0 then none else some (e.1, { Mchk.reset with count := e.2.count }))

/-- What every cold or warm reset keeps beside `bareReset`: Plumb, the tamper latch, the test access port, DRAM blocks that ECC cannot
correct, an ABS wipe that runs (R475), and what counts from POR. -/
def keepSafe (d e : Device) : Device :=
  { e with
    plumb := plumbKept d.plumb
    ks := { e.ks with tamper := d.ks.tamper, latched := d.ks.latched }
    tap := d.tap
    codec := { e.codec with mchk := mchkKept d }
    mem := { e.mem with badBlocks := d.mem.badBlocks, syndromes := d.mem.syndromes, absWiping := d.mem.absWiping } }

/-- A cold reset with a cause bit (R473, R474): everything outside the AON and safety domains; records of classes F0 to F3 go. -/
def coldReset (d : Device) (cause : Nat) : Device :=
  let e := keepSafe d (bareReset d)
  let recs := d.plumb.recs.filter (fun r => r.2.cls == 4)
  let e := { e with
    plumb := { e.plumb with recs := recs }
    crp := { e.crp with cause := d.crp.cause ||| 2 ^ cause, resetHeld := d.crp.resetHeld, aonDown := d.crp.aonDown
                        glitch := d.crp.glitch, latchF4 := d.crp.latchF4 } }
  xspiReset (resetPins d e)

/-- QP shadow words: byte offsets of the QP slot's 256 words (R409). -/
def isShadow (off : Nat) : Bool := decide (0x1001000 ≤ off) && decide (off < 0x1001400)

/-- A warm reset with a cause bit (R473, R474): everything outside the QP, safety and AON domains; device time keeps counting. -/
def warmReset (d : Device) (cause : Nat) : Device :=
  let e := keepSafe d (bareReset d)
  let e := { e with
    time := d.time, frac := d.frac, timeLatch := d.timeLatch
    regs := d.regs.filter (fun r => isShadow r.1)
    qpTrig := d.qpTrig, qpLatch := d.qpLatch, qpRefused := d.qpRefused
    crp := { e.crp with
      cause := d.crp.cause ||| 2 ^ cause, rootLock := d.crp.rootLock, xtalOk := d.crp.xtalOk, coarse := d.crp.coarse
      xspiLow := d.crp.xspiLow, aonDown := d.crp.aonDown, glitch := d.crp.glitch, latchF4 := d.crp.latchF4 } }
  resetPins d e

/-- Fuse blowing in progress finishes before a reset acts (R475). -/
def finishBlow (fz : Fuses) (d : Device) : Fuses := match lcBlowing d with | some r => blowFuses fz r | none => fz

/-- The state after a command that may change fuses. -/
def doneFuses (s : State) (x : Fuses × Device) : Host.Outcome State Fault Refusal := done { s with fuses := x.1 } x.2

/-- RESET_N low for at least 1 µs is a cold reset; its rise releases the device, and `TOP_TIME` counts from 0 (R473). -/
def coldPin (fz : Fuses) (d : Device) (low : Bool) : Fuses × Device :=
  if low then
    let e := coldReset d 30
    (finishBlow fz d, { e with crp := { e.crp with resetHeld := true } })
  else if d.crp.resetHeld then
    (fz, { d with time := 0, frac := 0, crp := { d.crp with
      resetHeld := false, upAt := d.up, stageAt := d.up, xspiLow := some (d.up + 10000) } })
  else (fz, d)

/-- A warm reset that has been asked for takes place: of Plumb once the emergency close has ended, else of software (R463, R473). A
life-cycle change that blows fuses ends in its own cold reset (R455, R475). -/
def warmTake (fz : Fuses) (d : Device) : Fuses × Device :=
  let go := fun (cause : Nat) (d : Device) =>
    match lcBlowing d with
    | some r => if r.wiped then (finishBlow fz d, coldReset d 29) else (finishBlow fz d, warmReset d cause)
    | none => (fz, warmReset d cause)
  if d.crp.resetHeld then (fz, d)
  else match d.plumb.chip with
  | some n =>
    if d.mag.emerg = [] then go 27 { d with plumb := { d.plumb with causeChip := true, causeSource := n } } else (fz, d)
  | none => if d.crp.pending then go 28 d else (fz, d)

/-- A write of CRP_RESET_CTRL (R473): KEY and WARM, by the PF or Keystone. -/
def warmAsk (d : Device) (v : Nat) : Device :=
  if bitsOf v 31 16 = 0x5752 ∧ bitOf v 0 then { d with crp := { d.crp with pending := true } } else d

/-- The zeroing of on-chip memories ends (R474); the boot flow needs the root PLL and does not wait for the crystal (R501). -/
def zeroDone (d : Device) (xtal : Bool) : Device :=
  if d.crp.resetHeld then d else { d with crp := { d.crp with zeroDone := true, rootLock := true, xtalOk := xtal } }

/-! Boot (R432, R477–R479). -/

/-- Boot reaches a stage now. -/
def toStage (d : Device) (n fail : Nat) : Device := { d with crp := { d.crp with stage := n, fail := fail, stageAt := d.up } }

/-- Boot fails and stays where it is (FAIL 3 and 4). -/
def bootFail (d : Device) (fail : Nat) : Device := { d with crp := { d.crp with fail := fail } }

/-- IMAGE_SIZE of a firmware copy. -/
def copySize (c : BootCopy) : Nat := fieldAt c.bytes 8 4

/-- SECURITY_VERSION of a firmware copy. -/
def copyVersion (c : BootCopy) : Nat := fieldAt c.bytes 12 4

/-- The firmware measurement of a copy (R432). -/
def copyMeas (c : BootCopy) : Nat := Config.sha384 (c.bytes.take (copySize c))

/-- Header and SECURITY_VERSION of a firmware copy that may run (R432). -/
def copyOk (fz : Fuses) (c : BootCopy) : Bool :=
  fieldAt c.bytes 0 4 == 0x5453594B && fieldAt c.bytes 4 2 == 1 && decide (copySize c + 3456 ≤ 0x800000) && decide (fz.arb0 ≤ copyVersion c)

/-- The signatures of a block of n bytes in the boot flash verify against the Queleivo key. -/
def flashOk (d : Device) (c : BootCopy) (n : Nat) : Device × Bool :=
  hybridOk d (signerKey Fuses.reset 1) (c.bytes.take n) ((c.bytes.drop n).take 3456) c.sigOk

/-- The device key record names the public keys that Keystone derives (R430). -/
def recordKeys (c : BootCopy) : Bool :=
  let part := fun o n => (c.bytes.drop o).take n
  fieldAt c.bytes 0 4 == 0x52444B51 && fieldAt c.bytes 4 2 == 1 &&
    part 24 97 ++ part 128 1952 ++ part 2080 97 ++ part 2184 1568 == Config.publicOf (Config.fused 3) ++ Config.publicOf (Config.fused 4)

/-- Keystone runs firmware copy n: its measurement, and whether DSK and DXK match their record (R430, R432). -/
def runCopy (d : Device) (n : Nat) (c record : BootCopy) : Device :=
  let (d, found) := flashOk (arbRun d 0 (copyVersion c)) record 3752
  toStage { d with ks := { d.ks with
    bootOk := true, copy := n, fwMeas := copyMeas c, record := recordKeys record && found
    devFpr := leBytes 48 (Config.sha384 (record.bytes.take 3752)) } } 1 0

/-- A firmware copy that may run is verified (R432 step 3). -/
def copyRuns (fz : Fuses) (d : Device) (c : BootCopy) : Device × Bool :=
  if copyOk fz c then flashOk d c (copySize c) else (d, false)

/-- The mode in which the ROM reads the flash after the boot header (R477, R506). A clock that the table does not allow is free. -/
def xspiMode (d : Device) (x : BootFlash) : Xspi :=
  let m := fieldAt x.header 5 2
  let mhz := if 25 ≤ m ∧ m ≤ 200 then m else 25 + free d 153 % 176
  match x.octal with
  | none => .single 25
  | some n => if fieldAt x.header 0 4 ≠ 0x48445142 then .single 25 else if fieldAt x.header 4 1 = 1 then .octal mhz n else .single mhz

/-- The ROM's steps of R432. -/
def bootRom (fz : Fuses) (d : Device) (flash : BootFlash) (a b record : BootCopy) : Device :=
  if lcState fz = none then
    let d := plumbEvent d 436 (fz.lcA % 65536 + fz.lcB % 65536 * 65536)
    toStage { d with ks := { d.ks with stopped := true } } 15 0
  else
    let d := { d with crp := { d.crp with header := flash.header, xspi := xspiMode d flash } }
    match copyRuns fz d a with
    | (d, true) => runCopy d 0 a record
    | (d, false) =>
      match copyRuns fz (plumbEvent d 435 0) b with
      | (d, true) => runCopy d 1 b record
      | (d, false) => toStage (plumbEvent d 435 1) 15 1

/-- Installed capacity in GiB of a MEM_CFG word (R290). -/
def installedGib (cfg : Nat) : Nat :=
  (if bitsOf cfg 24 23 = 0 then 64 else if bitsOf cfg 24 23 = 1 then 96 else 128) * (if bitOf cfg 25 then 2 else 1)

/-- A MEM_CFG word that some configuration of R290 has. -/
def memCfgOk (cfg : Nat) : Bool := bitsOf cfg 27 26 != 3 && bitsOf cfg 24 23 != 3 && decide (bitsOf cfg 18 16 ≤ 4)

/-- The DRAM controllers after training; `bad` says which channels failed. -/
def trained (d : Device) (bad : Nat → Bool) (ready : Bool) : Device :=
  (upto 0 16).foldl (fun d n => setDmc d n { dmcAt d n with ready := ready, failA := bad (2 * n), failB := bad (2 * n + 1) }) d

/-- DRAM training ends (R291, R306): MEM_CFG[27:16] comes from the boot header, and a value the table of R290 lacks fails every channel. -/
def bootDram (d : Device) (failed : List Nat) : Device :=
  let v := setBits (memCfg d) 27 16 (fieldAt d.crp.header 8 2 &&& 0xF87)
  let d := setReg d 0x4010000 0x03014018 v
  let bad := fun (c : Nat) => !memCfgOk v || failed.contains c
  if (upto 0 32).any bad then toStage (trained d bad false) 15 2
  else
    let gib := installedGib v
    let d := setReg d 0x4010000 0x03014018 (setBits v 31 31 1)
    toStage (trained (setReg d 0x4010004 0 (gib * 2 ^ 18 + gib * 1024 / 32 * 31)) bad true) 2 0

/-- The boot configuration block has the form of R478. -/
def bootBlockOk (b : List Byte) : Bool :=
  decide (3776 ≤ b.length) && fieldAt b 0 4 == 0x47434251 && fieldAt b 4 2 == 1 && decide (fieldAt b 6 1 < 2) && decide (fieldAt b 7 1 ≤ 7) &&
    fieldAt b 8 4 % 4096 == 0 && (fieldAt b 16 1 == 1 || fieldAt b 16 1 == 2) && zeroAt b 17 47 &&
    (upto 0 16).all (fun n => zeroAt b (64 + 16 * n + 12) 4)

/-- The pool registers of the block (R478). -/
def bootPools (b : List Byte) (d : Device) (n : Nat) : Device :=
  let o := 64 + 16 * n
  setReg (setReg (setReg d (0x600100 + 16 * n) (12 * 2 ^ 25) (fieldAt b o 4 &&& 0xFE1FFFFF))
    (0x600104 + 16 * n) 0 (fieldAt b (o + 4) 4 % 2 ^ 26)) (0x60010C + 16 * n) 0 (fieldAt b (o + 8) 4 % 2 ^ 21)

/-- Stage 4: the block verified, pools written and the Yard enabled. -/
def bootConfig (fz : Fuses) (d : Device) (b : List Byte) (sigOk : SigOk) : Device :=
  if !bootBlockOk b ∨ !keySigner fz (fieldAt b 16 1) then bootFail d 3
  else
    let (d, verified) := hybridOk d (signerKey fz (fieldAt b 16 1)) (b.take 320) ((b.drop 320).take 3456) sigOk
    if !verified then bootFail d 3
    else
    let d := yardEnable ((upto 0 16).foldl (bootPools b) d)
    if d.yard.en then
      toStage { d with ks := { d.ks with boot := b.take 64 } } 4 0
    else bootFail d 3

/-- Stage 5: with START, the image goes into a PF buffer of a pool of 1 MiB or larger, is loaded on MASON0 thread 0 with FUNC 0, and
started. -/
def bootProgram (fz : Fuses) (d : Device) (image : List Byte) (sigOk : SigOk) : Device :=
  if !bitOf (fieldAt d.ks.boot 6 1) 0 then d
  else
    let image := image.take (fieldAt d.ks.boot 12 4)
    match yardAlloc d (funcOwner 0) (max 0x100000 (fieldAt d.ks.boot 12 4)) with
    | (d, none) => bootFail d 4
    | (d, some h) =>
      match bufWrite d 32 h 0 image with
      | (d, false) => bootFail d 4
      | (d, true) =>
        let d := setReg (setReg d 0x3001000 7 (fieldAt d.ks.boot 7 1)) 0x3001004 0 h
        let d := loadComplete fz (mtLoad d 0) 0 sigOk
        if (ctxAt d 0).st = .loaded then toStage (mtStart d 0) 5 0 else bootFail d 4

/-- The work of the present boot stage ends (R479). -/
def bootAdvance (fz : Fuses) (d : Device) (x : BootIn) : Device :=
  if d.crp.resetHeld then d
  else match x with
    | .firmware flash a b record => if d.crp.stage = 0 ∧ d.crp.xspiLow = none then bootRom fz d flash a b record else d
    | .dram failed => if d.crp.stage = 1 then bootDram d failed else d
    | .hostReady => if d.crp.stage = 2 ∧ d.crp.zeroDone then toStage d 3 0 else d
    | .config b sigOk => if d.crp.stage = 3 ∧ !d.yard.en then bootConfig fz d b sigOk else d
    | .program image sigOk => if d.crp.stage = 4 ∧ (ctxAt d 0).st = .empty then bootProgram fz d image sigOk else d

/-- CRP_BOOT_STAT.MS: milliseconds from the release of reset to the present stage. -/
def bootMs (d : Device) : Nat := min 0xFFFF ((d.crp.stageAt - d.crp.upAt) / 1000000)

/-! Life-cycle requests (R453–R456). -/

/-- The request image has the form of R454. -/
def lcImageOk (b : List Byte) : Bool :=
  let t := fieldAt b 6 1
  fieldAt b 0 4 == 0x51434C51 && fieldAt b 4 2 == 1 && ((decide (1 ≤ t) && decide (t ≤ 4)) || t == 0x10) &&
    (fieldAt b 7 1 == 1 || fieldAt b 7 1 == 2) && (t == 0x10 || zeroAt b 72 48) && zeroAt b 120 8

/-- The request is permitted (R453): from a state, to a target, by a signer. -/
def lcPermitted (fz : Fuses) (target signer : Nat) : Bool :=
  keySigner fz signer &&
    match lcState fz, target with
    | some 0, 1 => signer == 1
    | some 1, 0x10 => signer == 1 && !fz.makerSet
    | some 1, 2 => signer == 2 && fz.makerSet
    | some 1, 4 => true
    | some 2, 3 => signer == 1
    | some 2, 4 => signer == 2
    | some 3, 4 => signer == 1
    | _, _ => false

/-- A request ends: its status, and a fresh nonce (R454). -/
def lcEnd (d : Device) (status : Nat) : Device :=
  { d with ks := { d.ks with req := none, lcStatus := status, nonce := free d 98 % 2 ^ 128 } }

/-- KS_LC_CTRL.GO by the PF (R454). `sigOk` says what a check of both signatures finds. -/
def lcGo (fz : Fuses) (d : Device) (sigOk : SigOk) : Device :=
  if d.ks.req.isSome then d
  else
    let h := reg d 0x100020 0
    let st := handleStatus d (funcOwner 0) h
    if st ≠ 0 then lcEnd (yardEvent d h) st
    else
      match bufRead d 32 h 0 3584 with
      | (d, none) => lcEnd d 0x20
      | (d, some b) =>
        let target := fieldAt b 6 1
        let fpr := if lcState fz = some 0 then leBytes 48 0 else d.ks.devFpr
        if !lcImageOk b then lcEnd d 0x31
        else if !lcPermitted fz target (fieldAt b 7 1) then lcEnd d 0x71
        else
        let (d, verified) := hybridOk d (signerKey fz (fieldAt b 7 1)) (b.take 128) (b.drop 128) sigOk
        if !verified ∨ fieldAt b 8 16 ≠ d.ks.nonce % 2 ^ 128 ∨ (b.drop 24).take 48 ≠ fpr then lcEnd d 0x70
        else
          let wipe := target != 0x10
          let r : LcReq := { target := target, maker := fieldAt b 72 48, wiped := wipe, blowing := !wipe }
          let d := { d with ks := { d.ks with req := some r } }
          if wipe then startEmergency d 7 (fun _ => true) else d

/-- Steps 2 to 4 of R455: threads and engines stop, ABS is wiped, Ashlar banks, CE local stores and DRAM are cleared. -/
def lcWipe (d : Device) : Device :=
  let d := { d with
    ctxs := [], threadRecs := [], tickets := [], wos := [], recs := [], dma := [], ingest := Ingest.reset, mag := Magazine.reset
    mortar := Mortar.reset, codec := Codec.reset, engines := [], eth := { d.eth with nettx := [] } }
  let d := absWipe d
  { d with mem := { d.mem with cells := [], saved := [], badUnits := [], badWords := [] } }

/-- LC_REQUEST_DONE: the wipe of an accepted request ends and fuse blowing begins; or the blowing ends, with the cold reset of step 6, or
for an enrolment with its status (R455). -/
def lcDone (fz : Fuses) (d : Device) : Fuses × Device :=
  match d.ks.req with
  | none => (fz, d)
  | some r =>
    if r.blowing then
      (blowFuses fz r, if r.wiped then coldReset d 29 else lcEnd d 0)
    else if d.mag.emerg ≠ [] then (fz, d)
    else
      let d := lcWipe d
      (fz, { d with ks := { d.ks with req := some { r with blowing := true } } })

/-! Power states (R480–R483). -/

/-- Change the power state. -/
def setPwr (d : Device) (p : Pwr) : Device := { d with crp := { d.crp with pwr := p } }

/-- The save buffer named by CRP_SLEEP_SAVE. -/
def saveHandle (d : Device) : Nat := reg d 0x6000048 0

/-- Bytes of the save of R482. -/
def saveBytes : Nat := 147324928

/-- An entry into Sleep is abandoned: the save buffer's hold ends, and the device is Active. -/
def abandonSleep (d : Device) (why : Nat) : Device :=
  let d := unholdBuf (setPwr d .active) (handleIdx (saveHandle d))
  { d with crp := { d.crp with refuse := why } }

/-- REQ = 0 (R481). -/
def reqActive (d : Device) : Device :=
  let d := { d with crp := { d.crp with req := 0 } }
  match d.crp.pwr with
  | .enterStandby | .standby => setPwr d .active
  | .saving => abandonSleep d d.crp.refuse
  | _ => d

/-- REQ = 1 (R481). -/
def reqStandby (d : Device) : Device :=
  let d := { d with crp := { d.crp with req := 1 } }
  if d.crp.pwr = .active then setPwr d .enterStandby else d

/-- Work on a truss: running, suspended or queued. -/
def trussBusy (d : Device) : Bool := d.wos.any (fun w => onEngines w.kind && (woLive w || w.phase == .dispatched))

/-- The gating of the engine domains completes (R481). -/
def standbyEnter (d : Device) : Device := if d.crp.pwr = .enterStandby ∧ !trussBusy d then setPwr d .standby else d

/-- A dispatch to a truss returns the device to Active (R481). -/
def wakeTruss (d : Device) : Device :=
  match d.crp.pwr with
  | .enterStandby | .standby => setPwr d .active
  | _ => d

/-- The save buffer is fit (R482, reason 5). -/
def saveFit (d : Device) : Bool :=
  let h := saveHandle d
  let a := bufBase d (handleIdx h)
  handleStatus d (funcOwner 0) h == 0 && decide (saveBytes ≤ bufSize d (handleIdx h)) && isSealedAddr d a &&
    regionFor d (a + saveBytes - 1) == regionFor d a

/-- Why Sleep is refused (R482), in the order of its list, or 0. -/
def sleepRefusal (d : Device) : Nat :=
  if d.tickets.any tkOpen then 1
  else if d.mag.clips ≠ [] then 2
  else if (upto 0 16).any (fun f => funcOn d f && (funcAt d f).d == .d0) || !d.host.pmeOff then 3
  else if d.ctxs.any (fun e => e.2.st == .ready) then 4
  else if !saveFit d then 5 else 0

/-- REQ = 2 (R482): refused, or the save starts. -/
def reqSleep (d : Device) : Device :=
  let d := { d with crp := { d.crp with req := 2 } }
  match d.crp.pwr with
  | .active | .enterStandby | .standby =>
    let why := sleepRefusal d
    if why ≠ 0 then { d with crp := { d.crp with refuse := why } }
    else
      let d := holdBuf d (handleIdx (saveHandle d))
      { d with crp := { d.crp with pwr := .saving, saveOk := true } }
  | _ => d

/-- Control registers that Sleep keeps: Plumb, Keystone, INTC and mailboxes, Yard, rings, QP, Mason, DMC, Ashlar and CRP. -/
def sleepReg (off : Nat) : Bool :=
  (decide (0x100000 ≤ off) && decide (off < 0x500000)) || (decide (0x600000 ≤ off) && decide (off < 0x800000)) ||
    (decide (0x1000000 ≤ off) && decide (off < 0x1100000)) || (decide (0x3000000 ≤ off) && decide (off < 0x7000000))

/-- What the save and the domains that keep power carry through Sleep (R480, R482): Ashlar, Yard contexts, rings and Mason contexts, INTC and
mailboxes, ABS, DRAM, Keystone, Plumb, the QP and the host functions in D3. The rest is as after reset. -/
def sleepKeep (d : Device) : Device :=
  { bareReset d with
    time := d.time, regs := d.regs.filter (fun r => sleepReg r.1), timeLatch := d.timeLatch, qpLatch := d.qpLatch
    ctxs := d.ctxs, threadRecs := d.threadRecs, rotation := d.rotation, lastIssue := d.lastIssue, issues := d.issues, tickets := d.tickets
    woSeq := d.woSeq, yard := d.yard, rings := d.rings, ringResets := d.ringResets, ringLast := d.ringLast
    ringLost := d.ringLost, intc := d.intc, mbox := d.mbox, plumb := d.plumb, ks := d.ks, crp := d.crp, qpSecure := d.qpSecure
    qpRefused := d.qpRefused, qpTrig := d.qpTrig, tap := d.tap, codec := { Codec.reset with mchk := mchkKept d }
    host := { d.host with link := .down, ide := [], spdm := Spdm.reset }
    mem := { d.mem with
      cells := d.mem.cells.filter (fun e => !(decide (0x081000000000 ≤ e.1) && decide (e.1 < 0x081006000000)))
      chans := [], served := [], scrubAt := [] } }

/-- The save fills its buffer (R482). No rule lays its bytes out, so they are free. -/
def saveFill (d : Device) : Device :=
  let a := bufBase d (handleIdx (saveHandle d))
  let d := wipeRange d a (a + saveBytes)
  { d with mem := { d.mem with
      saved := (a, a + saveBytes) :: d.mem.saved
      badBlocks := d.mem.badBlocks.filter (fun b => decide (b < a) || decide (a + saveBytes ≤ b)) } }

/-- The save ends, DRAM is in self-refresh, and SLEEP_N falls (R482, R503). -/
def sleepEnter (d : Device) : Device :=
  if d.crp.pwr = .saving then
    let e := resetPins d (sleepKeep (saveFill d))
    emit { e with crp := { e.crp with pwr := .sleep, sleepAt := d.up } } (.pin "SLEEP_N" false)
  else d

/-- A wake source is enabled (R483): 0 the pin, 1 the alarm, whose time has come, 2 HOST_PERST_N. -/
def wakeOn (d : Device) (src : Nat) : Bool :=
  bitOf (reg d 0x6000038 5) src && (src == 0 || src == 2 ||
    (src == 1 && decide (reg d 0x6000040 0 + 2 ^ 32 * reg d 0x6000044 0 ≤ d.time)))

/-- A wake source acts: in Sleep SLEEP_N rises and the exit starts; before the save has ended the entry is abandoned (R482, R483, R503). -/
def sleepWake (d : Device) (src : Nat) : Device :=
  if !wakeOn d src then d
  else match d.crp.pwr with
    | .saving => abandonSleep d 6
    | .sleep => emit (setPwr d .waking) (.pin "SLEEP_N" true)
    | _ => d

/-- How far device time may be off after Sleep (R483): 31 µs and 20 ppm of the time slept. -/
def coarseBound (d : Device) : Nat := 31000 + (d.up - d.crp.sleepAt) / 50000

/-- The exit from Sleep ends (R483): `ok` says that every rail came back in time and the save's MAC matches. -/
def sleepExit (d : Device) (ok : Bool) : Device :=
  if d.crp.pwr ≠ .waking then d
  else if ok ∧ d.crp.saveOk then
    let b := coarseBound d
    let t := d.time + free d 153 % (2 * b + 1) - b
    let since := d.mbox.since.map (fun e => (e.1, d.up))
    let e := unholdBuf { d with time := t % 2 ^ 64, mbox := { d.mbox with since := since } } (handleIdx (saveHandle d))
    { e with crp := { e.crp with pwr := .active, coarse := true, req := 0 } }
  else coldReset d 26

/-- VDD_AON falls below 0.70 V (R502): the AON and safety domains are reset and ABS is lost; the F4 latch and LATCHED stay, and a fall with
RESET_N high is latched. -/
def aonLoss (d : Device) : Device :=
  if d.crp.aonDown then d
  else
    let d := wipeRange d 0x080010000000 0x080010200000
    let f4 := d.plumb.recs.filter (fun r => r.2.cls == 4)
    { d with
      plumb := Plumb.reset
      ks := { d.ks with slots := [], recips := [], tamper := 0 }
      mem := { d.mem with absWiping := false, absWiped := false }
      crp := { d.crp with aonDown := true, latchF4 := f4, glitch := d.crp.glitch || !d.crp.resetHeld, cause := 0, coarse := false } }

/-- VDD_AON returns (R502). -/
def aonReturn (fz : Fuses) (d : Device) : Device :=
  if !d.crp.aonDown then d
  else
    let e := { d with plumb := { d.plumb with recs := d.crp.latchF4 }, crp := { d.crp with aonDown := false, latchF4 := [], glitch := false } }
    if d.crp.glitch then tamper fz e 4 else e

/-! Meanings. -/

/-- POR (R473): every supply has risen. `ordered` says that step 1 of R501 was kept; otherwise the AON and safety domains are undefined.
RESET_N is low until its last step. -/
def execPor (ordered : Bool) (s : State) : Host.Outcome State Fault Refusal :=
  if ordered then
    let d := s.dev
    let e := bareReset d
    doneFuses s (match lcBlowing d with | some r => blowPart d s.fuses r | none => s.fuses,
      xspiReset { e with host := HostPort.reset, crp := { e.crp with resetHeld := true } })
  else .fault .aonUndefined

/-- COLD_RESET (R473): RESET_N falls, or rises again. -/
def execColdReset (low : Bool) (s : State) : Host.Outcome State Fault Refusal := doneFuses s (coldPin s.fuses s.dev low)

/-- WARM_RESET (R473). -/
def execWarmReset (s : State) : Host.Outcome State Fault Refusal := doneFuses s (warmTake s.fuses s.dev)

/-- ZERO_DONE (R474). -/
def execZeroDone (xtal : Bool) (s : State) : Host.Outcome State Fault Refusal := done s (zeroDone s.dev xtal)

/-- BOOT_STAGE_ADVANCE (R479). -/
def execBootStageAdvance (x : BootIn) (s : State) : Host.Outcome State Fault Refusal := done s (bootAdvance s.fuses s.dev x)

/-- LC_REQUEST_DONE (R455). -/
def execLcRequestDone (s : State) : Host.Outcome State Fault Refusal := doneFuses s (lcDone s.fuses s.dev)

/-- STANDBY_ENTER (R481). -/
def execStandbyEnter (s : State) : Host.Outcome State Fault Refusal := done s (standbyEnter s.dev)

/-- SLEEP_ENTER (R482). -/
def execSleepEnter (s : State) : Host.Outcome State Fault Refusal := done s (sleepEnter s.dev)

/-- SLEEP_WAKE (R483). -/
def execSleepWake (src : Nat) (s : State) : Host.Outcome State Fault Refusal := done s (sleepWake s.dev src)

/-- SLEEP_EXIT_DONE (R483). -/
def execSleepExitDone (ok : Bool) (s : State) : Host.Outcome State Fault Refusal := done s (sleepExit s.dev ok)

/-- AON_SUPPLY_LOSS (R502). -/
def execAonSupplyLoss (s : State) : Host.Outcome State Fault Refusal := done s (aonLoss s.dev)

/-- AON_SUPPLY_RETURN (R502). -/
def execAonSupplyReturn (s : State) : Host.Outcome State Fault Refusal := done s (aonReturn s.fuses s.dev)

end Sys2Proof.Machine
end

