-- ==== Sys2Proof/Machine/Perf.lean ====
section
/-! DEFINITION. The performance monitor (R484–R491); fault and interrupt events from outside (R413, R458, R460); timers of the watchdog and the
mailboxes (R426, R465); temperature (R510) and the test access port (R509). -/

namespace Sys2Proof.Machine

/-! The performance monitor. -/

/-- FREEZE. -/
def perfFrozen (d : Device) : Bool := bitOf (reg d 0x500000 0) 30

/-- A write of PERF_CTRL (R485, R486). -/
def perfCtrlWrite (d : Device) (v : Nat) : Device :=
  let d := setReg d 0x500000 0 (v &&& 0xC0000000)
  if bitOf v 29 then { d with perf := { d.perf with cnt := [] } } else d

/-- A write of PERF_DUMP_CFG (R487): setting EN counts dumps from 0. -/
def dumpCfgWrite (d : Device) (v : Nat) : Device :=
  let was := bitOf (reg d 0x500004 1000) 31
  let d := setReg d 0x500004 1000 (v &&& 0x9FFFFFFF)
  { d with perf := { d.perf with
      dumps := if bitOf v 31 && !was then 0 else d.perf.dumps
      dumpAt := nextMultiple d (dumpPeriod d) } }

/-- A write of PERF_BW_CFG (R491): windows start when EN is set; a new width waits for the end of the present window. -/
def bwCfgWrite (d : Device) (v : Nat) : Device :=
  let was := bitOf (reg d 0x500018 1000) 31
  let d := setReg d 0x500018 1000 (v &&& 0x800FFFFF)
  if bitOf v 31 && !was then { d with perf := { d.perf with rd := [], wr := [], winAt := nextMultiple d (bwWindow d) } } else d

/-- The header entry of a dump (R487). -/
def dumpHeader (d : Device) : List Byte :=
  leBytes 4 0xFFFFFC00 ++ leBytes 4 0 ++ leBytes 8 d.time ++ leBytes 4 d.perf.dumps ++ leBytes 4 (ofFlag (perfFrozen d)) ++ leBytes 8 0

/-- Data entry i of a dump: counters 4i to 4i + 3. -/
def dumpEntry (d : Device) (i : Nat) : Entry :=
  { data := (upto (4 * i) 4).flatMap (fun k => leBytes 8 (tget 0 k d.perf.cnt)), sop := false, eop := i == 127 }

/-- A dump falls due (R487). -/
def perfDump (d : Device) : Device :=
  let cfg := reg d 0x500004 1000
  if !bitOf cfg 31 ∨ d.time < d.perf.dumpAt then d
  else
    let ring := bitsOf cfg 28 16
    let d := { d with perf := { d.perf with dumps := (d.perf.dumps + 1) % 2 ^ 32, dumpAt := nextMultiple d (dumpPeriod d) } }
    let d' := ringCheck d ring
    if unitRing d' ring ∧ 129 ≤ (ringAt d' ring).room then
      (upto 0 128).foldl (fun e i => (unitPush e ring (dumpEntry d i) false).1)
        (unitPush d' ring { data := dumpHeader d, sop := true, eop := false } true).1
    else { d' with perf := { d'.perf with dumpLost := (d'.perf.dumpLost + 1) % 65536 } }

/-- The record of a sample (R489). -/
def sampleBytes (x : PerfSample) : List Byte :=
  leBytes 4 0xFFFFFC01 ++ leBytes 2 x.counter ++ leBytes 1 x.flags ++ leBytes 1 0 ++ leBytes 8 x.time ++ leBytes 8 x.where0 ++
    leBytes 2 x.where1 ++ leBytes 6 0

/-- The oldest sample is pushed, or lost (R488). -/
def perfSample (d : Device) : Device :=
  match d.perf.samples with
  | [] => d
  | x :: rest =>
    let d := { d with perf := { d.perf with samples := rest } }
    let lost := fun (d : Device) => { d with perf := { d.perf with sampleLost := (d.perf.sampleLost + 1) % 65536 } }
    let cfg := reg d 0x500008 0
    if bitOf cfg 31 then
      match unitRecord d (bitsOf cfg 12 0) (sampleBytes x) with
      | (d, .appended) => d
      | (d, _) => lost d
    else lost d

/-- A bandwidth window reaches its boundary (R491). -/
def perfWindow (d : Device) : Device :=
  if bitOf (reg d 0x500018 1000) 31 ∧ d.perf.winAt ≤ d.time then bwClose d false else d

/-! Events from outside. -/

/-- The block reset of an event of source 443 (R458): at a new record, a higher class, or an event without a record (R461, R463). -/
def switchBlk (old d : Device) (n port : Nat) : Device :=
  let cls := fun (d : Device) => (openSlot d n).map (fun i => ((tfind i d.plumb.recs).map (·.cls)).getD 0)
  let fresh : Bool := match cls old, cls d with | some a, some b => decide (a < b) | _, _ => true
  if bitOf (plumbCfg old n) 26 ∧ fresh ∧ port < 10 then (upto 0 8).foldl (fun d c => flushQueue port c (queueAt d port c).length d) d else d

/-- A fault event reaches Plumb (R460), with the block reset of its source (R458). -/
def faultEvent (d : Device) (n detail : Nat) : Device :=
  if 144 ≤ n ∧ n < 240 then engineReset (plumbEvent d n detail) (n - 144)
  else if n = 443 then switchBlk d (plumbEvent d n detail) n detail
  else plumbRaise d n detail

/-! The test access port. -/

/-- What an instruction selects (R509): those that drive pins act only while RESET_N is low, debug instructions only where the
life-cycle state leaves debug open. -/
def tapSelect (fz : Fuses) (d : Device) (op : TapOp) : TapOp :=
  match op with
  | .extest | .extestPulse | .extestTrain => if d.crp.resetHeld then op else .bypass
  | .debug => if debugLocked fz then .bypass else op
  | _ => op

/-- The number of an instruction. -/
def tapCode : TapOp → Nat
  | .bypass => 0 | .idcode => 1 | .sample => 2 | .extest => 3 | .extestPulse => 4 | .extestTrain => 5 | .debug => 6

/-- An instruction is loaded (R509): IDCODE shifts out the device's identity. -/
def tapLoad (fz : Fuses) (d : Device) (op : TapOp) : Device :=
  let sel := tapSelect fz d op
  let d := { d with tap := { bypass := sel == .bypass, ir := tapCode sel } }
  if sel = .idcode then emit d (.tap 0x14960557) else d

/-! Meanings. -/

/-- PERF_DUMP (R487). -/
def execPerfDump (s : State) : Host.Outcome State Fault Refusal := done s (perfDump s.dev)

/-- PERF_SAMPLE (R488). -/
def execPerfSample (s : State) : Host.Outcome State Fault Refusal := done s (perfSample s.dev)

/-- PERF_BW_WINDOW (R491). -/
def execPerfBwWindow (s : State) : Host.Outcome State Fault Refusal := done s (perfWindow s.dev)

/-- PLUMB_EVENT (R460). -/
def execPlumbEvent (n detail : Nat) (s : State) : Host.Outcome State Fault Refusal := done s (faultEvent s.dev n detail)

/-- FABRIC_TIMEOUT (R458): source 444, with the requester. -/
def execFabricTimeout (r : Nat) (s : State) : Host.Outcome State Fault Refusal := done s (plumbEvent s.dev 444 r)

/-- WDOG_EXPIRE (R465). -/
def execWdogExpire (s : State) : Host.Outcome State Fault Refusal := done s (wdogExpire s.dev)

/-- INTC_EVENT (R413): one event of an edge source. -/
def execIntcEvent (n : Nat) (s : State) : Host.Outcome State Fault Refusal := done s (intcEvent s.dev n)

/-- MBX_CROSS_TIMEOUT (R426). -/
def execMbxCrossTimeout (k : Nat) (s : State) : Host.Outcome State Fault Refusal := done s (mbxCross s.dev k)

/-- TEMP_UPDATE (R510): the hottest sensor, in units of 1/16 °C. -/
def execTempUpdate (v : BitVec 16) (s : State) : Host.Outcome State Fault Refusal :=
  done s { s.dev with temp := v.toNat, tempValid := true }

/-- TAP_INSTRUCTION (R509). -/
def execTapInstruction (op : TapOp) (s : State) : Host.Outcome State Fault Refusal := done s (tapLoad s.fuses s.dev op)

end Sys2Proof.Machine
end

