-- ==== Sys2Proof/Machine/Ctl.lean ====
section
/-! DEFINITION. The control-register range (R6, R7, R10–R12, R32, R400, R513): who may reach a register, what each register reads as, and what
a write does. Registers are named by their offset from 0x0F00_0000_0000. -/

namespace Sys2Proof.Machine

/-! Who accesses (R12, R61, R400, R513). -/

/-- The function an access is made as; Keystone has none. -/
def whoFunc (d : Device) : Who → Option Nat
  | .host f => some f
  | .holt c => some (ctxAt d c).func
  | .keystone => none
  | .config f => some f

/-- The function whose own copies an access reaches; Keystone reaches the PF's. -/
def whoPage (d : Device) (who : Who) : Nat := (whoFunc d who).getD 0

/-- The access is the PF's (R513). -/
def isPf (d : Device) (who : Who) : Bool := whoFunc d who == some 0

/-- The access is Keystone's. -/
def isKeystone (who : Who) : Bool := who == .keystone

/-- The PF or Keystone. -/
def isAdmin (d : Device) (who : Who) : Bool := isPf d who || isKeystone who

/-- The requester's accesses are served: a host function exists and is not being reset (R89 step 1). -/
def whoLive (d : Device) (who : Who) : Bool :=
  match who with
  | .host f => funcOn d f && !funcBusy d f
  | .config _ => false
  | _ => true

/-- Channels 32 to 63 are open to the access (R422): Keystone and sealed contexts. -/
def secureOk (d : Device) (who : Who) : Bool :=
  match who with
  | .keystone => true
  | .holt c => (ctxAt d c).isSealed
  | _ => false

/-- An offset lies in the registers of a secure mailbox channel that is shut to the access (R13, R422). -/
def secureShut (d : Device) (who : Who) (off : Nat) : Bool := decide (0x400400 ≤ off) && decide (off < 0x400800) && !secureOk d who

/-- The violation of R13 by an access to a secure mailbox channel: a privilege trap of a Holt program, whose instruction word is not known
here, and the F1 event. An access by the host has no context to name in it, and the spec states no other detail: both are free values. -/
def secureViolation (d : Device) (who : Who) : Device :=
  match who with
  | .holt c => if c < 512 ∧ (ctxAt d c).st = .ready then takeTrap d c 7 0 (BitVec.ofNat 64 (free d 13)) else d
  | _ => plumbEvent d 441 (free d 12)

/-- The register an offset reaches (R399): the start of the HOSTPORT slot is the function's own page. -/
def canonOff (f off : Nat) : Nat := if 0xE00000 ≤ off ∧ off < 0xE01000 then ownPage f + (off - 0xE00000) else off

/-- The offset in its slot. -/
def slotOff (off : Nat) : Nat := off % 0x100000

/-- Context number and register of an offset of the per-thread registers of R62. -/
def mtReg (off : Nat) : Option (Nat × Nat) :=
  let m := off / 0x100000
  let o := slotOff off
  if 0x30 ≤ m ∧ m < 0x38 ∧ 0x1000 ≤ o ∧ o < 0x2000 then some ((m - 0x30) * 64 + (o - 0x1000) / 0x40, (o - 0x1000) % 0x40) else none

/-- Ring number and register of an offset of R332. -/
def ringReg (off : Nat) : Option (Nat × Nat) :=
  if 0x710000 ≤ off ∧ off < 0x750000 then some ((off - 0x710000) / 32, (off - 0x710000) % 32) else none

/-- Yard host registers (R320). -/
def isYardHost (off : Nat) : Bool := decide (0x600040 ≤ off) && decide (off < 0x600058)

/-- A VF has a word in its grant (R400). It reaches its own page at the start of the HOSTPORT slot only (R399), and a ring while that has a
producer and a consumer, that is, while it is enabled (R324). -/
def vfGrant (d : Device) (f off : Nat) (write : Bool) : Bool :=
  (!write && (off == 0 || off == 8 || off == 0xC)) || (decide (0xE00000 ≤ off) && decide (off < 0xE01000)) || isYardHost off ||
    (match mtReg off with | some (c, _) => assignFunc d c == f | none => false) ||
    (match ringReg off with
     | some (r, o) =>
       (ringAt d r).en && ((ringAt d r).producer == funcOwner f || (ringAt d r).consumer == funcOwner f) && o == (if write then 4 else 0xC)
     | none => false)

/-- A word of the range is in the grant of an access (R12, R400). -/
def wordGrant (d : Device) (who : Who) (off : Nat) (write : Bool) : Bool :=
  match whoFunc d who with
  | none => true
  | some 0 => true
  | some f => vfGrant d f off write

/-- The words an access of n bytes covers. -/
def wordsOf (off n : Nat) : List Nat := if n = 8 then [off, off + 4] else [off]

/-- The access is performed (R12, R32): 32 or 64 bits, aligned, every word granted, the requester served. -/
def ctlGrant (d : Device) (who : Who) (off n : Nat) (write : Bool) : Bool :=
  (n == 4 || n == 8) && off % n == 0 && whoLive d who && (wordsOf off n).all (fun o => wordGrant d who o write)

/-! Registers that only hold what is written: offset to writable bits and reset value. -/

/-- Index and remainder of an offset in a table of registers. -/
def tabOf (o base stride count : Nat) : Option (Nat × Nat) :=
  if base ≤ o ∧ o < base + stride * count then some ((o - base) / stride, (o - base) % stride) else none

/-- Plain registers of the network blocks: SWITCH, ETH, BOND. -/
def plainNet (off : Nat) : Option (Nat × Nat) :=
  match tabOf off 0x900100 8 8 with
  | some (_, r) => some (if r = 0 then (0xFC00FFFF, 0x18000000) else (0xFFFFFFFF, 256 * 2 ^ 16 + 40))
  | none =>
  if (tabOf off 0x900180 4 8).isSome then some (0xFFFFFFFF, 512 * 2 ^ 20 + 256 * 2 ^ 8 + 40)
  else match tabOf off 0x900200 16 10 with
  | some (_, 0) => some (0xC001FFFF, 2000)
  | _ =>
  match tabOf off 0x910000 16 4096 with
  | some (_, r) => some (if r = 0 then 0xFFFFFFFF else if r = 4 then 0x9FFFFFFF else if r = 8 then 0xFFFF else 0, 0)
  | none =>
  match tabOf off 0xA10000 64 1024 with
  | some (_, r) => some (if r < 24 ∨ r = 32 ∨ r = 40 then 0xFFFFFFFF else if r = 36 then 0xFF else 0, 0)
  | none =>
  if off = 0xA0010C then some (0x8000FFFF, 0)
  else if off = 0xA00120 then some (0x80001FFF, 0)
  else if off = 0xA00140 then some (0x9FFFFFFF, 100)
  else match tabOf off 0xA01000 0x100 6 with
  | some (_, r) => if r < 0x80 ∧ r % 16 = 0 then some (0x7FFFFFF, 0) else if r < 0x80 ∧ r % 16 = 4 then some (0xFC00FFFF, 20 * 2 ^ 26 + 16384) else none
  | none =>
  if off = 0xB00050 ∨ (0xB00080 ≤ off ∧ off < 0xB00090) then some (0xFFFFFFFF, 0) else none

/-- Plain registers of a function's own page (R401, R404). -/
def plainPage (off : Nat) : Option (Nat × Nat) :=
  match tabOf off 0xE10000 0x1000 16 with
  | some (_, r) =>
    if 0x900 ≤ r ∧ r < 0xB00 then some (0xFFFF00FF, 0)
    else if 0xC00 ≤ r ∧ r < 0xC80 then some (if r % 8 = 0 then 0xFFFFF000 else 0x8000FFFF, 0) else none
  | none => none

/-- The writable bits and reset value of a plain register. -/
def plainReg (off : Nat) : Option (Nat × Nat) :=
  match mtReg off with
  | some (_, 0) => some (0xF0007, 7)
  | some (_, 4) => some (0xFFFFFFFF, 0)
  | _ =>
  let m := off / 0x100000
  let o := slotOff off
  if off = 0x200 then some (0x80001FFF, 0)
  else if off = 0x300 ∨ off = 0x304 then some (0xFFFF, 0)
  else if off = 0x100020 then some (0xFFFFFFFF, 0)
  else if off = 0x400804 then some (0xFFFF, 100)
  else if off = 0x500008 then some (0x80001FFF, 0)
  else if 0x501000 ≤ off ∧ off < 0x501800 then some (0xE0FFFFFF, 0)
  else if 0x503000 ≤ off ∧ off < 0x504000 then some (0xFFFFFFFF, 0)
  else if off = 0x600050 then none
  else if off = 0x700000 then some (0xFFFF, 2000)
  else if m = 9 ∨ m = 10 ∨ m = 11 then plainNet off
  else if m = 14 then plainPage off
  else if 0x1001000 ≤ off ∧ off < 0x1001400 then some (0xFFFFFFFF, 0)
  else if 0xC00000 ≤ off ∧ off < 0xC00040 ∧ off % 16 = 4 then some (0xFFFFFFFF, 0)
  else if 0x20 ≤ m ∧ m < 0x2C ∧ o = 0x110 then some (0xFFFFFFFF, 0)
  else if 0x30 ≤ m ∧ m < 0x38 ∧ o = 0 then some (0x3F01, 1)
  else if 0x4010100 ≤ off ∧ off < 0x40101C0 then some (0xFFFF, qosDefault ((off - 0x4010100) / 4))
  else if off = 0x6000038 then some (7, 5)
  else if off = 0x6000040 ∨ off = 0x6000044 ∨ off = 0x6000048 then some (0xFFFFFFFF, 0)
  else none

/-! Reads without side effects, by block. -/

/-- The high or low word of a 64-bit value. -/
def half (v r : Nat) : Nat := if r = 0 then v % 2 ^ 32 else v / 2 ^ 32 % 2 ^ 32

/-- The word at offset o of a byte record. -/
def wordAt (b : List Byte) (o : Nat) : Nat := fieldAt b o 4

/-- The level at each GPIO ball (R508): what the device drives where OE is 1, else what comes from outside. -/
def gpioLevel (d : Device) : Nat :=
  let oe := reg d 0x304 0 % 2 ^ 16
  (reg d 0x300 0 &&& oe) ||| (d.gpioIn &&& (0xFFFF - oe))

/-- TOP (R1, R2, R88, R91, R508, R510). TOP_TIME and WO_LAST_PF_FLR are read by `ctlRead`. -/
def topWord (d : Device) (o : Nat) : Nat :=
  if o = 0 then topId
  else if o = 8 then half d.time 0
  else if o = 0xC then half d.time 4
  else if o = 0x208 then d.cancelMiss * 2 ^ 16 + d.cancelDone
  else if o = 0x308 then gpioLevel d
  else if o = 0x310 then ofFlag d.tempValid * 2 ^ 31 + d.temp % 2 ^ 16
  else 0

/-- KEYSTONE (R456). -/
def ksWord (fz : Fuses) (d : Device) (o : Nat) : Nat :=
  if o = 0 then ofFlag fz.makerSet * 2 ^ 31 + ofFlag (debugLocked fz) * 2 ^ 30 + (lcState fz).getD 0
  else if 0x10 ≤ o ∧ o < 0x20 then d.ks.nonce / 2 ^ (8 * (o - 0x10)) % 2 ^ 32
  else if o = 0x28 then ofFlag d.ks.req.isSome * 2 ^ 31 + d.ks.lcStatus % 256
  else if 0x40 ≤ o ∧ o < 0x50 then min 63 (tget 0 ((o - 0x40) / 4) d.ks.run) * 256 + arbCount fz ((o - 0x40) / 4)
  else if o = 0x60 then reg d 0x100060 1000
  else if o = 0x64 then ofFlag (keyDsk fz d) * 2 ^ 31 + d.ks.sealFail % 256 * 256 + d.ks.slots.length % 256
  else if o = 0x70 then ofFlag (d.ks.lock || lcState fz == some 2) * 2 ^ 31 + tamperEn fz d
  else if o = 0x74 then ofFlag d.ks.latched * 2 ^ 31 + d.ks.tamper % 128
  else if o = 0x80 then ofFlag d.ks.bootOk * 2 ^ 31 + d.ks.copy % 4
  else 0

/-- PLUMB (R466). -/
def plumbWord (d : Device) (o : Nat) : Nat :=
  if o = 0 then plumbStat d
  else if o = 4 then ofFlag d.plumb.causeChip * 2 ^ 31 + d.plumb.causeSource % 512
  else if o = 0x10 then ofFlag d.plumb.wdEn * 2 ^ 31 + d.plumb.wdBad * 2 ^ 24 + d.plumb.wdMs
  else match tabOf o 0x400 32 64 with
  | some (i, r) => wordAt (plumbRecBytes d i) r
  | none =>
  match tabOf o 0x1000 4 512 with
  | some (n, _) => plumbCfg d n
  | none =>
  match tabOf o 0x2000 4 512 with
  | some (n, _) => let e := escAt d n; e.raise * 2 ^ 30 + e.count % 256
  | none => 0

/-- INTC (R414–R419). Claim registers are read by `ctlRead`. -/
def intcWord (d : Device) (o : Nat) : Nat :=
  if o < 0x100 then pendWord d (o % 0x80 / 4)
  else if o < 0x200 then enWord d (o % 0x80 / 4)
  else if o < 0x280 then activeWord d (o % 0x80 / 4)
  else if o = 0x480 then d.intc.noCause * 2 ^ 16 + d.intc.emptyClaims
  else match tabOf o 0x1000 4 1024 with
  | some (n, _) => intcCfg d n
  | none => 0

/-- MBOX (R426): a closed channel reads 0. Receives are made by `ctlRead`. -/
def mboxWord (d : Device) (who : Who) (o : Nat) : Nat :=
  match tabOf o 0 32 64 with
  | some (c, r) =>
    if 32 ≤ c ∧ !secureOk d who then 0
    else
      let m := mboxAt d c
      if r = 0 then ofFlag m.full * 2 ^ 31 + ofFlag m.drop * 2 ^ 30
      else if r = 0x10 ∨ r = 0x14 then m.db.toNat
      else if r = 0x18 then m.dbEn.toNat else 0
  | none => if o = 0x800 then d.mbox.cross else 0

/-- PERF (R491). -/
def perfWord (d : Device) (o : Nat) : Nat :=
  if o = 0 then reg d 0x500000 0
  else if o = 4 then reg d 0x500004 1000
  else if o = 0x10 then d.perf.dumpLost * 2 ^ 16 + d.perf.sampleLost
  else if o = 0x18 then reg d 0x500018 1000 + ofFlag d.perf.short * 2 ^ 30
  else match tabOf o 0x2000 8 512 with
  | some (k, r) => half (tget 0 k d.perf.cnt) r
  | none =>
  match tabOf o 0x4000 16 48 with
  | some (n, r) => if r < 8 then half (tget 0 n d.perf.lastRd) r else half (tget 0 n d.perf.lastWr) (r - 8)
  | none => 0

/-- YARD (R320, R322). YARD_ALLOC is read by `ctlRead`. -/
def yardWord (d : Device) (f o : Nat) : Nat :=
  if o = 0 then ofFlag d.yard.en * 2 ^ 31 + ofFlag d.yard.err * 2 ^ 30
  else if o = 0x40 then (yardHost d f).size
  else if o = 0x50 then (yardHost d f).xferOwner
  else if o = 0x54 then (yardHost d f).op * 256 + (yardHost d f).status
  else if o = 0x60 then
    d.yard.winCount * 2 ^ 16 + ofFlag d.yard.winWrite * 2 ^ 15 + ofFlag d.yard.winHolt * 2 ^ 14 + d.yard.winWho % 512
  else if o = 0x68 then half (d.yard.winAddr % 2 ^ 48) 0
  else if o = 0x6C then half (d.yard.winAddr % 2 ^ 48) 4
  else match tabOf o 0x100 16 16 with
  | some (n, r) =>
    if r = 0 then poolCfg d n
    else if r = 4 then reg d (0x600104 + 16 * n) 0
    else if r = 8 then ofFlag (d.yard.low.contains n) * 2 ^ 31 + poolFree d n
    else if r = 12 then poolLow d n else 0
  | none => 0

/-- RING (R332). -/
def ringWord (d : Device) (off : Nat) : Nat :=
  if off = 0x700004 then d.ringResets * 2 ^ 16 + d.ringLast
  else if off = 0x700008 then d.ringLost
  else match ringReg off with
  | some (r, o) =>
    if o = 0 then (ringAt d r).consumer * 2 ^ 16 + (ringAt d r).producer
    else if o = 4 then ringCtrl d r
    else if o = 8 then (ringAt d r).store
    else if o = 12 then ringStat d r else 0
  | none => 0

/-- DMA (R345). -/
def dmaWord (d : Device) (o : Nat) : Nat :=
  match tabOf o 0x100 16 64 with
  | some (c, r) => if r = 0 then dmaStat d c else if r = 4 then (dmaAt d c).ticket else 0
  | none => 0

/-- SWITCH (R361). -/
def swWord (d : Device) (o : Nat) : Nat :=
  if o = 0 then freeCells d
  else match tabOf o 0x200 16 10 with
  | some (p, r) => if r = 4 then swStat d p else if r = 8 then swDropReg d p else 0
  | none => 0

/-- ETH (R362–R383). QHWM is read by `ctlRead`. -/
def ethWord (d : Device) (o : Nat) : Nat :=
  match tabOf o 0 16 4 with
  | some (p, r) => if r = 0 then ethPortCfg d p else if r = 4 then ethStat d p else 0
  | none =>
  if o = 0x108 then reg d 0xA00108 0
  else match tabOf o 0x180 16 2 with
  | some (n, r) => if r = 0 then sdiCfgRead d (4 + n) else if r = 4 then reg d (sdiOff (4 + n) + 4) 0 else 0
  | none =>
  match tabOf o 0x1000 0x100 6 with
  | some (p, r) => if r < 0x80 ∧ r % 16 = 0xC then ((tokens d p (r / 16)) % 2 ^ 32).toNat else 0
  | none =>
  match tabOf o 0x2000 0x100 6 with
  | some (p, r) =>
    if r = 0 then reg d (0xA02000 + p * 0x100) 1
    else if r = 8 ∨ r = 12 then reg d (0xA02000 + p * 0x100 + r) 0
    else if r = 0x10 then gateCycle d p
    else if r = 0x14 then gateStatus d p
    else if r = 0x18 then half (gateAt d p).startReg 0
    else if r = 0x1C then half (gateAt d p).startReg 4 else 0
  | none =>
  match tabOf o 0x4000 0x800 6 with
  | some (p, r) => reg d (0xA04000 + p * 0x800 + r) 0
  | none =>
  match tabOf o 0x10000 64 1024 with
  | some (i, r) => if r = 48 then (flowAt d i).dup % 2 ^ 32 else if r = 52 then (flowAt d i).drop % 2 ^ 32 else 0
  | none => 0

/-- BOND (R397). -/
def bondWord (d : Device) (o : Nat) : Nat :=
  if o = 0 then bondCfg d
  else match tabOf o 0x10 16 2 with
  | some (n, r) => if r = 0 then bondPortCfg d n else if r = 4 then bondPortStat d n else 0
  | none =>
  if o = 0x40 then bondTimeCtrl d
  else if o = 0x48 then half (bondTimeStat d) 0
  else if o = 0x4C then half (bondTimeStat d) 4
  else if o = 0x90 then reg d 0xB00090 0x42000000
  else match tabOf o 0x60 4 8 with
  | some (k, _) => proxyReg d k
  | none =>
  match tabOf o 0xA0 4 4 with
  | some (p, _) => let x := schedRx d p; ofFlag x.late * 2 ^ 31 + ofFlag x.valid * 2 ^ 30 + x.sseq
  | none => 0

/-- SDI, CSI and MAGAZINE (R270, R286, R289). -/
def mediaWord (d : Device) (off : Nat) : Nat :=
  match tabOf off 0xC00000 16 4 with
  | some (n, r) => if r = 0 then sdiCfgRead d n else 0
  | none =>
  match tabOf off 0xD00000 16 8 with
  | some (n, r) => if r = 0 then csiCfg d n else if r = 4 then csiStat d n else 0
  | none =>
  if off = 0xD00100 then d.ingest.dropped * 2 ^ 16 + d.ingest.overrun
  else if off = 0xF00000 then magCfg d
  else if off = 0xF00010 then magRpStat d 0
  else if off = 0xF00014 then magRpStat d 1
  else if off = 0xF00020 then magEmerg d
  else 0

/-- A function's own page (R399–R407): MSI-X table, PBA and status. -/
def pageWord (d : Device) (f r : Nat) : Nat :=
  if r < 0x800 then
    let x := vecAt d f (r / 16)
    if r % 16 = 0 then x.addr % 2 ^ 32 else if r % 16 = 4 then x.addr / 2 ^ 32 else if r % 16 = 8 then x.data else ofFlag x.masked
  else if r < 0x810 then wordOf ((r - 0x800) / 4) (fun v => (vecAt d f v).due)
  else if r = 0xF00 then funcStat d f
  else 0

/-- MORTAR (R253). -/
def mortarWord (d : Device) (o : Nat) : Nat :=
  if o = 0 then d.mortar.dressErr * 2 ^ 16 + d.mortar.wbLate
  else match tabOf o 0x100 16 6 with
  | some (n, r) =>
    let x := outAt d n
    if r = 0 then x.repeats * 2 ^ 16 + x.underrun
    else if r = 4 then x.frames % 2 ^ 32
    else if r = 8 then (x.prog.map (·.ticket)).getD 0xFFFFFFFF else 0
  | none => 0

/-- Truss n (R145, R179, R201, R209–R212). -/
def trussWord (d : Device) (n o : Nat) : Nat :=
  let k := fun (t : Table Nat) => tget 0 n t
  if o = 0x100 then k d.codec.fieldMiss * 2 ^ 16 + k d.codec.anaDone
  else if o = 0x104 then k d.codec.preempts * 2 ^ 16 + k d.codec.hrd * 2 ^ 8 + k d.codec.exhausted
  else if o = 0x108 then k d.codec.refMissing * 2 ^ 24 + k d.codec.bsErr * 2 ^ 16 + k d.codec.vfyBad * 2 ^ 8 + k d.codec.conceals
  else if o = 0x118 then patchStat d n
  else match tabOf o 0x200 4 8 with
  | some (e, _) => mcodeVer d (8 * n + e)
  | none =>
  match tabOf o 0x1000 0x100 8 with
  | some (e, r) =>
    let u := 8 * n + e
    if r = 0 then mcodeVer d u
    else if r = 4 then (progAt d u).routine % 16 * 2 ^ 28 + (progAt d u).steps % 2 ^ 28
    else if r = 8 then mchkWord (mchkAt d u) else 0
  | none => 0

/-- DMC n and the memory-system registers of slot 0x040 (R291, R296, R300, R305). -/
def dmcWord (d : Device) (n o : Nat) : Nat :=
  let x := dmcAt d n
  if o = 0 then
    ofFlag x.ready * 2 ^ 31 + ofFlag x.failA * 2 ^ 30 + ofFlag x.failB * 2 ^ 29 + x.corr * 2 ^ 16 + x.uncorr * 2 ^ 8 + x.forced
  else if o = 0x10 then ofFlag x.ovf * 2 ^ 31 + x.log.length * 2 ^ 8 + x.head
  else match tabOf o 0x100 32 16 with
  | some (i, r) => wordAt (dmcEntryBytes d n i) r
  | none =>
  if n ≠ 0 then 0
  else if o = 0x10000 then memCfg d
  else if o = 0x10004 then reg d 0x4010004 0
  else match tabOf o 0x10100 4 48 with
  | some (p, _) => urgency d p * 2 ^ 16 + qosTarget d p
  | none =>
  match tabOf o 0x10400 8 64 with
  | some (m, r) => if r = 0 then (regionRegs d m).1 else (regionRegs d m).2
  | none => 0

/-- ASHLAR (R308, R310, R311). -/
def ashlarWord (d : Device) (o : Nat) : Nat :=
  match tabOf o 0 4 32 with
  | some (n, _) =>
    let b := bankAt d n
    ofFlag b.pending * 2 ^ 31 + ofFlag b.wiping * 2 ^ 30 + ofFlag b.err * 2 ^ 29 + b.owner
  | none =>
  match tabOf o 0x100 4 33 with
  | some (n, _) => Config.fused (1000 + n) % 2 ^ 16
  | none =>
  if o = 0x200 then
    ofFlag d.mem.absWiping * 2 ^ 31 + ofFlag d.mem.absWiped * 2 ^ 30 + d.mem.violBank * 2 ^ 23 + d.mem.violReq * 2 ^ 17 + d.mem.viol
  else 0

/-- CRP (R476, R479, R483). -/
def crpWord (d : Device) (o : Nat) : Nat :=
  let c := d.crp
  if o = 0 then ofFlag c.rootLock * 2 ^ 31 + ofFlag c.xtalOk * 2 ^ 30 + (upto 0 4).foldl (fun v n => v + ofFlag (sdiLocked d n) * 2 ^ (26 + n)) 0
  else if o = 4 then (upto 0 4).foldl (fun v n => v + (sdiAt d n).realign % 256 * 2 ^ (8 * n)) 0
  else if o = 0x14 then c.cause
  else if o = 0x20 then c.stage * 2 ^ 28 + ofFlag c.zeroDone * 2 ^ 27 + c.fail * 2 ^ 16 + bootMs d
  else if o = 0x30 then c.req % 4
  else if o = 0x34 then
    (match c.pwr with | .standby | .saving => 1 | .sleep | .waking => 2 | _ => 0) * 2 ^ 30 + ofFlag c.coarse * 2 ^ 29 + c.refuse % 8
  else 0

/-- The per-thread and core registers of Mason core m (R62). -/
def masonWord (d : Device) (m o : Nat) : Nat :=
  if o = 4 then tkUsed d m
  else match tabOf o 0x1000 0x40 64 with
  | some (t, r) => if r = 0xC then mtState d (m * 64 + t) else 0
  | none => 0

/-- A word of the range as it reads, without side effects; `off` is canonical. Slots and offsets that nothing defines read 0 (R11). -/
def ctlWord (fz : Fuses) (d : Device) (who : Who) (off : Nat) : Nat :=
  match plainReg off with
  | some (_, rst) =>
    reg d off rst + (if 0x4010100 ≤ off ∧ off < 0x40101C0 then urgency d ((off - 0x4010100) / 4) * 2 ^ 16 else 0) +
      (if 0xA10000 ≤ off ∧ off < 0xA20000 then ethWord d (off - 0xA00000) else 0)
  | none =>
  let m := off / 0x100000
  let o := slotOff off
  if m = 0 then topWord d o
  else if m = 1 then ksWord fz d o
  else if m = 2 then plumbWord d o
  else if m = 3 then intcWord d o
  else if m = 4 then mboxWord d who o
  else if m = 5 then perfWord d o
  else if m = 6 then yardWord d (whoPage d who) o
  else if m = 7 then ringWord d off
  else if m = 8 then dmaWord d o
  else if m = 9 then swWord d o
  else if m = 10 then ethWord d o
  else if m = 11 then bondWord d o
  else if m = 12 ∨ m = 13 ∨ m = 15 then mediaWord d off
  else if m = 14 then (match tabOf off 0xE10000 0x1000 16 with | some (f, r) => pageWord d f r | none => 0)
  else if off = 0x1000000 then ofFlag d.qpSecure * 2 ^ 31 + d.qpRefused
  else if 0x1001400 ≤ off ∧ off < 0x1001440 then tget 0 ((off - 0x1001400) / 4) d.qpTrig
  else if m = 0x11 then mortarWord d o
  else if 0x20 ≤ m ∧ m < 0x2C then trussWord d (m - 0x20) o
  else if 0x30 ≤ m ∧ m < 0x38 then masonWord d (m - 0x30) o
  else if 0x40 ≤ m ∧ m < 0x50 then dmcWord d (m - 0x40) o
  else if m = 0x50 then ashlarWord d o
  else if m = 0x60 then crpWord d o
  else 0

/-! Reads with side effects. -/

/-- Who a latched TOP_TIME half is kept for (R2): a host function, or a requester. -/
def latchKey (who : Who) : Nat :=
  match who with
  | .host f => f
  | .config f => f
  | .holt c => 100 + 24 + coreOf c
  | .keystone => 100 + 32

/-- A 32-bit read of TOP_TIME at 0x008 (R2). -/
def timeReadLo (d : Device) (who : Who) : Device × Nat :=
  ({ d with timeLatch := tset 0 (latchKey who) (d.time / 2 ^ 32) d.timeLatch }, d.time % 2 ^ 32)

/-- A 64-bit read of MBX_CHc_RECV (R423, R426): VALID in bit 32. -/
def mbxRecvRead (d : Device) (who : Who) (c : Nat) : Device × Nat :=
  if 64 ≤ c ∨ (32 ≤ c ∧ !secureOk d who) then (d, 0)
  else match wordRecv d c with
  | (d, some w) => (d, 2 ^ 32 + w.toNat)
  | (d, none) => (d, 0)

/-- A granted read of one 32-bit word; `off` is canonical. -/
def wordRead (fz : Fuses) (d : Device) (who : Who) (off : Nat) : Device × Nat :=
  if off = 0x20C then lastPfFlr d
  else if off = 0x600044 then hostAlloc d (whoPage d who)
  else match tabOf off 0x300400 8 10 with
  | some (t, 0) => intcClaim d t
  | _ =>
  match tabOf off 0xE10000 0x1000 16 with
  | some (f, 0xE00) => intcClaim d (16 + f)
  | _ =>
  match tabOf off 0xA01000 0x100 6 with
  | some (p, r) => if r < 0x80 ∧ r % 16 = 8 then hwmRead d p (r / 16) else (d, ctlWord fz d who off)
  | none => (d, ctlWord fz d who off)

/-- A read of n bytes of the range (R12, R32): outside the grant it returns 0 and does nothing. A 32-bit read of TOP_TIME's high half returns
what the requester's last read of the low half latched, 0 before any such read; the latch is kept over a warm reset (R2; DESIGN CHOICE, log
entry 72). -/
def ctlRead (fz : Fuses) (d : Device) (who : Who) (off n : Nat) : Device × Nat :=
  if whoLive d who && secureShut d who off then (secureViolation d who, 0)
  else if !ctlGrant d who off n false then (d, 0)
  else
    let o := canonOff (whoPage d who) off
    if n = 4 then
      if o = 8 then timeReadLo d who
      else if o = 0xC then (d, tget 0 (latchKey who) d.timeLatch)
      else wordRead fz d who o
    else match tabOf o 0x400008 32 64 with
    | some (c, 0) => mbxRecvRead d who c
    | _ =>
      let (d, lo) := wordRead fz d who o
      let (d, hi) := wordRead fz d who (o + 4)
      (d, lo + 2 ^ 32 * hi)

/-! Writes. -/

/-- A write of MBX_CHc_SEND (R423): a send to a full channel sets SEND_DROP. -/
def mbxSendWrite (d : Device) (c : Nat) (v : Word32) : Device :=
  match wordSend d c v with
  | (d, true) => d
  | (d, false) => setMbox d c { mboxAt d c with drop := true }

/-- A write to a register of mailbox channel c (R426). -/
def mboxPut (d : Device) (c r v : Nat) : Device :=
  let w := BitVec.ofNat 32 v
  let m := mboxAt d c
  if r = 0 then setMbox d c { m with drop := m.drop && !bitOf v 30 }
  else if r = 4 then mbxSendWrite d c w
  else if r = 0x10 then bellSet d c w
  else if r = 0x14 then setMbox d c { m with db := m.db &&& ~~~ w }
  else if r = 0x18 then setMbox d c { m with dbEn := w }
  else d

/-- A word of a 64-bit value replaced. -/
def putHalf (old r v : Nat) : Nat := if r = 0 then setBits old 31 0 v else setBits old 63 32 v

/-- A write to PERF (R485, R486): the PF or Keystone. -/
def perfPut (d : Device) (o v : Nat) : Device :=
  if o = 0 then perfCtrlWrite d v
  else if o = 4 then dumpCfgWrite d v
  else if o = 0x18 then bwCfgWrite d v
  else match tabOf o 0x2000 8 512 with
  | some (k, r) => { d with perf := { d.perf with cnt := tset 0 k (putHalf (tget 0 k d.perf.cnt) r v) d.perf.cnt } }
  | none => d

/-- A write of YARD_POOLn_LOW (R317). -/
def lowWaterWrite (d : Device) (n v : Nat) : Device := lowUpdate (setReg d (0x60010C + 16 * n) 0 (v % 2 ^ 21)) n

/-- A write of YARD_CTRL (R312): ERR is W1C, EN is W1S. -/
def yardCtrlWrite (d : Device) (v : Nat) : Device :=
  let d := { d with yard := { d.yard with err := d.yard.err && !bitOf v 30 } }
  if bitOf v 31 then yardEnable d else d

/-- A write to YARD (R312, R317, R320). -/
def yardPut (d : Device) (f o v : Nat) : Device :=
  if o = 0 then yardCtrlWrite d v
  else if o = 0x40 then setYardHost d f { yardHost d f with size := v }
  else if o = 0x48 then hostFree d f v
  else if o = 0x4C then hostXfer d f v
  else if o = 0x50 then setYardHost d f { yardHost d f with xferOwner := v % 2 ^ 16 }
  else match tabOf o 0x100 16 16 with
  | some (n, r) =>
    if r = 0 then
      setReg d (0x600100 + 16 * n) (12 * 2 ^ 25) (if d.yard.en then setBits (poolCfg d n) 30 30 (bitsOf v 30 30) else v &&& 0xFE1FFFFF)
    else if r = 4 then (if d.yard.en then d else setReg d (0x600104 + 16 * n) 0 (v % 2 ^ 26))
    else if r = 12 then lowWaterWrite d n v else d
  | none => d

/-- A write to RING (R325, R330). A VF's write of RING_CTRL only resets (R400). -/
def ringPut (d : Device) (f : Nat) (vf : Bool) (off v : Nat) : Device :=
  match ringReg off with
  | some (r, o) =>
    if o = 0 then ringBindWrite d r v
    else if o = 4 then (if vf then (if bitOf v 30 then ringReset d r else d) else ringCtrlWrite d r f v)
    else if o = 8 then ringStoreWrite d r v
    else if o = 12 then setRing d r { ringAt d r with err := (ringAt d r).err && !bitOf v 30 } else d
  | none => d

/-- A write to ETH (R362–R383). -/
def ethPut (d : Device) (o v : Nat) : Device :=
  match tabOf o 0 16 4 with
  | some (p, r) =>
    if r = 0 then ethCfgWrite d p v
    else if r = 4 then setEthPort d p { ethPort d p with cfgErr := (ethPort d p).cfgErr && !bitOf v 27 } else d
  | none =>
  if o = 0x108 then timeRateWrite d v
  else match tabOf o 0x180 16 2 with
  | some (n, r) => if r = 0 then ipCfgWrite d n v else if r = 4 then ipTmplWrite d n v else d
  | none =>
  match tabOf o 0x2000 0x100 6 with
  | some (p, r) =>
    if r = 0 then gateCtrlWrite d p v
    else if r = 8 ∨ r = 12 then gateAdminWrite d p (0xA02000 + p * 0x100 + r) 0 (v % 2 ^ 32)
    else if r = 0x10 then gateAdminWrite d p (0xA02010 + p * 0x100) 1000000 (v % 2 ^ 32)
    else if r = 0x14 then
      let g := gateAt d p
      setGate d p { g with late := g.late && !bitOf v 30, err := g.err && !bitOf v 29 }
    else d
  | none =>
  match tabOf o 0x4000 0x800 6 with
  | some (p, r) => gateAdminWrite d p (0xA04000 + p * 0x800 + r) 0 (if r % 8 = 0 then v % 2 ^ 32 else v % 256)
  | none => d

/-- A write to BOND (R384–R397). -/
def bondPut (d : Device) (o v : Nat) : Device :=
  if o = 0 then bondCfgWrite d v
  else match tabOf o 0x10 16 2 with
  | some (n, r) => if r = 0 then bondPortCfgWrite d n v else d
  | none =>
  if o = 0x40 then bondTimeCtrlWrite d v
  else if o = 0x4C then { d with bond := { d.bond with extErr := d.bond.extErr && !bitOf v 29 } }
  else if o = 0x90 then schedCtrlWrite d v
  else match tabOf o 0x60 4 8 with
  | some (k, _) => proxyWrite d k v
  | none =>
  match tabOf o 0xA0 4 4 with
  | some (p, _) => { d with bond := { d.bond with rx := tset SchedRx.reset p { schedRx d p with late := (schedRx d p).late && !bitOf v 31 } d.bond.rx } }
  | none => d

/-- A write to SDI, CSI or MAGAZINE (R254, R273, R285, R287). -/
def mediaPut (d : Device) (pf : Bool) (off v : Nat) : Device :=
  match tabOf off 0xC00000 16 4 with
  | some (n, r) => if r = 0 then sdiCfgWrite d n v else d
  | none =>
  match tabOf off 0xD00000 16 8 with
  | some (n, r) =>
    if r = 0 then csiCfgWrite d n v
    else if r = 4 then setCsi d n { csiAt d n with cfgErr := (csiAt d n).cfgErr && !bitOf v 29 } else d
  | none =>
  if off = 0xF00000 then magCfgWrite d v
  else if off = 0xF00020 then magEmergWrite d (if pf then v else setBits v 28 28 0)
  else d

/-- A write to the MSI-X table of function f (R403, R404): a vector that is due sends once it is unmasked. -/
def pagePut (d : Device) (f r v : Nat) : Device :=
  if r < 0x800 then
    let n := r / 16
    let x := vecAt d f n
    if r % 16 = 0 then setVec d f n { x with addr := putHalf x.addr 0 (v / 4 * 4) }
    else if r % 16 = 4 then setVec d f n { x with addr := putHalf x.addr 4 v }
    else if r % 16 = 8 then setVec d f n { x with data := v % 2 ^ 32 }
    else vecTry (setVec d f n { x with masked := bitOf v 0 }) f n
  else if r = 0xE04 then intcComplete d (16 + f) v
  else d

/-- A write to INTC (R414–R418). -/
def intcPut (d : Device) (ks : Bool) (o v : Nat) : Device :=
  if o < 0x80 then pendSet d (o / 4) v
  else if o < 0x100 then pendClr d (o % 0x80 / 4) v
  else if o < 0x180 then enSet d (o % 0x80 / 4) v
  else if o < 0x200 then enClr d (o % 0x80 / 4) v
  else match tabOf o 0x400 8 10 with
  | some (t, r) => if r = 4 then intcComplete d t v else d
  | none =>
  match tabOf o 0x1000 4 1024 with
  | some (n, _) => intcCfgWrite d n v ks
  | none => d

/-- A write of PLUMB_RESET_CAUSE: CHIP is W1C. -/
def chipCauseClear (d : Device) (v : Nat) : Device :=
  { d with plumb := { d.plumb with causeChip := d.plumb.causeChip && !bitOf v 31 } }

/-- A write to PLUMB (R459–R465). -/
def plumbPut (d : Device) (o v : Nat) : Device :=
  if o = 0 then (if bitOf v 26 then plumbOvfClear d else d)
  else if o = 4 then chipCauseClear d v
  else if o = 8 then plumbRecClose d (v % 64)
  else if o = 0x10 then wdogCfgWrite d v
  else if o = 0x14 then wdogKick d v
  else match tabOf o 0x1000 4 512 with
  | some (n, _) => plumbCfgWrite d n v
  | none =>
  match tabOf o 0x2000 4 512 with
  | some (n, _) => if bitOf v 29 then plumbSrcClear d n else d
  | none => d

/-- A write to KEYSTONE (R433, R450, R454). What a fuse read-back and a signature check give is left open here. -/
def ksPut (fz : Fuses) (d : Device) (pf : Bool) (o v : Nat) : Fuses × Device :=
  if o = 0x24 then (fz, if pf ∧ bitOf v 31 then lcGo fz d { ec := free d 154 % 2 == 1, ml := free d 156 % 2 == 1 } else d)
  else if o = 0x50 then (if pf then arbCommit fz d (v % 4) (free d 155 % 2 == 1) else (fz, d))
  else if o = 0x60 then (fz, if d.mag.clips = [] then setReg d 0x100060 1000 v else d)
  else if o = 0x70 then (fz, tamperCfgWrite fz d v)
  else (fz, d)

/-- A write of MEM_CFG (R291): LOCK is W1S, and holds bits [27:16]. -/
def memCfgWrite (d : Device) (v : Nat) : Device :=
  let old := memCfg d
  let v := if bitOf old 31 then setBits v 27 16 (bitsOf old 27 16) else v
  setReg d 0x4010000 0x03014018 (setBits (v &&& 0x8F87FFFF) 31 31 (ofFlag (bitOf old 31 || bitOf v 31)))

/-- A write of DMC_LOG_STAT of controller n (R300). -/
def dmcLogWrite (d : Device) (n v : Nat) : Device :=
  let d := setDmc d n { dmcAt d n with ovf := (dmcAt d n).ovf && !bitOf v 31 }
  if bitOf v 4 then dmcLogPop d n else d

/-- Keystone writes one register of region n (R302). ERR is W1C. -/
def regionPut (d : Device) (n r v : Nat) : Device :=
  let (b, l) := regionRegs d n
  if r = 0 then (regionWrite d n v l).1
  else
    let d := if bitOf v 31 then setReg d (0x4010404 + 8 * n) 0 (setBits l 31 31 0) else d
    (regionWrite d n b v).1

/-- A write to the memory system (R291, R300, R302). -/
def dmcPut (d : Device) (ks : Bool) (n o v : Nat) : Device :=
  if o = 0x10 then dmcLogWrite d n v
  else if n ≠ 0 then d
  else if o = 0x10000 then memCfgWrite d v
  else match tabOf o 0x10400 8 64 with
  | some (m, r) => if ks then regionPut d m r v else d
  | none => d

/-- A write to CRP (R473, R481–R483). -/
def crpPut (d : Device) (pf ks : Bool) (o v : Nat) : Device :=
  if o = 0x10 then (if pf || ks then warmAsk d v else d)
  else if o = 0x14 then { d with crp := { d.crp with cause := d.crp.cause - (d.crp.cause &&& v) } }
  else if o = 0x30 then
    (if pf then (match v % 4 with | 1 => reqStandby d | 2 => reqSleep d | _ => reqActive d) else d)
  else if o = 0x34 then
    { d with crp := { d.crp with coarse := d.crp.coarse && !bitOf v 29, refuse := d.crp.refuse - (d.crp.refuse &&& v % 8) } }
  else d

/-- A write to truss n (R210, R213). -/
def trussPut (fz : Fuses) (d : Device) (pf : Bool) (n o v : Nat) : Device :=
  if o = 0x114 then (if pf && bitOf v 8 then patchGo fz d n v else d)
  else match tabOf o 0x1000 0x100 8 with
  | some (e, r) =>
    if r = 8 then setMchk d (8 * n + e) { mchkAt d (8 * n + e) with valid := (mchkAt d (8 * n + e)).valid && !bitOf v 31 } else d
  | none => d

/-- A write of ASHLAR_STAT: ABS_WIPED is W1C. -/
def ashStatWrite (d : Device) (v : Nat) : Device := { d with mem := { d.mem with absWiped := d.mem.absWiped && !bitOf v 30 } }

/-- The function whose ticket a writer of WO_CANCEL must name (R87): that of a Holt context. -/
def cancelOnly (d : Device) (who : Who) : Option Nat := match who with | .holt c => some (ctxAt d c).func | _ => none

/-- A write of WO_CANCEL (R87, R400). -/
def cancelWrite (d : Device) (who : Who) (t : Nat) : Device :=
  if !whoLive d who then d
  else match whoFunc d who with
  | some (f + 1) => cancelOutside d t (f + 1)
  | _ => cancelTicket d t (cancelOnly d who)

/-- A write to MT_CTRL or MT_STATE of context c (R62, R63). -/
def mtPut (d : Device) (c r v : Nat) : Device :=
  if r = 8 then mtCtrlWrite d c v
  else if r = 12 then setCtx d c { ctxAt d c with cmdErr := (ctxAt d c).cmdErr && !bitOf v 4 }
  else d

/-- TRUSS_PATCH_HANDLE of some truss. -/
def isPatchHandle (off : Nat) : Bool := decide (0x2000000 ≤ off) && decide (off < 0x2C00000) && slotOff off == 0x110

/-- A plain register is written: only the PF writes MT_ASSIGN (R61), of a context that is EMPTY (R62), and TRUSS_PATCH_HANDLE (R213). -/
def plainPut (d : Device) (who : Who) (off mask rst v : Nat) : Device :=
  let put := setReg d off rst (maskMerge mask (reg d off rst) v)
  match mtReg off with
  | some (c, 0) => if isAdmin d who && (ctxAt d c).st == .empty then put else d
  | _ => if isPatchHandle off && !isPf d who then d else put

/-- A granted write of one 32-bit word; `off` is canonical. -/
def wordWrite (fz : Fuses) (d : Device) (who : Who) (off v : Nat) : Fuses × Device :=
  let pf := isPf d who
  let ks := isKeystone who
  let f := whoPage d who
  match plainReg off with
  | some (mask, rst) => (fz, plainPut d who off mask rst v)
  | none =>
  let m := off / 0x100000
  let o := slotOff off
  if off = 0x204 then (fz, cancelWrite d who v)
  else if m = 1 then ksPut fz d pf o v
  else (fz,
    if m = 2 then plumbPut d o v
    else if m = 3 then intcPut d ks o v
    else if m = 4 then
      (match tabOf o 0 32 64 with
       | some (c, r) => if 32 ≤ c ∧ !secureOk d who then d else mboxPut d c r v
       | none => if o = 0x800 then mbxStatusWrite d v ks else d)
    else if m = 5 then perfPut d o v
    else if m = 6 then yardPut d f o v
    else if m = 7 then ringPut d f (!(pf || ks)) off v
    else if m = 8 then (match tabOf o 0x100 16 64 with | some (c, 8) => if bitOf v 0 then dmaDbell d c else d | _ => d)
    else if m = 10 then ethPut d o v
    else if m = 11 then bondPut d o v
    else if m = 12 ∨ m = 13 ∨ m = 15 then mediaPut d pf off v
    else if m = 14 then (match tabOf off 0xE10000 0x1000 16 with | some (g, r) => pagePut d g r v | none => d)
    else if off = 0x1000000 then (if ks then { d with qpSecure := bitOf v 31 } else d)
    else if 0x20 ≤ m ∧ m < 0x2C then trussPut fz d pf (m - 0x20) o v
    else if 0x40 ≤ m ∧ m < 0x50 then dmcPut d ks (m - 0x40) o v
    else if m = 0x50 then
      (match tabOf o 0 4 32 with
       | some (n, _) => if pf then ashOwnerWrite d n v else d
       | none => if o = 0x200 then ashStatWrite d v else d)
    else if m = 0x60 then crpPut d pf ks o v
    else match mtReg off with | some (c, r) => mtPut d c r v | none => d)

/-- A write of n bytes to the range (R12, R32): outside the grant it does nothing. -/
def ctlWrite (fz : Fuses) (d : Device) (who : Who) (off n v : Nat) : Fuses × Device :=
  if whoLive d who && secureShut d who off then (fz, secureViolation d who)
  else if !ctlGrant d who off n true then (fz, if n = 4 ∧ off = 0x204 then cancelWrite d who v else d)
  else
    let o := canonOff (whoPage d who) off
    if n = 4 then wordWrite fz d who o (v % 2 ^ 32)
    else if o = 0xA00100 then (fz, timeStepWrite d v)
    else
      let (fz, d) := wordWrite fz d who o (v % 2 ^ 32)
      wordWrite fz d who (o + 4) (v / 2 ^ 32 % 2 ^ 32)

/-- A value read goes back to a host requester (R12). -/
def answer (who : Who) (n : Nat) (x : Device × Nat) : Device :=
  match who with
  | .host f => emit x.1 (.hostData f (leBytes n x.2) false)
  | _ => x.1

end Sys2Proof.Machine
end

