-- ==== Sys2Proof/Machine/CtlCmds.lean ====
section
/-! DEFINITION. The register accesses that have rows of their own, each under its grant (R12, R61, R400), the write of any other register, and
the host window (R16, R321, R401). -/

namespace Sys2Proof.Machine

/-- A 32-bit write that the grant lets through. -/
def regDo (d : Device) (who : Who) (off : Nat) (d' : Device) : Device := if ctlGrant d who off 4 true then d' else d

/-- A 32-bit write that only the PF makes (R213, R285, R308, R481). -/
def pfDo (d : Device) (who : Who) (off : Nat) (d' : Device) : Device := if ctlGrant d who off 4 true && isPf d who then d' else d

/-- A read of n bytes that the grant lets through; otherwise it returns 0. -/
def regGet (d : Device) (who : Who) (off n : Nat) (x : Device × Nat) : Device := answer who n (if ctlGrant d who off n false then x else (d, 0))

/-! Thread commands. -/

/-- Offset of MT_CTRL of context c. -/
def mtCtrlOff (c : Nat) : Nat := 0x3001008 + c / 64 * 0x100000 + c % 64 * 0x40

/-- A write of MT_CTRL of context c. -/
def mtDo (d : Device) (who : Who) (c : Nat) (d' : Device) : Device := if c < 512 then regDo d who (mtCtrlOff c) d' else d

/-- MT_LOAD (R60). -/
def execMtLoad (who : Who) (c : Nat) (s : State) : Host.Outcome State Fault Refusal := done s (mtDo s.dev who c (mtLoad s.dev c))

/-- MT_START (R63). -/
def execMtStart (who : Who) (c : Nat) (s : State) : Host.Outcome State Fault Refusal := done s (mtDo s.dev who c (mtStart s.dev c))

/-- MT_STOP (R70). -/
def execMtStop (who : Who) (c : Nat) (s : State) : Host.Outcome State Fault Refusal := done s (mtDo s.dev who c (mtStop s.dev c))

/-- MT_RESUME (R63). -/
def execMtResume (who : Who) (c : Nat) (s : State) : Host.Outcome State Fault Refusal := done s (mtDo s.dev who c (mtResume s.dev c))

/-- MT_UNLOAD (R63). -/
def execMtUnload (who : Who) (c : Nat) (s : State) : Host.Outcome State Fault Refusal := done s (mtDo s.dev who c (mtUnload s.dev c))

/-! Work orders. -/

/-- WO_CANCEL (R87). -/
def execWoCancel (who : Who) (t : Nat) (s : State) : Host.Outcome State Fault Refusal :=
  done s (cancelWrite s.dev who t)

/-- WO_LAST_PF_FLR_READ (R91). -/
def execWoLastPfFlrRead (who : Who) (s : State) : Host.Outcome State Fault Refusal := done s (regGet s.dev who 0x20C 4 (lastPfFlr s.dev))

/-- TOP_TIME_READ_LO (R2). -/
def execTopTimeReadLo (who : Who) (s : State) : Host.Outcome State Fault Refusal := done s (regGet s.dev who 8 4 (timeReadLo s.dev who))

/-- TRUSS_PATCH_GO (R213): a load for the engines of `mask` on truss n. -/
def execTrussPatchGo (who : Who) (n : Nat) (mask : BitVec 8) (s : State) : Host.Outcome State Fault Refusal :=
  done s (if n < 12 then pfDo s.dev who (0x2000114 + n * 0x100000) (patchGo s.fuses s.dev n (256 + mask.toNat)) else s.dev)

/-! Media. -/

/-- CSI_PORT_CFG_WRITE (R254). -/
def execCsiPortCfgWrite (who : Who) (n : Nat) (v : Word32) (s : State) : Host.Outcome State Fault Refusal :=
  done s (if n < 8 then regDo s.dev who (0xD00000 + 16 * n) (csiCfgWrite s.dev n v.toNat) else s.dev)

/-- MAG_CFG_WRITE (R273). -/
def execMagCfgWrite (who : Who) (v : Word32) (s : State) : Host.Outcome State Fault Refusal :=
  done s (regDo s.dev who 0xF00000 (magCfgWrite s.dev v.toNat))

/-- MAG_EMERG_SW_TRIG (R285). -/
def execMagEmergSwTrig (who : Who) (s : State) : Host.Outcome State Fault Refusal :=
  done s (pfDo s.dev who 0xF00020 (magEmergWrite s.dev 0x10000000))

/-- SDI_CFG_WRITE (R287). -/
def execSdiCfgWrite (who : Who) (n : Nat) (v : Word32) (s : State) : Host.Outcome State Fault Refusal :=
  done s (if n < 4 then regDo s.dev who (0xC00000 + 16 * n) (sdiCfgWrite s.dev n v.toNat) else s.dev)

/-! Memory, Yard and rings. -/

/-- DMC_LOG_POP (R300). -/
def execDmcLogPop (who : Who) (n : Nat) (s : State) : Host.Outcome State Fault Refusal :=
  done s (if n < 16 then regDo s.dev who (0x4000010 + n * 0x100000) (dmcLogPop s.dev n) else s.dev)

/-- ASHLAR_OWNER_WRITE (R308). -/
def execAshlarOwnerWrite (who : Who) (n : Nat) (v : Word32) (s : State) : Host.Outcome State Fault Refusal :=
  done s (if n < 32 then pfDo s.dev who (0x5000000 + 4 * n) (ashOwnerWrite s.dev n v.toNat) else s.dev)

/-- YARD_CTRL_EN (R312). -/
def execYardCtrlEn (who : Who) (s : State) : Host.Outcome State Fault Refusal := done s (regDo s.dev who 0x600000 (yardCtrlWrite s.dev 0x80000000))

/-- YARD_ALLOC (R320): in the copy of the requester's function. -/
def execYardAlloc (who : Who) (s : State) : Host.Outcome State Fault Refusal :=
  done s (regGet s.dev who 0x600044 4 (hostAlloc s.dev (whoPage s.dev who)))

/-- YARD_FREE (R318, R320). -/
def execYardFree (who : Who) (h : Word32) (s : State) : Host.Outcome State Fault Refusal :=
  done s (regDo s.dev who 0x600048 (hostFree s.dev (whoPage s.dev who) h.toNat))

/-- YARD_XFER (R318, R320). -/
def execYardXfer (who : Who) (h : Word32) (s : State) : Host.Outcome State Fault Refusal :=
  done s (regDo s.dev who 0x60004C (hostXfer s.dev (whoPage s.dev who) h.toNat))

/-- YARD_LOW_WATER_WRITE (R317). -/
def execYardLowWaterWrite (who : Who) (n : Nat) (v : Word32) (s : State) : Host.Outcome State Fault Refusal :=
  done s (if n < 16 then regDo s.dev who (0x60010C + 16 * n) (lowWaterWrite s.dev n v.toNat) else s.dev)

/-- A write of RING_CTRL of ring n; a VF only resets (R400). -/
def ringDo (d : Device) (who : Who) (n v : Nat) : Device :=
  if n < 8192 then
    regDo d who (0x710004 + 32 * n)
      (if isAdmin d who then ringCtrlWrite d n (whoPage d who) v else if bitOf v 30 then ringReset d n else d)
  else d

/-- RING_ENABLE (R325): `v` gives the other fields. -/
def execRingEnable (who : Who) (n : Nat) (v : Word32) (s : State) : Host.Outcome State Fault Refusal :=
  done s (ringDo s.dev who n (setBits (setBits v.toNat 31 31 1) 30 30 0))

/-- RING_DISABLE (R325). -/
def execRingDisable (who : Who) (n : Nat) (v : Word32) (s : State) : Host.Outcome State Fault Refusal :=
  done s (ringDo s.dev who n (setBits (setBits v.toNat 31 31 0) 30 30 0))

/-- RING_RESET (R330). -/
def execRingReset (who : Who) (n : Nat) (v : Word32) (s : State) : Host.Outcome State Fault Refusal :=
  done s (ringDo s.dev who n (setBits v.toNat 30 30 1))

/-- DMA_DBELL (R341). -/
def execDmaDbell (who : Who) (c : Nat) (s : State) : Host.Outcome State Fault Refusal :=
  done s (if c < 64 then regDo s.dev who (0x800108 + 16 * c) (dmaDbell s.dev c) else s.dev)

/-! Network. -/

/-- ETH_PORT_CFG_WRITE (R362). -/
def execEthPortCfgWrite (who : Who) (p : Nat) (v : Word32) (s : State) : Host.Outcome State Fault Refusal :=
  done s (if p < 4 then regDo s.dev who (0xA00000 + 16 * p) (ethCfgWrite s.dev p v.toNat) else s.dev)

/-- ETH_TIME_STEP (R365): one 64-bit write. -/
def execEthTimeStep (who : Who) (v : Word) (s : State) : Host.Outcome State Fault Refusal :=
  done s (if ctlGrant s.dev who 0xA00100 8 true then timeStepWrite s.dev v.toNat else s.dev)

/-- ETH_TIME_RATE (R364). -/
def execEthTimeRate (who : Who) (v : Word32) (s : State) : Host.Outcome State Fault Refusal :=
  done s (regDo s.dev who 0xA00108 (timeRateWrite s.dev v.toNat))

/-- ETH_IP_CFG_WRITE (R376). -/
def execEthIpCfgWrite (who : Who) (n : Nat) (v : Word32) (s : State) : Host.Outcome State Fault Refusal :=
  done s (if n < 2 then regDo s.dev who (0xA00180 + 16 * n) (ipCfgWrite s.dev n v.toNat) else s.dev)

/-- ETH_QHWM_READ (R380). -/
def execEthQhwmRead (who : Who) (p c : Nat) (s : State) : Host.Outcome State Fault Refusal :=
  done s (if p < 6 ∧ c < 8 then regGet s.dev who (0xA01008 + 0x100 * p + 16 * c) 4 (hwmRead s.dev p c) else s.dev)

/-- GATE_CHANGE (R382): `v` gives the other fields of GATE_CTRL. -/
def execGateChange (who : Who) (p : Nat) (v : Word32) (s : State) : Host.Outcome State Fault Refusal :=
  done s (if p < 6 then regDo s.dev who (0xA02000 + 0x100 * p) (gateCtrlWrite s.dev p (setBits v.toNat 30 30 1)) else s.dev)

/-- BOND_SCHED_GO (R392): `v` gives the other fields of BOND_SCHED_CTRL. -/
def execBondSchedGo (who : Who) (v : Word32) (s : State) : Host.Outcome State Fault Refusal :=
  done s (regDo s.dev who 0xB00090 (schedCtrlWrite s.dev (setBits v.toNat 31 31 1)))

/-! Interrupts and mailboxes. -/

/-- Offset at which a requester reaches claim register r: target 0 to 9, or 16 + f for the page of function f, which is its own page or
one that the PF reaches (R399, R417). -/
def claimOff (d : Device) (who : Who) (r : Nat) : Nat :=
  if r < 16 then 0x300400 + 8 * r
  else if whoFunc d who = some (r - 16) then 0xE00E00
  else 0xE10E00 + 0x1000 * (r - 16)

/-- A claim register exists. -/
def claimReg (r : Nat) : Bool := decide (r < 10) || (decide (16 ≤ r) && decide (r < 32))

/-- INTC_CLAIM (R417). -/
def execIntcClaim (who : Who) (r : Nat) (s : State) : Host.Outcome State Fault Refusal :=
  done s (if claimReg r then regGet s.dev who (claimOff s.dev who r) 4 (intcClaim s.dev r) else s.dev)

/-- INTC_COMPLETE (R418). -/
def execIntcComplete (who : Who) (r : Nat) (v : Word32) (s : State) : Host.Outcome State Fault Refusal :=
  done s (if claimReg r then regDo s.dev who (claimOff s.dev who r + 4) (intcComplete s.dev r v.toNat) else s.dev)

/-- INTC_PEND_SET (R415). -/
def execIntcPendSet (who : Who) (w : Nat) (v : Word32) (s : State) : Host.Outcome State Fault Refusal :=
  done s (if w < 32 then regDo s.dev who (0x300000 + 4 * w) (pendSet s.dev w v.toNat) else s.dev)

/-- INTC_PEND_CLR (R415). -/
def execIntcPendClr (who : Who) (w : Nat) (v : Word32) (s : State) : Host.Outcome State Fault Refusal :=
  done s (if w < 32 then regDo s.dev who (0x300080 + 4 * w) (pendClr s.dev w v.toNat) else s.dev)

/-- INTC_EN_SET (R415). -/
def execIntcEnSet (who : Who) (w : Nat) (v : Word32) (s : State) : Host.Outcome State Fault Refusal :=
  done s (if w < 32 then regDo s.dev who (0x300100 + 4 * w) (enSet s.dev w v.toNat) else s.dev)

/-- INTC_EN_CLR (R415). -/
def execIntcEnClr (who : Who) (w : Nat) (v : Word32) (s : State) : Host.Outcome State Fault Refusal :=
  done s (if w < 32 then regDo s.dev who (0x300180 + 4 * w) (enClr s.dev w v.toNat) else s.dev)

/-- A write of register r of channel c that comes to d' where the channel is open to the access (R13, R422). -/
def mbxDo (d : Device) (who : Who) (c r : Nat) (d' : Device) : Device :=
  if 64 ≤ c then d
  else if whoLive d who && secureShut d who (0x400000 + 32 * c) then secureViolation d who
  else regDo d who (0x400000 + 32 * c + r) d'

/-- MBX_SEND_WRITE (R423). -/
def execMbxSendWrite (who : Who) (c : Nat) (v : Word32) (s : State) : Host.Outcome State Fault Refusal :=
  done s (mbxDo s.dev who c 4 (mbxSendWrite s.dev c v))

/-- MBX_RECV_READ (R423): one 64-bit read. -/
def execMbxRecvRead (who : Who) (c : Nat) (s : State) : Host.Outcome State Fault Refusal :=
  done s (if 64 ≤ c then s.dev
    else if whoLive s.dev who && secureShut s.dev who (0x400000 + 32 * c) then answer who 8 (secureViolation s.dev who, 0)
    else regGet s.dev who (0x400008 + 32 * c) 8 (mbxRecvRead s.dev who c))

/-- MBX_DB_SET (R424). -/
def execMbxDbSet (who : Who) (c : Nat) (v : Word32) (s : State) : Host.Outcome State Fault Refusal :=
  done s (mbxDo s.dev who c 0x10 (bellSet s.dev c v))

/-- MBX_DB_CLR (R424). -/
def execMbxDbClr (who : Who) (c : Nat) (v : Word32) (s : State) : Host.Outcome State Fault Refusal :=
  done s (mbxDo s.dev who c 0x14 (mboxPut s.dev c 0x14 v.toNat))

/-- MBX_CROSS_CLEAR (R426). -/
def execMbxCrossClear (who : Who) (v : Word32) (s : State) : Host.Outcome State Fault Refusal :=
  done s (regDo s.dev who 0x400800 (mbxStatusWrite s.dev v.toNat (isKeystone who)))

/-! Keystone, Plumb, clocks and the performance monitor. -/

/-- KS_ARB_COMMIT (R433). `good` says that the fuse read-back agrees. -/
def execKsArbCommit (who : Who) (n : Nat) (good : Bool) (s : State) : Host.Outcome State Fault Refusal :=
  doneFuses s (if ctlGrant s.dev who 0x100050 4 true && isPf s.dev who then arbCommit s.fuses s.dev (n % 4) good else (s.fuses, s.dev))

/-- LC_REQUEST_GO (R454). `sigOk` says what a check of the signatures of the request finds. -/
def execLcRequestGo (who : Who) (sigOk : SigOk) (s : State) : Host.Outcome State Fault Refusal :=
  done s (pfDo s.dev who 0x100024 (lcGo s.fuses s.dev sigOk))

/-- PLUMB_REC_CLOSE (R462). -/
def execPlumbRecClose (who : Who) (n : Nat) (s : State) : Host.Outcome State Fault Refusal :=
  done s (regDo s.dev who 0x200008 (plumbRecClose s.dev (n % 64)))

/-- PLUMB_SRC_CLEAR (R464). -/
def execPlumbSrcClear (who : Who) (n : Nat) (s : State) : Host.Outcome State Fault Refusal :=
  done s (if n < 512 then regDo s.dev who (0x202000 + 4 * n) (plumbSrcClear s.dev n) else s.dev)

/-- WDOG_KICK (R465). -/
def execWdogKick (who : Who) (v : Word32) (s : State) : Host.Outcome State Fault Refusal :=
  done s (regDo s.dev who 0x200014 (wdogKick s.dev v.toNat))

/-- CRP_RESET_CTRL_WARM (R473): the PF or Keystone. -/
def execCrpResetCtrlWarm (who : Who) (v : Word32) (s : State) : Host.Outcome State Fault Refusal :=
  done s (if isAdmin s.dev who then regDo s.dev who 0x6000010 (warmAsk s.dev v.toNat) else s.dev)

/-- PWR_REQ_ACTIVE (R481). -/
def execPwrReqActive (who : Who) (s : State) : Host.Outcome State Fault Refusal := done s (pfDo s.dev who 0x6000030 (reqActive s.dev))

/-- PWR_REQ_STANDBY (R481). -/
def execPwrReqStandby (who : Who) (s : State) : Host.Outcome State Fault Refusal := done s (pfDo s.dev who 0x6000030 (reqStandby s.dev))

/-- PWR_REQ_SLEEP (R482). -/
def execPwrReqSleep (who : Who) (s : State) : Host.Outcome State Fault Refusal := done s (pfDo s.dev who 0x6000030 (reqSleep s.dev))

/-- PERF_FREEZE (R485): FREEZE becomes `on`. -/
def execPerfFreeze (who : Who) (on : Bool) (s : State) : Host.Outcome State Fault Refusal :=
  done s (regDo s.dev who 0x500000 (perfCtrlWrite s.dev (setBits (reg s.dev 0x500000 0) 30 30 (ofFlag on))))

/-- PERF_CLEAR (R485). -/
def execPerfClear (who : Who) (s : State) : Host.Outcome State Fault Refusal :=
  done s (regDo s.dev who 0x500000 (perfCtrlWrite s.dev (setBits (reg s.dev 0x500000 0) 29 29 1)))

/-! Any register. -/

/-- A write through PCI configuration space: NumVFs at 0, MSI-X Enable at 1 (R398, R405). -/
def cfgWrite (d : Device) (f off v : Nat) : Device :=
  if off = 0 then (if f = 0 then numVfsWrite d v else d) else if off = 1 then msixEnable d f (bitOf v 0) else d

/-- REGISTER_WRITE (R12, R32): a write of n bytes at an offset. -/
def execRegisterWrite (who : Who) (off n : Nat) (v : Word) (s : State) : Host.Outcome State Fault Refusal :=
  match who with
  | .config f => done s (cfgWrite s.dev f off v.toNat)
  | _ => doneFuses s (ctlWrite s.fuses s.dev who off n v.toNat)

/-! The host window. -/

/-- The device address that BAR2 offset `off` of function f reaches (R401); none through a disabled aperture. -/
def apertureAddr (d : Device) (f off : Nat) : Option Nat :=
  let o := ownPage f + 0xC00 + 8 * (off / 2 ^ 32 % 16)
  let lo := reg d o 0
  let hi := reg d (o + 4) 0
  if bitOf hi 31 then some (bitsOf hi 15 0 * 2 ^ 32 + lo / 4096 * 4096 + off % 2 ^ 32) else none

/-- A refused host access (R9, R16): a read returns zero data with the poisoned bit, a write is dropped. -/
def windowPoison (d : Device) (f n : Nat) (data : Option (List Byte)) : Device :=
  match data with
  | none => emit d (.hostData f (List.replicate n 0) true)
  | some _ => d

/-- A BAR2 access of function f (R16, R321, R401): a read of n bytes, or a write of `data`. -/
def hostWindow (d : Device) (f off n : Nat) (data : Option (List Byte)) : Device :=
  if !funcOn d f || funcBusy d f then
    match data with
    | none => emit d (.hostData f (List.replicate n 0) false)
    | some _ => d
  else match apertureAddr d f off with
  | none => windowPoison d f n data
  | some a =>
    if regionOf d a = .unmapped then windowPoison d f n data
    else if !windowOk d (funcOwner f) a then windowPoison (windowRefused d data.isSome false f a) f n data
    else match data with
    | none =>
      (match memRead d (reqOf 41) false a n with
       | (d, .ok, bs) => emit d (.hostData f bs false)
       | (d, _, _) => windowPoison d f n none)
    | some bs => (memWrite d (reqOf 41) false a bs).1

/-- HOST_BAR2_ACCESS (R321): `data` is what a write carries, `n` the bytes a read asks for. -/
def execHostBar2Access (f off n : Nat) (data : Option (List Byte)) (s : State) : Host.Outcome State Fault Refusal :=
  done s (hostWindow s.dev f off n data)

/-! The empty queue. -/

/-- What an empty queue does: the oldest progress word under way to the control registers arrives (R32), made as an access of its
function (R513); without one, a nanosecond passes. -/
def idleStep (s : State) : Host.Outcome State Fault Refusal :=
  match s.dev.posted with
  | [] => .next { s with dev := passNs s.dev }
  | (f, off, v) :: rest => doneFuses s (ctlWrite s.fuses { s.dev with posted := rest } (.host f) off 8 v)

end Sys2Proof.Machine
end

