-- ==== Sys2Proof/Machine/Holt.lean ====
section
/-! DEFINITION. What the Holt instructions share (R18–R51): the word, registers, issue and its traps, accesses through segments, waits and
tickets. -/

namespace Sys2Proof.Machine

/-! The word and the registers. -/

/-- imm37, sign-extended (R18). -/
def imm64 (w : HoltWord) : Word := w.imm37.signExtend 64

/-- Register n of a context; h0 reads 0 (R21). -/
def hreg (d : Device) (c n : Nat) : Word := if n = 0 then 0 else tget 0 n (ctxAt d c).h

/-- Write register n of a context; a write to h0 is discarded (R21). -/
def setH (d : Device) (c n : Nat) (v : Word) : Device :=
  if n = 0 then d else setCtx d c { ctxAt d c with h := tset 0 n v (ctxAt d c).h }

/-- Move the PC of a context. -/
def setPc (d : Device) (c : Nat) (pc : Word) : Device := setCtx d c { ctxAt d c with pc := pc }

/-- Register hd as a source. -/
def rD (d : Device) (c : Nat) (w : HoltWord) : Word := hreg d c w.hd.toNat

/-- Register ha. -/
def rA (d : Device) (c : Nat) (w : HoltWord) : Word := hreg d c w.ha.toNat

/-- Register hb. -/
def rB (d : Device) (c : Nat) (w : HoltWord) : Word := hreg d c w.hb.toNat

/-- src2 (R20). -/
def src2 (d : Device) (c : Nat) (w : HoltWord) : Word := if w.imm then imm64 w else rB d c w

/-- Some field an instruction does not use is nonzero (R20). The flags say whether hd, ha, hb and imm37 are used. -/
def unusedSet (w : HoltWord) (hd ha hb imm : Bool) : Bool :=
  (!hd && w.hd != 0) || (!ha && w.ha != 0) || (!hb && w.hb != 0) || (!imm && w.imm37 != 0)

/-- Details 1, 2 and 3 of an illegal instruction, the lowest first (R20): an undefined mod value, a nonzero unused field, an operand. -/
def illegal (badMod unused badOperand : Bool) : Option Nat :=
  if badMod then some 1 else if unused then some 2 else if badOperand then some 3 else none

/-- The check of an instruction with both forms that uses hd, ha and src2 as told. -/
def illForm (w : HoltWord) (badMod hd ha : Bool) (badOperand : Bool) : Option Nat :=
  illegal badMod (unusedSet w hd ha (!w.imm) w.imm) badOperand

/-! Issue. -/

/-- How an issued instruction goes on: it completes and the PC moves; it traps; it waits, stalls or is held, with its
PC on it; or it completes and its thread stops. -/
inductive HoltRes
  | fin (fz : Fuses) (d : Device) (pc : Word)
  | trap (d : Device) (cause detail : Nat) (operand : Word)
  | stay (d : Device)
  | halt (d : Device)
  deriving DecidableEq, Repr

/-- What an access through a segment gives. -/
inductive HoltAcc
  | ok (d : Device) (phys cls : Nat)
  | trap (d : Device) (cause detail : Nat)
  | held
  deriving DecidableEq, Repr

/-- The detail of an access of n bytes that memory answers with an error (R25 steps 7 and 9): 6 when an Ashlar bank that it touches turns
the core away. -/
def errDetail (d : Device) (c a n : Nat) : Nat :=
  match regionOf d a with
  | .ashlar _ => if (banksOf a n).all (fun b => ownerAdmits (bankAt d b).owner (reqOf (24 + coreOf c))) then 5 else 6
  | _ => 5

/-- The checks of R25 and R32 on an access of a Holt program; memory is neither read nor written yet. An atomic is checked as the read with
which it begins. -/
def holtAcc (d : Device) (c : Nat) (a : Word) (size : Nat) (k : Acc) : HoltAcc :=
  let x := ctxAt d c
  match segCheck x a.toNat size k with
  | .trap cause detail => .trap d cause detail
  | .ok p cls =>
    if isCtl p then
      (if size ≠ 4 ∧ size ≠ 8 then .trap d 3 0
       else if secureShut d (.holt c) (p - 0x0F0000000000) then .trap d 7 0
       else .ok d p cls)
    else if cls = 2 ∧ !windowCovers d (ctxOwner c) p size then
      .trap (windowRefused d (decide (k = .store ∨ k = .atomic)) true c p) 2 7
    else match memCheck d (reqOf (24 + coreOf c)) x.isSealed (decide (k = .store)) p size with
    | (d, .ok) => .ok d p cls
    | (_, .held) => .held
    | (d', .err) => .trap d' 2 (errDetail d c p size)

/-- The bytes an admitted load returns: from the control registers by one access, otherwise from memory. -/
def holtBytes (fz : Fuses) (d : Device) (c p n : Nat) : Device × List Byte :=
  if isCtl p then
    let (d, v) := ctlRead fz d (.holt c) (p - 0x0F0000000000) n
    (d, leBytes n v)
  else (perfBytes d (24 + coreOf c) false n, bytesAt d p n)

/-- Load n bytes for an instruction, and go on with them. -/
def withLoad (fz : Fuses) (d : Device) (c : Nat) (a : Word) (n : Nat) (k : Acc) (f : Device → List Byte → HoltRes) : HoltRes :=
  match holtAcc d c a n k with
  | .trap d cause detail => .trap d cause detail a
  | .held => .stay d
  | .ok d p _ => let (d, b) := holtBytes fz d c p n; f d b

/-- An instruction of context c retires: counted, and the PC moves (R19, R26, R484). -/
def retire (d : Device) (c : Nat) (pc : Word) : Device :=
  let d := masonEvent d c 1 1
  setCtx d c { ctxAt d c with pc := pc, instret := (ctxAt d c).instret + 1 }

/-- Where context c stands in the rotation of its core and priority (R53 rule 2): 0 for the context number after the one that issued
last there, 63 for that one itself. -/
def rotationPlace (d : Device) (c : Nat) : Nat :=
  (c % 64 + 64 - tget 0 (coreOf c * 8 + (ctxAt d c).prio) d.rotation) % 64

/-- This issue cycle of core m is the guard slot (R53 rule 3): the 16th since the last, while MASON_CFG.GUARD = 1. -/
def guardSlot (d : Device) (m : Nat) : Bool := bitOf (reg d (0x3000000 + m * 0x100000) 1) 0 && tget 0 m d.issues % 16 == 15

/-- Of two ready contexts, a is chosen before b: in the guard slot the one that has waited longest since its last issue, otherwise by PRIO
and then by the rotation (R53). -/
def issuesBefore (d : Device) (a b : Nat) : Bool :=
  if guardSlot d (coreOf a) then
    decide (tget 0 a d.lastIssue < tget 0 b d.lastIssue) || (tget 0 a d.lastIssue == tget 0 b d.lastIssue && decide (a ≤ b))
  else decide ((ctxAt d b).prio < (ctxAt d a).prio) ||
    ((ctxAt d a).prio == (ctxAt d b).prio && decide (rotationPlace d a ≤ rotationPlace d b))

/-- The other READY contexts of c's core. -/
def rivals (d : Device) (c : Nat) : List Nat :=
  ((d.ctxs.filter (fun e => e.2.st == .ready && coreOf e.1 == coreOf c && decide (e.1 < 512) && e.1 != c)).map (·.1))

/-- The core's choice falls on context c whichever other contexts have delivered the result of their previous instruction (R53). -/
def issuesFirst (d : Device) (c : Nat) : Bool := (rivals d c).all (fun e => issuesBefore d c e)

/-- The core chooses context c for this issue cycle (R53, R54). Whether another context's previous instruction has delivered its result
rests on cycles, which the model has not: it is a free value (log entry 12). -/
def mayIssue (d : Device) (c : Nat) : Bool := (rivals d c).all (fun e => issuesBefore d c e || free d (20000 + e) % 2 == 1)

/-- Context c moves to the end of its rotation (R53). -/
def rotate (d : Device) (c : Nat) : Device :=
  { d with rotation := tset 0 (coreOf c * 8 + (ctxAt d c).prio) ((c + 1) % 64) d.rotation }

/-- Context c takes an issue cycle of its core (R53): the rotation moves on, and the issue is counted. -/
def issued (d : Device) (c : Nat) : Device :=
  let n := tget 0 (coreOf c) d.issues + 1
  { rotate d c with issues := tset 0 (coreOf c) n d.issues, lastIssue := tset 0 c n d.lastIssue }

/-- Where an instruction goes on. -/
def holtEnd (s : State) (c : Nat) : HoltRes → Host.Outcome State Fault Refusal
  | .fin fz d pc => doneFuses s (fz, retire d c pc)
  | .trap d cause detail operand => done s (takeTrap d c cause detail operand)
  | .stay d => done s d
  | .halt d => done s (stopRecord (retire d c ((ctxAt d c).pc + 8)) c 0 0 0 0)

/-- The fetch of an instruction (R22, R25). -/
def fetch (d : Device) (c : Nat) : HoltAcc := holtAcc d c (ctxAt d c).pc 8 .fetch

/-- Context c issues an instruction (R49): illegal instruction, privilege, the checks of the fetch, then the instruction itself. A context that
is not READY, or that its core does not choose (R53), issues nothing. -/
def issue (s : State) (c : Nat) (word : Word) (ill priv : Option Nat) (body : Fuses → Device → HoltRes) : Host.Outcome State Fault Refusal :=
  if 512 ≤ c ∨ (ctxAt s.dev c).st ≠ .ready ∨ !mayIssue s.dev c then done s s.dev
  else
    let d := issued s.dev c
    match ill with
    | some k => done s (takeTrap d c 1 k word)
    | none =>
    match priv with
    | some k => done s (takeTrap d c 7 k word)
    | none =>
    match fetch d c with
    | .trap d cause detail => done s (takeTrap d c cause detail (ctxAt d c).pc)
    | .held => done s s.dev
    | .ok d _ _ => holtEnd s c (body s.fuses d)

/-- The address of the next instruction (R19). -/
def nextPc (d : Device) (c : Nat) : Word := (ctxAt d c).pc + 8

/-- The instruction completes and writes hd. -/
def finH (fz : Fuses) (d : Device) (c : Nat) (w : HoltWord) (v : Word) : HoltRes := .fin fz (setH d c w.hd.toNat v) (nextPc d c)

/-- A transfer of control to a target (R19). -/
def jumpTo (fz : Fuses) (d : Device) (target : Word) : HoltRes := if target.toNat % 8 ≠ 0 then .trap d 3 0 target else .fin fz d target

/-- The target of a branch (R29). -/
def branchTarget (d : Device) (c : Nat) (w : HoltWord) : Word := if w.imm then (ctxAt d c).pc + 8 * imm64 w else rB d c w

/-! Arithmetic (R27, R28). -/

/-- The condition of a mod code. -/
def condHolds (m : Nat) (a b : Word) : Bool :=
  match m with
  | 0 => a == b
  | 1 => a != b
  | 2 => BitVec.slt a b
  | 3 => !BitVec.slt a b
  | 4 => BitVec.ult a b
  | _ => !BitVec.ult a b

/-- The high 64 bits of a product, signed or unsigned. -/
def mulHigh (isUnsigned : Bool) (a b : Word) : Word :=
  if isUnsigned then BitVec.ofNat 64 (a.toNat * b.toNat / 2 ^ 64) else BitVec.ofInt 64 (a.toInt * b.toInt / 2 ^ 64)

/-- The smaller of two words. -/
def wordMin (isUnsigned : Bool) (a b : Word) : Word := if (if isUnsigned then BitVec.ult b a else BitVec.slt b a) then b else a

/-- The larger of two words. -/
def wordMax (isUnsigned : Bool) (a b : Word) : Word := if (if isUnsigned then BitVec.ult a b else BitVec.slt a b) then b else a

/-- The shift count: bits [63:6] of src2 are ignored. -/
def shiftOf (b : Word) : Nat := b.toNat % 64

/-- An ALU instruction: its even opcode, the mod values it defines (those below `mods`), and its result from ha and src2. -/
def aluGo (s : State) (c op mods : Nat) (w : HoltWord) (f : Word → Word → Word) : Host.Outcome State Fault Refusal :=
  issue s c (pairWord op w) (illForm w (decide (mods ≤ w.mod.toNat)) true true false) none
    (fun fz d => finH fz d c w (f (rA d c w) (src2 d c w)))

/-! Loads, stores and atomics (R31, R33). -/

/-- The address ha + src2. -/
def memAddr (d : Device) (c : Nat) (w : HoltWord) : Word := rA d c w + src2 d c w

/-- The value loaded: zero-extended, or sign-extended when mod[2] = 1. -/
def loadValue (m : Nat) (b : List Byte) : Word :=
  if 4 ≤ m then BitVec.ofInt 64 (signedOf (8 * b.length) (leNat b)) else BitVec.ofNat 64 (leNat b)

/-- Store the low n bytes of a value. -/
def storeGo (fz : Fuses) (d : Device) (c : Nat) (a : Word) (n : Nat) (v : Word) : HoltRes :=
  match holtAcc d c a n .store with
  | .trap d cause detail => .trap d cause detail a
  | .held => .stay d
  | .ok d p _ =>
    if isCtl p then
      let (fz, d) := ctlWrite fz d (.holt c) (p - 0x0F0000000000) n (v.toNat % 2 ^ (8 * n))
      .fin fz d (nextPc d c)
    else
      let d := withCells (perfBytes d (24 + coreOf c) true n) (setCells p (leBytes n v.toNat) d.mem.cells)
      .fin fz d (nextPc d c)

/-- A descriptor is installed in slot n of context c, with its word 1 as the staged value, or refused (R24). -/
def installSeg (d : Device) (c n : Nat) (s : SegDesc) : Option Device :=
  let x := ctxAt d c
  if descOk d x.isSealed s then
    some (setCtx d c { x with segs := tset SegDesc.empty n s x.segs, segFresh := sdel n x.segFresh })
  else none

/-- An atomic (R33): the old value goes to hd. `op` gets the size. -/
def atomicGo (s : State) (c op : Nat) (w : HoltWord) (f : Device → Nat → AshOp) : Host.Outcome State Fault Refusal :=
  let m := w.mod.toNat
  issue s c (pairWord op w) (illForm w (m != 2 && m != 3) true true false) none (fun fz d =>
    let a := rA d c w
    let n := 2 ^ m
    match holtAcc d c a n .atomic with
    | .trap d cause detail => .trap d cause detail a
    | .held => .stay d
    | .ok d p _ =>
      match ashPerform d (reqOf (24 + coreOf c)) (ctxAt d c).isSealed p (f d n) with
      | (d, .ok, b) => finH fz d c w (BitVec.ofNat 64 (leNat b))
      | (_, .held, _) => .stay d
      | (d', .err, _) => .trap d' 2 (errDetail d c p n) a)

/-! Rings (R35–R37). -/

/-- The ring fault of a ring instruction, if any (R37): its detail. -/
def ringFault (d : Device) (c r : Nat) (push : Bool) : Option Nat :=
  if 8191 < r then some 0
  else
    let x := ringAt d r
    if push then (if x.en && x.producer == c then none else some 1) else if x.en && x.consumer == c then none else some 2

/-- The ring status result (R36). -/
def ringStatus (e : Entry) : Word := BitVec.ofNat 64 (1 + 2 * ofFlag e.sop + 4 * ofFlag e.eop)

/-- STATUS 0x44 RING_RESET with DONE = 0. -/
def resetStatus : Word := 0x4400#64

/-- An entry goes to the quad hd to hd + 3, then the status result to ha (R35). -/
def setQuad (d : Device) (c hd ha : Nat) (e : Entry) : Device :=
  let d := (upto 0 4).foldl (fun d i => setH d c (hd + i) (BitVec.ofNat 64 (fieldAt e.data (8 * i) 8))) d
  setH d c ha (ringStatus e)

/-- The quad as the bytes of an entry. -/
def quadBytes (d : Device) (c hd : Nat) : List Byte := (upto 0 4).flatMap (fun i => leBytes 8 (hreg d c (hd + i)).toNat)

/-- The notice of a ring's consumer side is taken. -/
def takeNoticeC (d : Device) (r : Nat) : Device := setRing d r { ringAt d r with noticeC := false }

/-- A ring instruction: quad alignment (R35), unused fields, ring fault; then its body on ring src2. -/
def ringGo (s : State) (c op mods : Nat) (w : HoltWord) (quad push : Bool) (body : Fuses → Device → Nat → HoltRes) :
    Host.Outcome State Fault Refusal :=
  issue s c (pairWord op w)
    (illForm w (decide (mods ≤ w.mod.toNat)) true quad (quad && w.hd.toNat % 4 != 0)) none
    (fun fz d =>
      let r := (src2 d c w).toNat
      match ringFault d c r push with
      | some k => .trap d 5 k (pairWord op w)
      | none => body fz (if quad then ringCheck d r else d) r)

/-- The oldest entry as an instruction that does not wait sees it (R326): the head register refills first. -/
def ringReady (d : Device) (r : Nat) : Device := if (ringAt d r).head = 0 then setRing d r (ringAt d r).refilled else d

/-- POPNB and PEEK (R35): a reset is reported; an empty ring leaves the quad unchanged. -/
def popNow (fz : Fuses) (d : Device) (c r : Nat) (w : HoltWord) (peek : Bool) : HoltRes :=
  let pc := nextPc d c
  let ha := w.ha.toNat
  if (ringAt d r).noticeC then .fin fz (setH (takeNoticeC d r) c ha resetStatus) pc
  else match (ringAt d r).front with
  | none => .fin fz (setH d c ha 0) pc
  | some e =>
    let d := if peek then d else setRing d r (ringAt (ringReady d r) r).popped
    .fin fz (setQuad d c w.hd.toNat ha e) pc

/-- A POP can complete on ring r (R35, R37, R326). -/
def popReady (d : Device) (r : Nat) : Bool :=
  (ringAt d r).noticeC || ((ringAt d r).front.isSome && decide (0 < (ringAt d r).head))

/-- A POP completes: a reset is reported, or the oldest entry goes to the quad. -/
def popDo (d : Device) (c r hd ha : Nat) : Device :=
  if (ringAt d r).noticeC then setH (takeNoticeC d r) c ha resetStatus
  else match (ringAt d r).front with
  | some e => setQuad (setRing d r (ringAt d r).popped) c hd ha e
  | none => d

/-! Waits (R40, R51, R69). -/

/-- A long instruction of context c waits. -/
def waitFor (d : Device) (c : Nat) (r : WaitRec) : Device := setCtx d c { ctxAt d c with st := .waiting, wait := some r }

/-- A context that waits becomes READY again and its instruction retires with the PC after it. -/
def wakeUp (d : Device) (c : Nat) : Device :=
  let d := setCtx d c { ctxAt d c with st := .ready, wait := none }
  retire d c (nextPc d c)

/-- The wait of a context that is WAITING. -/
def waitOf (d : Device) (c : Nat) : Option WaitRec := if c < 512 ∧ (ctxAt d c).st = .waiting then (ctxAt d c).wait else none

/-- Selected doorbell bits of a channel that are set. -/
def bellsSet (d : Device) (ch : Nat) (mask : Word32) : Word32 := (mboxAt d ch).db &&& mask

/-- WAITD takes the selected bits: they are cleared and go to hd. -/
def takeBells (d : Device) (c ch : Nat) (mask : Word32) (hd : Nat) : Device :=
  let b := bellsSet d ch mask
  let m := mboxAt d ch
  setH (setMbox d ch { m with db := m.db &&& ~~~ b }) c hd (b.setWidth 64)

/-- A mailbox channel number and the privilege it needs (R40, R46). -/
def chanPriv (d : Device) (c : Nat) (ch : Word) : Option Nat :=
  if 32 ≤ ch.toNat ∧ !(ctxAt d c).isSealed then some 0 else none

/-- A channel number above 63. -/
def badChan (ch : Word) : Bool := decide (63 < ch.toNat)

/-! Dispatch (R42–R44, R76). -/

/-- The even opcode of a dispatch (R42). -/
def dispatchOp (k : WoKind) : Nat := 0x6E + 2 * kindCode k

/-- The UNIT byte before any engine is chosen (R80). -/
def firstUnit (k : WoKind) (raw : List Byte) : Nat :=
  let f := fieldAt raw 20 1
  match k with
  | .enc | .encr | .dec | .vfy => if f < 96 then f else 0
  | .pix => if f < 24 then 96 + f else 96
  | .ana => if f < 12 then 135 + f else 135
  | .comp => 128
  | .dma => 129
  | .magw => 130
  | .nettx => 131
  | .keyop | .seal => 132
  | .ingest => 133

/-- The check of COMP_RING (R76). -/
def compRingFault (d : Device) (c r : Nat) : Option Nat :=
  if 8191 < r then some 0
  else
    let x := ringAt d r
    if !(x.en && (x.consumer == c || x.consumer == funcOwner (ctxAt d c).func)) then some 2
    else if x.producer ≠ 0xC000 then some 1 else none

/-- A work order leaves for its unit with a ticket (R43). -/
def sendWo (d : Device) (c t : Nat) (k : WoKind) (raw : List Byte) : Device :=
  let x := ctxAt d c
  let w : WorkOrder :=
    { ticket := t, kind := k, ctx := c, func := x.func, raw := raw, phase := .dispatched, seq := 0
      effPrio := min (fieldAt raw 2 1 % 8) x.prioMax, unit := firstUnit k raw, low := firstUnit k raw, surfIn := [], surfOut := [], extra := [], holds := []
      abort := none, counted := false, result := [], flags := 0, progress := 0 }
  let d := { d with wos := d.wos ++ [w] }
  if onEngines k then wakeTruss d else d

/-- A dispatch from an address (R43, R44, R76, R49): the read of 256 bytes, COMP_RING, TK_LIMIT, then the core's 128 tickets. -/
def dispatchGo (fz : Fuses) (d : Device) (c hd : Nat) (a word : Word) (k : WoKind) : HoltRes :=
  withLoad fz d c a 256 .load (fun d raw =>
    match compRingFault d c (fieldAt raw 4 2) with
    | some n => .trap d 5 n word
    | none =>
      if (ctxAt d c).tkLimit ≤ tkCount d c then .trap d 6 0 (BitVec.ofNat 64 (tkCount d c))
      else if 128 ≤ tkUsed d (coreOf c) then .stay (waitFor d c (.dispatch k hd a word))
      else
        let (d, t) := issueTicket d c
        let d := masonEvent (sendWo d c t k raw) c 3 1
        .fin fz (setH d c hd (BitVec.ofNat 64 t)) (nextPc d c))

/-- A dispatch instruction; SEAL and KEYOP need a sealed context. -/
def dispatchRow (s : State) (c : Nat) (w : HoltWord) (k : WoKind) : Host.Outcome State Fault Refusal :=
  let word := pairWord (dispatchOp k) w
  issue s c word (illForm w (decide (1 ≤ w.mod.toNat)) true true false)
    (if (k == .seal || k == .keyop) && !(ctxAt s.dev c).isSealed then some 0 else none)
    (fun fz d => dispatchGo fz d c w.hd.toNat (memAddr d c w) word k)

/-! Control and status registers (R26). -/

/-- A CSR as read; none for a number not listed. SEGn_HI reads the value staged last, or word 1 of the descriptor where that was installed
later. -/
def csrValue (d : Device) (c n : Nat) : Option Word :=
  let x := ctxAt d c
  let nat := fun v => some (BitVec.ofNat 64 v)
  if n = 0 then nat d.time
  else if n = 1 then nat (ofFlag x.isSealed * 2 ^ 31 + x.func * 2 ^ 16 + c)
  else if n = 2 then nat x.prio
  else if n = 3 then nat x.prioMax
  else if n = 4 then nat x.ownerRing
  else if n = 5 then nat x.tkLimit
  else if n = 6 then nat (tkCount d c)
  else if n = 8 then nat ((d.up - d.crp.upAt) * 12 / 5)
  else if n = 9 then nat x.instret
  else if 0x100 ≤ n ∧ n < 0x120 then
    let k := (n - 0x100) / 2
    let s := tget SegDesc.empty k x.segs
    some (if n % 2 = 0 then s.lo else if x.segFresh.contains k then tget 0 k x.segHi else s.hi)
  else if 0x200 ≤ n ∧ n < 0x400 then nat (tget 0 (n - 0x200) d.perf.cnt)
  else none

/-- A CSR that CSRW reaches. -/
def csrWritable (n : Nat) : Bool := n == 2 || n == 5 || (decide (0x100 ≤ n) && decide (n < 0x120))

/-- PERF_USER_EN (R486). -/
def perfUserEn (d : Device) : Bool := bitOf (reg d 0x500000 0) 31

/-- A write of a CSR that R26 allows; none when a descriptor is refused. -/
def csrPut (d : Device) (c n : Nat) (v : Word) : Option Device :=
  let x := ctxAt d c
  if n = 2 then some (setCtx d c { x with prio := v.toNat % 8 })
  else if n = 5 then some (setCtx d c { x with tkLimit := max v.toNat (tkCount d c) })
  else
    let k := (n - 0x100) / 2
    if n % 2 = 0 then installSeg d c k { lo := v, hi := tget 0 k x.segHi }
    else some (setCtx d c { x with segHi := tset 0 k v x.segHi, segFresh := sadd k x.segFresh })

end Sys2Proof.Machine
end

