-- ==== Sys2Proof/Machine/HoltCmds.lean ====
section
/-! DEFINITION. The Holt instructions (R27–R46): each row is an instruction that context c issues, with its operand fields. An opcode with one
form ignores the field `imm` of its word. -/

namespace Sys2Proof.Machine

/-! Arithmetic (R27, R28). -/

/-- ADD (R27). -/
def execAdd (c : Nat) (w : HoltWord) (s : State) : Host.Outcome State Fault Refusal := aluGo s c 0x00 1 w (fun a b => a + b)

/-- SUB (R27). -/
def execSub (c : Nat) (w : HoltWord) (s : State) : Host.Outcome State Fault Refusal := aluGo s c 0x02 1 w (fun a b => a - b)

/-- AND (R27). -/
def execAnd (c : Nat) (w : HoltWord) (s : State) : Host.Outcome State Fault Refusal := aluGo s c 0x04 1 w (fun a b => a &&& b)

/-- OR (R27). -/
def execOr (c : Nat) (w : HoltWord) (s : State) : Host.Outcome State Fault Refusal := aluGo s c 0x06 1 w (fun a b => a ||| b)

/-- XOR (R27). -/
def execXor (c : Nat) (w : HoltWord) (s : State) : Host.Outcome State Fault Refusal := aluGo s c 0x08 1 w (fun a b => a ^^^ b)

/-- SHL (R27). -/
def execShl (c : Nat) (w : HoltWord) (s : State) : Host.Outcome State Fault Refusal := aluGo s c 0x0A 1 w (fun a b => a <<< shiftOf b)

/-- SHR (R27): zero fill. -/
def execShr (c : Nat) (w : HoltWord) (s : State) : Host.Outcome State Fault Refusal := aluGo s c 0x0C 1 w (fun a b => a >>> shiftOf b)

/-- SAR (R27): sign fill. -/
def execSar (c : Nat) (w : HoltWord) (s : State) : Host.Outcome State Fault Refusal := aluGo s c 0x0E 1 w (fun a b => a.sshiftRight (shiftOf b))

/-- MUL (R27). -/
def execMul (c : Nat) (w : HoltWord) (s : State) : Host.Outcome State Fault Refusal := aluGo s c 0x10 1 w (fun a b => a * b)

/-- MULH and MULHU (R27). -/
def execMulh (c : Nat) (w : HoltWord) (s : State) : Host.Outcome State Fault Refusal := aluGo s c 0x12 2 w (mulHigh (w.mod == 1))

/-- MIN and MINU (R27). -/
def execMin (c : Nat) (w : HoltWord) (s : State) : Host.Outcome State Fault Refusal := aluGo s c 0x14 2 w (wordMin (w.mod == 1))

/-- MAX and MAXU (R27). -/
def execMax (c : Nat) (w : HoltWord) (s : State) : Host.Outcome State Fault Refusal := aluGo s c 0x16 2 w (wordMax (w.mod == 1))

/-- CMPEQ to CMPGEU (R27, R28). -/
def execCmp (c : Nat) (w : HoltWord) (s : State) : Host.Outcome State Fault Refusal :=
  aluGo s c 0x18 6 w (fun a b => if condHolds w.mod.toNat a b then 1 else 0)

/-- SEL and SELZ (R27). -/
def execSel (c : Nat) (w : HoltWord) (s : State) : Host.Outcome State Fault Refusal :=
  issue s c (pairWord 0x1A w) (illForm w (decide (2 ≤ w.mod.toNat)) true true false) none
    (fun fz d => finH fz d c w (if (rA d c w == 0) == (w.mod == 1) then src2 d c w else rD d c w))

/-- MOV (R27). -/
def execMov (c : Nat) (w : HoltWord) (s : State) : Host.Outcome State Fault Refusal :=
  issue s c (holtWord 0x1C w) (illegal (w.mod != 0) (unusedSet w true false true false) false) none
    (fun fz d => finH fz d c w (rB d c w))

/-- MOVI (R27). -/
def execMovi (c : Nat) (w : HoltWord) (s : State) : Host.Outcome State Fault Refusal :=
  issue s c (holtWord 0x1D w) (illegal (w.mod != 0) (unusedSet w true false false true) false) none
    (fun fz d => finH fz d c w (imm64 w))

/-- MOVHI (R27). -/
def execMovhi (c : Nat) (w : HoltWord) (s : State) : Host.Outcome State Fault Refusal :=
  issue s c (holtWord 0x1F w) (illegal (w.mod != 0) (unusedSet w true false false true) false) none
    (fun fz d => finH fz d c w ((rD d c w &&& 0x7FFFFFF#64) ||| (w.imm37.setWidth 64 <<< 27)))

/-! Branches (R29, R30). -/

/-- B (R29). -/
def execB (c : Nat) (w : HoltWord) (s : State) : Host.Outcome State Fault Refusal :=
  issue s c (pairWord 0x20 w) (illForm w (w.mod != 0) false false false) none (fun fz d => jumpTo fz d (branchTarget d c w))

/-- BEQ, BNE, BLT, BGE, BLTU and BGEU (R28, R29, R19). -/
def execBcond (c : Nat) (w : HoltWord) (s : State) : Host.Outcome State Fault Refusal :=
  issue s c (pairWord 0x22 w) (illForm w (decide (6 ≤ w.mod.toNat)) true true false) none
    (fun fz d => if condHolds w.mod.toNat (rD d c w) (rA d c w) then jumpTo fz d (branchTarget d c w) else .fin fz d (nextPc d c))

/-- CALL (R29). -/
def execCall (c : Nat) (w : HoltWord) (s : State) : Host.Outcome State Fault Refusal :=
  issue s c (pairWord 0x24 w) (illForm w (w.mod != 0) true false false) none (fun fz d =>
    let t := branchTarget d c w
    if t.toNat % 8 ≠ 0 then .trap d 3 0 t else .fin fz (setH d c w.hd.toNat (nextPc d c)) t)

/-- RET (R29). -/
def execRet (c : Nat) (w : HoltWord) (s : State) : Host.Outcome State Fault Refusal :=
  issue s c (holtWord 0x26 w) (illegal (w.mod != 0) (unusedSet w false true false false) false) none (fun fz d => jumpTo fz d (rA d c w))

/-- SWITCH (R30). COUNT and DEFAULT are read by one access of 8 bytes, so an error or a limit that touches either word traps whichever is used
(DESIGN CHOICE, log entry 73: the spec does not say how wide the read of the header is). -/
def execSwitch (c : Nat) (w : HoltWord) (s : State) : Host.Outcome State Fault Refusal :=
  issue s c (pairWord 0x28 w) (illForm w (w.mod != 0) false true false) none (fun fz d =>
    let pc := (ctxAt d c).pc
    let base := branchTarget d c w
    let k : Acc := if w.imm then .fetch else .load
    let go := fun (d : Device) (disp : Nat) => jumpTo fz d (pc + 8 * BitVec.ofInt 64 (signedOf 32 disp))
    withLoad fz d c base 8 k (fun d h =>
      let n := fieldAt h 0 4
      let i := rA d c w
      if 1 ≤ n ∧ n ≤ 65536 ∧ i.toNat < n then withLoad fz d c (base + 8 + 4 * i) 4 k (fun d e => go d (leNat e))
      else go d (fieldAt h 4 4)))

/-! Loads, stores, LDSEG and atomics (R31–R34). -/

/-- LD8 to LD64 and LD8S to LD32S (R31). -/
def execLd (c : Nat) (w : HoltWord) (s : State) : Host.Outcome State Fault Refusal :=
  issue s c (pairWord 0x30 w) (illForm w (decide (7 ≤ w.mod.toNat)) true true false) none (fun fz d =>
    withLoad fz d c (memAddr d c w) (2 ^ (w.mod.toNat % 4)) .load (fun d b => finH fz d c w (loadValue w.mod.toNat b)))

/-- ST8 to ST64 (R31). -/
def execSt (c : Nat) (w : HoltWord) (s : State) : Host.Outcome State Fault Refusal :=
  issue s c (pairWord 0x32 w) (illForm w (decide (4 ≤ w.mod.toNat)) true true false) none
    (fun fz d => storeGo fz d c (memAddr d c w) (2 ^ w.mod.toNat) (rD d c w))

/-- LDSEG (R24, R31). -/
def execLdseg (c : Nat) (w : HoltWord) (s : State) : Host.Outcome State Fault Refusal :=
  issue s c (pairWord 0x34 w) (illForm w false false true false) none (fun fz d =>
    let a := memAddr d c w
    withLoad fz d c a 16 .load (fun d b =>
      match installSeg d c w.mod.toNat { lo := BitVec.ofNat 64 (fieldAt b 0 8), hi := BitVec.ofNat 64 (fieldAt b 8 8) } with
      | some d => .fin fz d (nextPc d c)
      | none => .trap d 2 4 a))

/-- AADD (R33). -/
def execAadd (c : Nat) (w : HoltWord) (s : State) : Host.Outcome State Fault Refusal :=
  atomicGo s c 0x40 w (fun d n => .add n (src2 d c w).toNat)

/-- ASWAP (R33). -/
def execAswap (c : Nat) (w : HoltWord) (s : State) : Host.Outcome State Fault Refusal :=
  atomicGo s c 0x42 w (fun d n => .swap n (src2 d c w).toNat)

/-- ACAS (R33): hd is compared with the old value. -/
def execAcas (c : Nat) (w : HoltWord) (s : State) : Host.Outcome State Fault Refusal :=
  atomicGo s c 0x44 w (fun d n => .cas n (rD d c w).toNat (src2 d c w).toNat)

/-! Rings (R35–R37). -/

/-- What PUSH does on ring r (R35, R37, R89 step 1). -/
def pushGo (fz : Fuses) (d : Device) (c r : Nat) (w : HoltWord) : HoltRes :=
  let pc := nextPc d c
  let ha := w.ha.toNat
  let x := ringAt d r
  let e : Entry := { data := quadBytes d c w.hd.toNat, sop := bitOf w.mod.toNat 0, eop := bitOf w.mod.toNat 1 }
  if x.noticeP then .fin fz (setH (setRing d r { x with noticeP := false }) c ha resetStatus) pc
  else if x.room = 0 ∨ (isHost x.consumer ∧ (funcBusy d (x.consumer - 0x8000) ∨ !funcOn d (x.consumer - 0x8000))) then .fin fz (setH d c ha 8) pc
  else .fin fz (setH (ringAppend d r e) c ha (ringStatus e)) pc

/-- PUSH (R35). -/
def execPush (c : Nat) (w : HoltWord) (s : State) : Host.Outcome State Fault Refusal :=
  ringGo s c 0x50 4 w true true (fun fz d r => pushGo fz d c r w)

/-- POP (R35): it waits while nothing can be delivered. -/
def execPop (c : Nat) (w : HoltWord) (s : State) : Host.Outcome State Fault Refusal :=
  ringGo s c 0x52 1 w true false (fun fz d r =>
    if popReady d r then .fin fz (popDo d c r w.hd.toNat w.ha.toNat) (nextPc d c)
    else .stay (waitFor d c (.pop r w.hd.toNat w.ha.toNat)))

/-- A stalled POP completes when it can, or with 0x44 after a reset or disable of its ring (R37, R69). -/
def popComplete (d : Device) (c : Nat) : Device :=
  match waitOf d c with
  | some (.pop r hd ha) =>
    let d := ringCheck d r
    if popReady d r then wakeUp (popDo d c r hd ha) c else d
  | some (.popReset ha) => wakeUp (setH d c ha resetStatus) c
  | _ => d

/-- POP_COMPLETE (R69). -/
def execPopComplete (c : Nat) (s : State) : Host.Outcome State Fault Refusal := done s (popComplete s.dev c)

/-- POPNB (R35). -/
def execPopnb (c : Nat) (w : HoltWord) (s : State) : Host.Outcome State Fault Refusal :=
  ringGo s c 0x54 1 w true false (fun fz d r => popNow fz d c r w false)

/-- PEEK (R35). -/
def execPeek (c : Nat) (w : HoltWord) (s : State) : Host.Outcome State Fault Refusal :=
  ringGo s c 0x56 1 w true false (fun fz d r => popNow fz d c r w true)

/-- RLEN (R35, R37). -/
def execRlen (c : Nat) (w : HoltWord) (s : State) : Host.Outcome State Fault Refusal :=
  ringGo s c 0x58 1 w false false (fun fz d r => finH fz d c w (BitVec.ofNat 64 (ringAt d r).entries.length))

/-! Buffers (R38, R39). -/

/-- A handle: bits [31:0]. -/
def handleOf (v : Word) : Nat := v.toNat % 2 ^ 32

/-- A buffer instruction completes with a status result. -/
def finStatus (fz : Fuses) (d : Device) (c : Nat) (w : HoltWord) (st : Nat) : HoltRes :=
  .fin fz (setH d c w.ha.toNat (BitVec.ofNat 64 st)) (nextPc d c)

/-- BALLOC (R38). -/
def execBalloc (c : Nat) (w : HoltWord) (s : State) : Host.Outcome State Fault Refusal :=
  issue s c (pairWord 0x60 w) (illForm w (w.mod != 0) true true false) none (fun fz d =>
    match yardAlloc d (ctxOwner c) (src2 d c w).toNat with
    | (d, some h) => finStatus fz (setH d c w.hd.toNat (BitVec.ofNat 64 h)) c w 0
    | (d, none) => finStatus fz d c w 0x40)

/-- BFREE (R38). -/
def execBfree (c : Nat) (w : HoltWord) (s : State) : Host.Outcome State Fault Refusal :=
  issue s c (holtWord 0x62 w) (illegal (w.mod != 0) (unusedSet w false true true false) false) none (fun fz d =>
    let (d, st) := yardFree d (ctxOwner c) (handleOf (rB d c w))
    finStatus fz d c w st)

/-- BXFER (R38, R39). -/
def execBxfer (c : Nat) (w : HoltWord) (s : State) : Host.Outcome State Fault Refusal :=
  issue s c (pairWord 0x64 w) (illForm w (w.mod != 0) true true (!ownerOk (src2 s.dev c w).toNat)) none (fun fz d =>
    let (d, st) := yardXfer d (ctxOwner c) (handleOf (rD d c w)) (src2 d c w).toNat
    finStatus fz d c w st)

/-- BSTAT (R38). -/
def execBstat (c : Nat) (w : HoltWord) (s : State) : Host.Outcome State Fault Refusal :=
  issue s c (holtWord 0x66 w) (illegal (decide (3 ≤ w.mod.toNat)) (unusedSet w true true true false) false) none (fun fz d =>
    let h := handleOf (rB d c w)
    let i := handleIdx h
    if handleCurrent d h then
      let v := match w.mod.toNat with | 0 => bufWord d i | 1 => bufBase d i | _ => bufSize d i
      finStatus fz (setH d c w.hd.toNat (BitVec.ofNat 64 v)) c w 0
    else finStatus fz (yardEvent d h) c w 0x43)

/-! Waiting, time and tickets (R40, R41). -/

/-- WAITT (R40): the target is fixed at the first issue (R69). -/
def execWaitt (c : Nat) (w : HoltWord) (s : State) : Host.Outcome State Fault Refusal :=
  issue s c (pairWord 0x68 w) (illForm w (decide (2 ≤ w.mod.toNat)) true false false) none (fun fz d =>
    let t := if w.mod = 1 then BitVec.ofNat 64 d.time + src2 d c w else src2 d c w
    if t.toNat ≤ d.time then finH fz d c w (BitVec.ofNat 64 d.time) else .stay (waitFor d c (.waitt t w.hd.toNat)))

/-- A waiting WAITT whose time has come completes. -/
def waittComplete (d : Device) (c : Nat) : Device :=
  match waitOf d c with
  | some (.waitt t hd) => if t.toNat ≤ d.time then wakeUp (setH d c hd (BitVec.ofNat 64 d.time)) c else d
  | _ => d

/-- WAITT_COMPLETE (R69). -/
def execWaittComplete (c : Nat) (s : State) : Host.Outcome State Fault Refusal := done s (waittComplete s.dev c)

/-- WAITD (R40). -/
def execWaitd (c : Nat) (w : HoltWord) (s : State) : Host.Outcome State Fault Refusal :=
  issue s c (pairWord 0x6A w) (illForm w (w.mod != 0) true true (badChan (rA s.dev c w))) (chanPriv s.dev c (rA s.dev c w)) (fun fz d =>
    let ch := (rA d c w).toNat
    let mask := (src2 d c w).setWidth 32
    if bellsSet d ch mask ≠ 0 then .fin fz (takeBells d c ch mask w.hd.toNat) (nextPc d c)
    else .stay (waitFor d c (.waitd ch mask w.hd.toNat)))

/-- A waiting WAITD with a selected bit set completes. -/
def waitdComplete (d : Device) (c : Nat) : Device :=
  match waitOf d c with
  | some (.waitd ch mask hd) => if bellsSet d ch mask ≠ 0 then wakeUp (takeBells d c ch mask hd) c else d
  | _ => d

/-- WAITD_COMPLETE (R69). -/
def execWaitdComplete (c : Nat) (s : State) : Host.Outcome State Fault Refusal := done s (waitdComplete s.dev c)

/-- FENCE (R47): every earlier access is performed already, since each instruction here completes whole. -/
def execFence (c : Nat) (w : HoltWord) (s : State) : Host.Outcome State Fault Refusal :=
  issue s c (holtWord 0x6C w) (illegal (w.mod != 0) (unusedSet w false false false false) false) none (fun fz d => .fin fz d (nextPc d c))

/-- Software event k of the performance monitor with a payload (R40, R484). -/
def softEvent (d : Device) (c k payload : Nat) : Device :=
  let x := ctxAt d c
  let d := perfEvent d 9 0 k 1 x.isSealed (pcForm x.pc) c
  perfEvent d 9 1 k payload x.isSealed (pcForm x.pc) c

/-- EVT (R40). -/
def execEvt (c : Nat) (w : HoltWord) (s : State) : Host.Outcome State Fault Refusal :=
  issue s c (holtWord 0x6D w) (illegal (w.mod != 0) (unusedSet w false true false true) (decide (15 < w.imm37.toNat))) none
    (fun fz d => .fin fz (softEvent d c w.imm37.toNat ((rA d c w).toNat % 2 ^ 32)) (nextPc d c))

/-- The ticket that src2 names. -/
def ticketOf (d : Device) (c : Nat) (w : HoltWord) : Nat := (src2 d c w).toNat % 2 ^ 32

/-- The ticket is outstanding for the context: neither ENDED nor UNKNOWN (R41). -/
def tkWaits (d : Device) (c t : Nat) : Bool := tkResult d c t < 256

/-- TKWAIT (R40, R41). -/
def execTkwait (c : Nat) (w : HoltWord) (s : State) : Host.Outcome State Fault Refusal :=
  issue s c (pairWord 0x6E w) (illForm w (decide (2 ≤ w.mod.toNat)) true false false) none (fun fz d =>
    let t := ticketOf d c w
    if tkWaits d c t then .stay (waitFor d c (.tkwait t w.hd.toNat)) else finH fz d c w (BitVec.ofNat 64 (tkResult d c t)))

/-- A waiting TKWAIT whose ticket has ended completes. -/
def tkwaitComplete (d : Device) (c : Nat) : Device :=
  match waitOf d c with
  | some (.tkwait t hd) => if tkWaits d c t then d else wakeUp (setH d c hd (BitVec.ofNat 64 (tkResult d c t))) c
  | _ => d

/-- TKWAIT_COMPLETE (R66, R69). -/
def execTkwaitComplete (c : Nat) (s : State) : Host.Outcome State Fault Refusal := done s (tkwaitComplete s.dev c)

/-- TKPOLL (R40, R41). -/
def execTkpoll (c : Nat) (w : HoltWord) (s : State) : Host.Outcome State Fault Refusal :=
  issue s c (pairWord 0x6E w) (illForm w (decide (2 ≤ w.mod.toNat)) true false false) none
    (fun fz d => finH fz d c w (BitVec.ofNat 64 (tkResult d c (ticketOf d c w))))

/-! Dispatch (R42–R44). -/

/-- ENC (R42). -/
def execEnc (c : Nat) (w : HoltWord) (s : State) : Host.Outcome State Fault Refusal := dispatchRow s c w .enc

/-- ENCR (R42). -/
def execEncr (c : Nat) (w : HoltWord) (s : State) : Host.Outcome State Fault Refusal := dispatchRow s c w .encr

/-- DEC (R42). -/
def execDec (c : Nat) (w : HoltWord) (s : State) : Host.Outcome State Fault Refusal := dispatchRow s c w .dec

/-- VFY (R42). -/
def execVfy (c : Nat) (w : HoltWord) (s : State) : Host.Outcome State Fault Refusal := dispatchRow s c w .vfy

/-- ANA (R42). -/
def execAna (c : Nat) (w : HoltWord) (s : State) : Host.Outcome State Fault Refusal := dispatchRow s c w .ana

/-- PIX (R42). -/
def execPix (c : Nat) (w : HoltWord) (s : State) : Host.Outcome State Fault Refusal := dispatchRow s c w .pix

/-- COMP (R42). -/
def execComp (c : Nat) (w : HoltWord) (s : State) : Host.Outcome State Fault Refusal := dispatchRow s c w .comp

/-- DMA (R42). -/
def execDma (c : Nat) (w : HoltWord) (s : State) : Host.Outcome State Fault Refusal := dispatchRow s c w .dma

/-- SEAL (R42, R43). -/
def execSeal (c : Nat) (w : HoltWord) (s : State) : Host.Outcome State Fault Refusal := dispatchRow s c w .seal

/-- MAGW (R42). -/
def execMagw (c : Nat) (w : HoltWord) (s : State) : Host.Outcome State Fault Refusal := dispatchRow s c w .magw

/-- NETTX (R42). -/
def execNettx (c : Nat) (w : HoltWord) (s : State) : Host.Outcome State Fault Refusal := dispatchRow s c w .nettx

/-- INGEST (R42). -/
def execIngest (c : Nat) (w : HoltWord) (s : State) : Host.Outcome State Fault Refusal := dispatchRow s c w .ingest

/-- KEYOP (R42, R43). -/
def execKeyop (c : Nat) (w : HoltWord) (s : State) : Host.Outcome State Fault Refusal := dispatchRow s c w .keyop

/-- DISPATCH_STALL_ISSUE (R44): once a ticket of the core has ended, the stalled dispatch is issued afresh. -/
def execDispatchStallIssue (c : Nat) (s : State) : Host.Outcome State Fault Refusal :=
  match waitOf s.dev c with
  | some (.dispatch k hd a word) =>
    if tkUsed s.dev (coreOf c) < 128 then
      let d := setCtx s.dev c { ctxAt s.dev c with st := .ready, wait := none }
      issue { s with dev := d } c word none none (fun fz d => dispatchGo fz d c hd a word k)
    else done s s.dev
  | _ => done s s.dev

/-! System (R45, R46). -/

/-- MBXSEND (R45, R423). -/
def execMbxsend (c : Nat) (w : HoltWord) (s : State) : Host.Outcome State Fault Refusal :=
  issue s c (pairWord 0x90 w) (illForm w (w.mod != 0) true true (badChan (src2 s.dev c w))) (chanPriv s.dev c (src2 s.dev c w)) (fun fz d =>
    let (d, ok) := wordSend d (src2 d c w).toNat ((rD d c w).setWidth 32)
    finStatus fz d c w (if ok then 1 else 8))

/-- MBXRECV (R45, R423). -/
def execMbxrecv (c : Nat) (w : HoltWord) (s : State) : Host.Outcome State Fault Refusal :=
  issue s c (pairWord 0x92 w) (illForm w (w.mod != 0) true true (badChan (src2 s.dev c w))) (chanPriv s.dev c (src2 s.dev c w)) (fun fz d =>
    match wordRecv d (src2 d c w).toNat with
    | (d, some v) => finStatus fz (setH d c w.hd.toNat (v.setWidth 64)) c w 1
    | (d, none) => finStatus fz d c w 0)

/-- DBELL (R45, R424). -/
def execDbell (c : Nat) (w : HoltWord) (s : State) : Host.Outcome State Fault Refusal :=
  issue s c (pairWord 0x94 w) (illForm w (w.mod != 0) true false (badChan (src2 s.dev c w))) (chanPriv s.dev c (src2 s.dev c w)) (fun fz d =>
    .fin fz (bellSet d (src2 d c w).toNat ((rD d c w).setWidth 32)) (nextPc d c))

/-- IRQ (R45, R46, R413). -/
def execIrq (c : Nat) (w : HoltWord) (s : State) : Host.Outcome State Fault Refusal :=
  issue s c (pairWord 0x96 w) (illForm w (w.mod != 0) false false (badChan (src2 s.dev c w))) none
    (fun fz d => .fin fz (intcEvent d (src2 d c w).toNat) (nextPc d c))

/-- YIELD (R45, R53): the context is at the end of its rotation. -/
def execYield (c : Nat) (w : HoltWord) (s : State) : Host.Outcome State Fault Refusal :=
  issue s c (holtWord 0x98 w) (illegal (w.mod != 0) (unusedSet w false false false false) false) none
    (fun fz d => .fin fz (rotate d c) (nextPc d c))

/-- HALT (R45, R50). -/
def execHalt (c : Nat) (w : HoltWord) (s : State) : Host.Outcome State Fault Refusal :=
  issue s c (holtWord 0x9A w) (illegal (w.mod != 0) (unusedSet w false false false false) false) none (fun _ d => .halt d)

/-- CSRR (R26, R45). -/
def execCsrr (c : Nat) (w : HoltWord) (s : State) : Host.Outcome State Fault Refusal :=
  let n := (src2 s.dev c w).toNat
  issue s c (pairWord 0x9C w) (illForm w (w.mod != 0) true false (csrValue s.dev c n).isNone)
    (if 0x200 ≤ n ∧ n < 0x400 ∧ !perfUserEn s.dev then some 2 else none)
    (fun fz d => finH fz d c w ((csrValue d c n).getD 0))

/-- CSRW (R26, R45, R67). -/
def execCsrw (c : Nat) (w : HoltWord) (s : State) : Host.Outcome State Fault Refusal :=
  let n := (src2 s.dev c w).toNat
  let v := rA s.dev c w
  issue s c (pairWord 0x9E w)
    (illForm w (w.mod != 0) false true (!csrWritable n || (n == 5 && !(decide (1 ≤ v.toNat) && decide (v.toNat ≤ 127)))))
    (if n = 2 ∧ (ctxAt s.dev c).prioMax < v.toNat then some 1 else none)
    (fun fz d =>
      match csrPut d c n v with
      | some d => .fin fz d (nextPc d c)
      | none => .trap d 2 4 (pairWord 0x9E w))

/-- ILLEGAL_INSTRUCTION (R20): context c issues a word whose opcode is not assigned. -/
def execIllegalInstruction (c : Nat) (word : Word) (s : State) : Host.Outcome State Fault Refusal :=
  issue s c word (some 0) none (fun _ d => .stay d)

end Sys2Proof.Machine
end

