-- ==== Sys2Proof/Machine/Dispatch.lean ====
section
/-! DEFINITION. One arm for each command: its meaning, or a rejection by name. -/

namespace Sys2Proof.Machine

/-- The effect of a command on everything but the queue. -/
def exec (i : Instr) (s : State) : Host.Outcome State Fault Refusal :=
  match i with
  | .add c w => Sys2Proof.Machine.execAdd c w s
  | .sub c w => Sys2Proof.Machine.execSub c w s
  | .and c w => Sys2Proof.Machine.execAnd c w s
  | .or c w => Sys2Proof.Machine.execOr c w s
  | .xor c w => Sys2Proof.Machine.execXor c w s
  | .shl c w => Sys2Proof.Machine.execShl c w s
  | .shr c w => Sys2Proof.Machine.execShr c w s
  | .sar c w => Sys2Proof.Machine.execSar c w s
  | .mul c w => Sys2Proof.Machine.execMul c w s
  | .mulh c w => Sys2Proof.Machine.execMulh c w s
  | .min c w => Sys2Proof.Machine.execMin c w s
  | .max c w => Sys2Proof.Machine.execMax c w s
  | .cmp c w => Sys2Proof.Machine.execCmp c w s
  | .sel c w => Sys2Proof.Machine.execSel c w s
  | .mov c w => Sys2Proof.Machine.execMov c w s
  | .movi c w => Sys2Proof.Machine.execMovi c w s
  | .movhi c w => Sys2Proof.Machine.execMovhi c w s
  | .b c w => Sys2Proof.Machine.execB c w s
  | .bcond c w => Sys2Proof.Machine.execBcond c w s
  | .call c w => Sys2Proof.Machine.execCall c w s
  | .ret c w => Sys2Proof.Machine.execRet c w s
  | .switch c w => Sys2Proof.Machine.execSwitch c w s
  | .ld c w => Sys2Proof.Machine.execLd c w s
  | .st c w => Sys2Proof.Machine.execSt c w s
  | .ldseg c w => Sys2Proof.Machine.execLdseg c w s
  | .aadd c w => Sys2Proof.Machine.execAadd c w s
  | .aswap c w => Sys2Proof.Machine.execAswap c w s
  | .acas c w => Sys2Proof.Machine.execAcas c w s
  | .push c w => Sys2Proof.Machine.execPush c w s
  | .pop c w => Sys2Proof.Machine.execPop c w s
  | .popComplete c => Sys2Proof.Machine.execPopComplete c s
  | .popnb c w => Sys2Proof.Machine.execPopnb c w s
  | .peek c w => Sys2Proof.Machine.execPeek c w s
  | .rlen c w => Sys2Proof.Machine.execRlen c w s
  | .balloc c w => Sys2Proof.Machine.execBalloc c w s
  | .bfree c w => Sys2Proof.Machine.execBfree c w s
  | .bxfer c w => Sys2Proof.Machine.execBxfer c w s
  | .bstat c w => Sys2Proof.Machine.execBstat c w s
  | .waitt c w => Sys2Proof.Machine.execWaitt c w s
  | .waittComplete c => Sys2Proof.Machine.execWaittComplete c s
  | .waitd c w => Sys2Proof.Machine.execWaitd c w s
  | .waitdComplete c => Sys2Proof.Machine.execWaitdComplete c s
  | .fence c w => Sys2Proof.Machine.execFence c w s
  | .evt c w => Sys2Proof.Machine.execEvt c w s
  | .tkwait c w => Sys2Proof.Machine.execTkwait c w s
  | .tkwaitComplete c => Sys2Proof.Machine.execTkwaitComplete c s
  | .tkpoll c w => Sys2Proof.Machine.execTkpoll c w s
  | .enc c w => Sys2Proof.Machine.execEnc c w s
  | .encr c w => Sys2Proof.Machine.execEncr c w s
  | .dec c w => Sys2Proof.Machine.execDec c w s
  | .vfy c w => Sys2Proof.Machine.execVfy c w s
  | .ana c w => Sys2Proof.Machine.execAna c w s
  | .pix c w => Sys2Proof.Machine.execPix c w s
  | .comp c w => Sys2Proof.Machine.execComp c w s
  | .dma c w => Sys2Proof.Machine.execDma c w s
  | .seal c w => Sys2Proof.Machine.execSeal c w s
  | .magw c w => Sys2Proof.Machine.execMagw c w s
  | .nettx c w => Sys2Proof.Machine.execNettx c w s
  | .ingest c w => Sys2Proof.Machine.execIngest c w s
  | .keyop c w => Sys2Proof.Machine.execKeyop c w s
  | .dispatchStallIssue c => Sys2Proof.Machine.execDispatchStallIssue c s
  | .mbxsend c w => Sys2Proof.Machine.execMbxsend c w s
  | .mbxrecv c w => Sys2Proof.Machine.execMbxrecv c w s
  | .dbell c w => Sys2Proof.Machine.execDbell c w s
  | .irq c w => Sys2Proof.Machine.execIrq c w s
  | .yield c w => Sys2Proof.Machine.execYield c w s
  | .halt c w => Sys2Proof.Machine.execHalt c w s
  | .csrr c w => Sys2Proof.Machine.execCsrr c w s
  | .csrw c w => Sys2Proof.Machine.execCsrw c w s
  | .illegalInstruction c word => Sys2Proof.Machine.execIllegalInstruction c word s
  | .threadRecordWrite c => Sys2Proof.Machine.execThreadRecordWrite c s
  | .mtLoad who c => Sys2Proof.Machine.execMtLoad who c s
  | .loadComplete c sigOk => Sys2Proof.Machine.execLoadComplete c sigOk s
  | .mtStart who c => Sys2Proof.Machine.execMtStart who c s
  | .mtStop who c => Sys2Proof.Machine.execMtStop who c s
  | .mtResume who c => Sys2Proof.Machine.execMtResume who c s
  | .mtUnload who c => Sys2Proof.Machine.execMtUnload who c s
  | .woAccept t => Sys2Proof.Machine.execWoAccept t s
  | .completionRecordWrite t => Sys2Proof.Machine.execCompletionRecordWrite t s
  | .deadlineExpire t => Sys2Proof.Machine.execDeadlineExpire t s
  | .woCancel who t => Sys2Proof.Machine.execWoCancel who t s
  | .abortAtBoundary t stop => Sys2Proof.Machine.execAbortAtBoundary t stop s
  | .encPictureStart t pre head => Sys2Proof.Machine.execEncPictureStart t pre head s
  | .encCu t tile fail => Sys2Proof.Machine.execEncCu t tile fail s
  | .encPictureCoded t suffix => Sys2Proof.Machine.execEncPictureCoded t suffix s
  | .encRingPush t => Sys2Proof.Machine.execEncRingPush t s
  | .encrRowStart t k => Sys2Proof.Machine.execEncrRowStart t k s
  | .verifyEnd t decoded => Sys2Proof.Machine.execVerifyEnd t decoded s
  | .preempt u q => Sys2Proof.Machine.execPreempt u q s
  | .suspendedResume u => Sys2Proof.Machine.execSuspendedResume u s
  | .engineProgStep u code last => Sys2Proof.Machine.execEngineProgStep u code last s
  | .ceParityFault u nano addr lanes => Sys2Proof.Machine.execCeParityFault u nano addr lanes s
  | .anaStart t => Sys2Proof.Machine.execAnaStart t s
  | .anaEnd t => Sys2Proof.Machine.execAnaEnd t s
  | .decPictureStart t head => Sys2Proof.Machine.execDecPictureStart t head s
  | .decCtu t a data => Sys2Proof.Machine.execDecCtu t a data s
  | .decPictureEnd t same outs flush => Sys2Proof.Machine.execDecPictureEnd t same outs flush s
  | .trussPatchGo who n mask => Sys2Proof.Machine.execTrussPatchGo who n mask s
  | .patchVerifyDone n good => Sys2Proof.Machine.execPatchVerifyDone n good s
  | .patchApply n => Sys2Proof.Machine.execPatchApply n s
  | .pixStart t rows => Sys2Proof.Machine.execPixStart t rows s
  | .pixEnd t => Sys2Proof.Machine.execPixEnd t s
  | .mortarFrameBoundary n => Sys2Proof.Machine.execMortarFrameBoundary n s
  | .mortarLineCompose n late wbLate => Sys2Proof.Machine.execMortarLineCompose n late wbLate s
  | .sdiFrameSend n => Sys2Proof.Machine.execSdiFrameSend n s
  | .csiPortCfgWrite who n v => Sys2Proof.Machine.execCsiPortCfgWrite who n v s
  | .csiFrameStart n vc fn ecc => Sys2Proof.Machine.execCsiFrameStart n vc fn ecc s
  | .csiLine n vc dt line payload crcOk excess ecc => Sys2Proof.Machine.execCsiLine n vc dt line payload crcOk excess ecc s
  | .csiMetaPacket n vc dt payload crcOk ecc => Sys2Proof.Machine.execCsiMetaPacket n vc dt payload crcOk ecc s
  | .csiFrameEnd n vc ecc => Sys2Proof.Machine.execCsiFrameEnd n vc ecc s
  | .frameTimeout t => Sys2Proof.Machine.execFrameTimeout t s
  | .trigPulse p => Sys2Proof.Machine.execTrigPulse p s
  | .magLinkUp p link gen found => Sys2Proof.Machine.execMagLinkUp p link gen found s
  | .magLinkDown p link ctrl => Sys2Proof.Machine.execMagLinkDown p link ctrl s
  | .magCfgWrite who v => Sys2Proof.Machine.execMagCfgWrite who v s
  | .magwOpen t => Sys2Proof.Machine.execMagwOpen t s
  | .magwWrite t => Sys2Proof.Machine.execMagwWrite t s
  | .magwClose t => Sys2Proof.Machine.execMagwClose t s
  | .magRecordComplete clip seq nvme => Sys2Proof.Machine.execMagRecordComplete clip seq nvme s
  | .sealRecordSign clip good => Sys2Proof.Machine.execSealRecordSign clip good s
  | .magEmergSwTrig who => Sys2Proof.Machine.execMagEmergSwTrig who s
  | .emergencyCloseDone lost => Sys2Proof.Machine.execEmergencyCloseDone lost s
  | .sdiCfgWrite who n v => Sys2Proof.Machine.execSdiCfgWrite who n v s
  | .dmcAccess requester a write data size => Sys2Proof.Machine.execDmcAccess requester a write data size s
  | .dmcSchedule ch flt => Sys2Proof.Machine.execDmcSchedule ch flt s
  | .dmcPowerDown ch => Sys2Proof.Machine.execDmcPowerDown ch s
  | .refreshDue ch bank => Sys2Proof.Machine.execRefreshDue ch bank s
  | .mr4Poll ch v => Sys2Proof.Machine.execMr4Poll ch v s
  | .scrubRead n flt => Sys2Proof.Machine.execScrubRead n flt s
  | .retrainCheck ch drift failed => Sys2Proof.Machine.execRetrainCheck ch drift failed s
  | .retrainRetry ch failed => Sys2Proof.Machine.execRetrainRetry ch failed s
  | .dmcLogPop who n => Sys2Proof.Machine.execDmcLogPop who n s
  | .memRegionWrite n base limit => Sys2Proof.Machine.execMemRegionWrite n base limit s
  | .ashlarAccess requester ch a op flt => Sys2Proof.Machine.execAshlarAccess requester ch a op flt s
  | .ashlarOwnerWrite who n v => Sys2Proof.Machine.execAshlarOwnerWrite who n v s
  | .ashlarDrainDone n => Sys2Proof.Machine.execAshlarDrainDone n s
  | .ashlarWipeDone n => Sys2Proof.Machine.execAshlarWipeDone n s
  | .absWipeDone bad => Sys2Proof.Machine.execAbsWipeDone bad s
  | .yardCtrlEn who => Sys2Proof.Machine.execYardCtrlEn who s
  | .yardAlloc who => Sys2Proof.Machine.execYardAlloc who s
  | .yardFree who h => Sys2Proof.Machine.execYardFree who h s
  | .yardXfer who h => Sys2Proof.Machine.execYardXfer who h s
  | .yardLowWaterWrite who n v => Sys2Proof.Machine.execYardLowWaterWrite who n v s
  | .hostBar2Access f off n data => Sys2Proof.Machine.execHostBar2Access f off n data s
  | .ringEnable who n v => Sys2Proof.Machine.execRingEnable who n v s
  | .ringDisable who n v => Sys2Proof.Machine.execRingDisable who n v s
  | .ringReset who n v => Sys2Proof.Machine.execRingReset who n v s
  | .ringRefill n => Sys2Proof.Machine.execRingRefill n s
  | .hostPushSopEop f n data => Sys2Proof.Machine.execHostPushSopEop f n data s
  | .hostPushSop f n data => Sys2Proof.Machine.execHostPushSop f n data s
  | .hostPushMid f n data => Sys2Proof.Machine.execHostPushMid f n data s
  | .hostPushEop f n data => Sys2Proof.Machine.execHostPushEop f n data s
  | .hostPop f n size => Sys2Proof.Machine.execHostPop f n size s
  | .hostPopTimeout n => Sys2Proof.Machine.execHostPopTimeout n s
  | .hostRingStatusRead f n => Sys2Proof.Machine.execHostRingStatusRead f n s
  | .dmaDescFetch ch => Sys2Proof.Machine.execDmaDescFetch ch s
  | .dmaDescComplete ch host => Sys2Proof.Machine.execDmaDescComplete ch host s
  | .dmaDbell who c => Sys2Proof.Machine.execDmaDbell who c s
  | .swFrameRx p data fcsOk => Sys2Proof.Machine.execSwFrameRx p data fcsOk s
  | .pfcRepeat p c => Sys2Proof.Machine.execPfcRepeat p c s
  | .pfcRx p enable quanta => Sys2Proof.Machine.execPfcRx p enable quanta s
  | .egressFrameStart p => Sys2Proof.Machine.execEgressFrameStart p s
  | .swLinkDown p => Sys2Proof.Machine.execSwLinkDown p s
  | .holdExpire p => Sys2Proof.Machine.execHoldExpire p s
  | .swLinkUp p => Sys2Proof.Machine.execSwLinkUp p s
  | .ethPortCfgWrite who p v => Sys2Proof.Machine.execEthPortCfgWrite who p v s
  | .ethTimeStep who v => Sys2Proof.Machine.execEthTimeStep who v s
  | .ethTimeRate who v => Sys2Proof.Machine.execEthTimeRate who v s
  | .topTimeReadLo who => Sys2Proof.Machine.execTopTimeReadLo who s
  | .rxDeliver c => Sys2Proof.Machine.execRxDeliver c s
  | .nettxPacket t => Sys2Proof.Machine.execNettxPacket t s
  | .ethIpCfgWrite who n v => Sys2Proof.Machine.execEthIpCfgWrite who n v s
  | .ethQhwmRead who p c => Sys2Proof.Machine.execEthQhwmRead who p c s
  | .gateChange who p v => Sys2Proof.Machine.execGateChange who p v s
  | .gateListStart p => Sys2Proof.Machine.execGateListStart p s
  | .gateEntryAdvance p => Sys2Proof.Machine.execGateEntryAdvance p s
  | .bondSyncRx n f => Sys2Proof.Machine.execBondSyncRx n f s
  | .bondSchedGo who v => Sys2Proof.Machine.execBondSchedGo who v s
  | .bondSchedRx n f => Sys2Proof.Machine.execBondSchedRx n f s
  | .bondMsgRx n f => Sys2Proof.Machine.execBondMsgRx n f s
  | .proxyRetransmit k => Sys2Proof.Machine.execProxyRetransmit k s
  | .bondStreamRx n f => Sys2Proof.Machine.execBondStreamRx n f s
  | .bondLinkDown n => Sys2Proof.Machine.execBondLinkDown n s
  | .msixTimerExpire f v => Sys2Proof.Machine.execMsixTimerExpire f v s
  | .d3hotEntry f => Sys2Proof.Machine.execD3hotEntry f s
  | .d0Entry f => Sys2Proof.Machine.execD0Entry f s
  | .flrInitiate f => Sys2Proof.Machine.execFlrInitiate f s
  | .flrComplete f => Sys2Proof.Machine.execFlrComplete f s
  | .ideTlpFail n => Sys2Proof.Machine.execIdeTlpFail n s
  | .getVersion req => Sys2Proof.Machine.execGetVersion req s
  | .getCapabilities req => Sys2Proof.Machine.execGetCapabilities req s
  | .negotiateAlgorithms req offered => Sys2Proof.Machine.execNegotiateAlgorithms req offered s
  | .getDigests req => Sys2Proof.Machine.execGetDigests req s
  | .getCertificate req slot off len => Sys2Proof.Machine.execGetCertificate req slot off len s
  | .challenge req slot => Sys2Proof.Machine.execChallenge req slot s
  | .getMeasurements req index sign => Sys2Proof.Machine.execGetMeasurements req index sign s
  | .keyExchange req slot => Sys2Proof.Machine.execKeyExchange req slot s
  | .finish req good => Sys2Proof.Machine.execFinish req good s
  | .qpRead a => Sys2Proof.Machine.execQpRead a s
  | .qpDoorbellWrite a v clash => Sys2Proof.Machine.execQpDoorbellWrite a v clash s
  | .qpTriggerWrite a v clash => Sys2Proof.Machine.execQpTriggerWrite a v clash s
  | .intcEvent n => Sys2Proof.Machine.execIntcEvent n s
  | .intcClaim who r => Sys2Proof.Machine.execIntcClaim who r s
  | .intcComplete who r v => Sys2Proof.Machine.execIntcComplete who r v s
  | .intcPendSet who w v => Sys2Proof.Machine.execIntcPendSet who w v s
  | .intcPendClr who w v => Sys2Proof.Machine.execIntcPendClr who w v s
  | .intcEnSet who w v => Sys2Proof.Machine.execIntcEnSet who w v s
  | .intcEnClr who w v => Sys2Proof.Machine.execIntcEnClr who w v s
  | .mbxSendWrite who c v => Sys2Proof.Machine.execMbxSendWrite who c v s
  | .mbxRecvRead who c => Sys2Proof.Machine.execMbxRecvRead who c s
  | .mbxDbSet who c v => Sys2Proof.Machine.execMbxDbSet who c v s
  | .mbxDbClr who c v => Sys2Proof.Machine.execMbxDbClr who c v s
  | .mbxCrossTimeout k => Sys2Proof.Machine.execMbxCrossTimeout k s
  | .mbxCrossClear who v => Sys2Proof.Machine.execMbxCrossClear who v s
  | .clipNew t => Sys2Proof.Machine.execClipNew t s
  | .wrap t => Sys2Proof.Machine.execWrap t s
  | .enrol t good => Sys2Proof.Machine.execEnrol t good s
  | .destroy t => Sys2Proof.Machine.execDestroy t s
  | .keyImport t good => Sys2Proof.Machine.execKeyImport t good s
  | .region t => Sys2Proof.Machine.execRegion t s
  | .sign t => Sys2Proof.Machine.execSign t s
  | .openRecord t => Sys2Proof.Machine.execOpenRecord t s
  | .ksArbCommit who n good => Sys2Proof.Machine.execKsArbCommit who n good s
  | .tamperEvent src => Sys2Proof.Machine.execTamperEvent src s
  | .lcRequestGo who sigOk => Sys2Proof.Machine.execLcRequestGo who sigOk s
  | .plumbEvent n detail => Sys2Proof.Machine.execPlumbEvent n detail s
  | .plumbRecClose who n => Sys2Proof.Machine.execPlumbRecClose who n s
  | .plumbSrcClear who n => Sys2Proof.Machine.execPlumbSrcClear who n s
  | .wdogKick who v => Sys2Proof.Machine.execWdogKick who v s
  | .por ordered => Sys2Proof.Machine.execPor ordered s
  | .coldReset low => Sys2Proof.Machine.execColdReset low s
  | .crpResetCtrlWarm who v => Sys2Proof.Machine.execCrpResetCtrlWarm who v s
  | .zeroDone xtal => Sys2Proof.Machine.execZeroDone xtal s
  | .bootStageAdvance x => Sys2Proof.Machine.execBootStageAdvance x s
  | .pwrReqActive who => Sys2Proof.Machine.execPwrReqActive who s
  | .pwrReqStandby who => Sys2Proof.Machine.execPwrReqStandby who s
  | .pwrReqSleep who => Sys2Proof.Machine.execPwrReqSleep who s
  | .sdiPllUpdate n => Sys2Proof.Machine.execSdiPllUpdate n s
  | .perfFreeze who on => Sys2Proof.Machine.execPerfFreeze who on s
  | .perfClear who => Sys2Proof.Machine.execPerfClear who s
  | .registerWrite who off n v => Sys2Proof.Machine.execRegisterWrite who off n v s
  | .csiHsSync n valid => Sys2Proof.Machine.execCsiHsSync n valid s
  | .magwCloseFlushDone clip nvme => Sys2Proof.Machine.execMagwCloseFlushDone clip nvme s
  | .pfcPauseExpire p c => Sys2Proof.Machine.execPfcPauseExpire p c s
  | .woLastPfFlrRead who => Sys2Proof.Machine.execWoLastPfFlrRead who s
  | .heartbeat req => Sys2Proof.Machine.execHeartbeat req s
  | .keyUpdate req op tag => Sys2Proof.Machine.execKeyUpdate req op tag s
  | .endSession req => Sys2Proof.Machine.execEndSession req s
  | .fabricTimeout r => Sys2Proof.Machine.execFabricTimeout r s
  | .sleepWake src => Sys2Proof.Machine.execSleepWake src s
  | .sleepExitDone ok => Sys2Proof.Machine.execSleepExitDone ok s
  | .tempUpdate v => Sys2Proof.Machine.execTempUpdate v s
  | .doeDiscovery index => Sys2Proof.Machine.execDoeDiscovery index s
  | .ideKm obj stream key => Sys2Proof.Machine.execIdeKm obj stream key s
  | .tapInstruction op => Sys2Proof.Machine.execTapInstruction op s
  | .magEmergNFall => Sys2Proof.Machine.execMagEmergNFall s
  | .shaperTick => Sys2Proof.Machine.execShaperTick s
  | .queueSample => Sys2Proof.Machine.execQueueSample s
  | .syncRequestSend => Sys2Proof.Machine.execSyncRequestSend s
  | .bondHoldoverTimeout => Sys2Proof.Machine.execBondHoldoverTimeout s
  | .bondSchedRepeat => Sys2Proof.Machine.execBondSchedRepeat s
  | .linkL0Entry => Sys2Proof.Machine.execLinkL0Entry s
  | .vfEnableClear => Sys2Proof.Machine.execVfEnableClear s
  | .hostPerstAssert => Sys2Proof.Machine.execHostPerstAssert s
  | .hostPerstRelease => Sys2Proof.Machine.execHostPerstRelease s
  | .qpReadTimeLo => Sys2Proof.Machine.execQpReadTimeLo s
  | .lcRequestDone => Sys2Proof.Machine.execLcRequestDone s
  | .wdogExpire => Sys2Proof.Machine.execWdogExpire s
  | .warmReset => Sys2Proof.Machine.execWarmReset s
  | .standbyEnter => Sys2Proof.Machine.execStandbyEnter s
  | .sleepEnter => Sys2Proof.Machine.execSleepEnter s
  | .aonSupplyLoss => Sys2Proof.Machine.execAonSupplyLoss s
  | .perfDump => Sys2Proof.Machine.execPerfDump s
  | .perfSample => Sys2Proof.Machine.execPerfSample s
  | .perfBwWindow => Sys2Proof.Machine.execPerfBwWindow s
  | .aonSupplyReturn => Sys2Proof.Machine.execAonSupplyReturn s
  | .linkL1Entry => Sys2Proof.Machine.execLinkL1Entry s
  | .pmeTurnOff => Sys2Proof.Machine.execPmeTurnOff s
  | .vfEnableSet => Sys2Proof.Machine.execVfEnableSet s

end Sys2Proof.Machine
end

