-- ==== Sys2Proof/WellFormed.lean ====
section
/-! DEFINITION. Commands whose operands lie in the ranges the spec gives them: context, function, port, channel and ticket numbers, field
widths, and for an opcode with one form the form itself (R20). -/

namespace Sys2Proof

/-- a < b as a flag. -/
def lt (a b : Nat) : Bool := decide (a < b)

/-- Who makes a register access is a function or a context that exists. -/
def Who.wf : Who → Bool
  | .host f => lt f 16
  | .holt c => lt c 512
  | .keystone => true
  | .config f => lt f 16

/-- A value that a dispatch may issue (R43). -/
def isTicket (t : Nat) : Bool := lt t 0xFFFFF000

/-- A unit ID of an engine or an analysis unit (R80). -/
def isEngine (u : Nat) : Bool := lt u 120 || (lt 134 u && lt u 147)

/-- The opcode of a word is one that R20 leaves unassigned. -/
def isUnassigned (word : Word) : Bool := decide (holtDecode 0 word = .illegalInstruction 0 word)

/-- A command whose operands lie in their ranges. -/
def Instr.wf : Instr → Bool
  | .add c _ => lt c 512
  | .sub c _ => lt c 512
  | .and c _ => lt c 512
  | .or c _ => lt c 512
  | .xor c _ => lt c 512
  | .shl c _ => lt c 512
  | .shr c _ => lt c 512
  | .sar c _ => lt c 512
  | .mul c _ => lt c 512
  | .mulh c _ => lt c 512
  | .min c _ => lt c 512
  | .max c _ => lt c 512
  | .cmp c _ => lt c 512
  | .sel c _ => lt c 512
  | .mov c w => lt c 512 && w.imm == false
  | .movi c w => lt c 512 && w.imm == true
  | .movhi c w => lt c 512 && w.imm == true
  | .b c _ => lt c 512
  | .bcond c _ => lt c 512
  | .call c _ => lt c 512
  | .ret c w => lt c 512 && w.imm == false
  | .switch c _ => lt c 512
  | .ld c _ => lt c 512
  | .st c _ => lt c 512
  | .ldseg c _ => lt c 512
  | .aadd c _ => lt c 512
  | .aswap c _ => lt c 512
  | .acas c _ => lt c 512
  | .push c _ => lt c 512
  | .pop c _ => lt c 512
  | .popComplete c => lt c 512
  | .popnb c _ => lt c 512
  | .peek c _ => lt c 512
  | .rlen c _ => lt c 512
  | .balloc c _ => lt c 512
  | .bfree c w => lt c 512 && w.imm == false
  | .bxfer c _ => lt c 512
  | .bstat c w => lt c 512 && w.imm == false
  | .waitt c _ => lt c 512
  | .waittComplete c => lt c 512
  | .waitd c _ => lt c 512
  | .waitdComplete c => lt c 512
  | .fence c w => lt c 512 && w.imm == false
  | .evt c w => lt c 512 && w.imm == true
  | .tkwait c w => lt c 512 && w.mod != 1
  | .tkwaitComplete c => lt c 512
  | .tkpoll c w => lt c 512 && w.mod == 1
  | .enc c _ => lt c 512
  | .encr c _ => lt c 512
  | .dec c _ => lt c 512
  | .vfy c _ => lt c 512
  | .ana c _ => lt c 512
  | .pix c _ => lt c 512
  | .comp c _ => lt c 512
  | .dma c _ => lt c 512
  | .seal c _ => lt c 512
  | .magw c _ => lt c 512
  | .nettx c _ => lt c 512
  | .ingest c _ => lt c 512
  | .keyop c _ => lt c 512
  | .dispatchStallIssue c => lt c 512
  | .mbxsend c _ => lt c 512
  | .mbxrecv c _ => lt c 512
  | .dbell c _ => lt c 512
  | .irq c _ => lt c 512
  | .yield c w => lt c 512 && w.imm == false
  | .halt c w => lt c 512 && w.imm == false
  | .csrr c _ => lt c 512
  | .csrw c _ => lt c 512
  | .illegalInstruction c word => lt c 512 && isUnassigned word
  | .threadRecordWrite c => lt c 512
  | .mtLoad who c => who.wf && lt c 512
  | .loadComplete c _ => lt c 512
  | .mtStart who c => who.wf && lt c 512
  | .mtStop who c => who.wf && lt c 512
  | .mtResume who c => who.wf && lt c 512
  | .mtUnload who c => who.wf && lt c 512
  | .woAccept t => isTicket t
  | .completionRecordWrite t => isTicket t
  | .deadlineExpire t => isTicket t
  | .woCancel who t => who.wf && isTicket t
  | .abortAtBoundary t _ => isTicket t
  | .encPictureStart t _ _ => isTicket t
  | .encCu t tile _ => isTicket t && lt tile 256
  | .encPictureCoded t _ => isTicket t
  | .encRingPush t => isTicket t
  | .encrRowStart t k => isTicket t && lt k 512
  | .verifyEnd t _ => isTicket t
  | .preempt u q => isEngine u && isTicket q
  | .suspendedResume u => isEngine u
  | .engineProgStep u code _ => lt u 96 && lt code 16
  | .ceParityFault u nano addr lanes => lt u 96 && lt addr (if nano then 1024 else 4096) && lt lanes 256
  | .anaStart t => isTicket t
  | .anaEnd t => isTicket t
  | .decPictureStart t _ => isTicket t
  | .decCtu t _ _ => isTicket t
  | .decPictureEnd t _ _ _ => isTicket t
  | .trussPatchGo who n _ => who.wf && lt n 12
  | .patchVerifyDone n _ => lt n 12
  | .patchApply n => lt n 12
  | .pixStart t _ => isTicket t
  | .pixEnd t => isTicket t
  | .mortarFrameBoundary n => lt n 6
  | .mortarLineCompose n _ _ => lt n 6
  | .sdiFrameSend n => lt n 4
  | .csiPortCfgWrite who n _ => who.wf && lt n 8
  | .csiFrameStart n vc fn _ => lt n 8 && lt vc 16 && lt fn 65536
  | .csiLine n vc dt line payload _ _ _ => lt n 8 && lt vc 16 && lt dt 64 && lt line 65536 && lt payload.length 65536
  | .csiMetaPacket n vc dt payload _ _ => lt n 8 && lt vc 16 && lt dt 64 && lt payload.length 65536
  | .csiFrameEnd n vc _ => lt n 8 && lt vc 16
  | .frameTimeout t => isTicket t
  | .trigPulse p => lt p 4
  | .magLinkUp p link gen found => lt p 2 && lt link 2 && lt gen 8 && lt found.length 17
  | .magLinkDown p link ctrl => lt p 2 && lt link 2 && (match ctrl with | some k => lt k 16 | none => true)
  | .magCfgWrite who _ => who.wf
  | .magwOpen t => isTicket t
  | .magwWrite t => isTicket t
  | .magwClose t => isTicket t
  | .magRecordComplete clip _ nvme => lt clip 16 && lt nvme 65536
  | .sealRecordSign clip _ => lt clip 16
  | .magEmergSwTrig who => who.wf
  | .emergencyCloseDone lost => lost.all (fun k => lt k 16)
  | .sdiCfgWrite who n _ => who.wf && lt n 4
  | .dmcAccess requester a write data size => lt requester 48 && lt a (2 ^ 48) && (if write then lt data.length 4097 && !data.isEmpty else lt size 4097 && lt 0 size)
  | .dmcSchedule ch _ => lt ch 32
  | .dmcPowerDown ch => lt ch 32
  | .refreshDue ch bank => lt ch 32 && lt bank 32
  | .mr4Poll ch v => lt ch 32 && lt v 256
  | .scrubRead n _ => lt n 16
  | .retrainCheck ch _ _ => lt ch 32
  | .retrainRetry ch _ => lt ch 32
  | .dmcLogPop who n => who.wf && lt n 16
  | .memRegionWrite n base limit => lt n 64 && lt base (2 ^ 32) && lt limit (2 ^ 32)
  | .ashlarAccess requester _ a _ _ => lt requester 48 && lt a (2 ^ 48)
  | .ashlarOwnerWrite who n _ => who.wf && lt n 32
  | .ashlarDrainDone n => lt n 32
  | .ashlarWipeDone n => lt n 32
  | .absWipeDone bad => (match bad with | some k => lt k 0x200000 | none => true)
  | .yardCtrlEn who => who.wf
  | .yardAlloc who => who.wf
  | .yardFree who _ => who.wf
  | .yardXfer who _ => who.wf
  | .yardLowWaterWrite who n _ => who.wf && lt n 16
  | .hostBar2Access f off n data => lt f 16 && lt 0 n && lt n 4097 && lt (off % 4096 + n) 4097 && (match data with | some l => l.length == n | none => true)
  | .ringEnable who n _ => who.wf && lt n 8192
  | .ringDisable who n _ => who.wf && lt n 8192
  | .ringReset who n _ => who.wf && lt n 8192
  | .ringRefill n => lt n 8192
  | .hostPushSopEop f n data => lt f 16 && lt n 8192 && data.length == 32
  | .hostPushSop f n data => lt f 16 && lt n 8192 && data.length == 32
  | .hostPushMid f n data => lt f 16 && lt n 8192 && data.length == 32
  | .hostPushEop f n data => lt f 16 && lt n 8192 && data.length == 32
  | .hostPop f n size => lt f 16 && lt n 8192 && lt 0 size
  | .hostPopTimeout n => lt n 8192
  | .hostRingStatusRead f n => lt f 16 && lt n 8192
  | .dmaDescFetch ch => lt ch 64
  | .dmaDescComplete ch _ => lt ch 64
  | .dmaDbell who c => who.wf && lt c 64
  | .swFrameRx p _ _ => lt p 4
  | .pfcRepeat p c => lt p 6 && lt c 8
  | .pfcRx p enable quanta => lt p 6 && lt enable 256 && quanta.length == 8
  | .egressFrameStart p => lt p 6
  | .swLinkDown p => lt p 4
  | .holdExpire p => lt p 6
  | .swLinkUp p => lt p 4
  | .ethPortCfgWrite who p _ => who.wf && lt p 4
  | .ethTimeStep who _ => who.wf
  | .ethTimeRate who _ => who.wf
  | .topTimeReadLo who => who.wf
  | .rxDeliver c => lt c 8
  | .nettxPacket t => isTicket t
  | .ethIpCfgWrite who n _ => who.wf && lt n 2
  | .ethQhwmRead who p c => who.wf && lt p 6 && lt c 8
  | .gateChange who p _ => who.wf && lt p 6
  | .gateListStart p => lt p 6
  | .gateEntryAdvance p => lt p 6
  | .bondSyncRx n _ => lt n 2
  | .bondSchedGo who _ => who.wf
  | .bondSchedRx n _ => lt n 2
  | .bondMsgRx n _ => lt n 2
  | .proxyRetransmit k => lt k 8
  | .bondStreamRx n _ => lt n 2
  | .bondLinkDown n => lt n 2
  | .msixTimerExpire f v => lt f 16 && lt v 128
  | .d3hotEntry f => lt f 16
  | .d0Entry f => lt f 16
  | .flrInitiate f => lt f 16
  | .flrComplete f => lt f 16
  | .ideTlpFail n => lt n 5
  | .getVersion _ => true
  | .getCapabilities _ => true
  | .negotiateAlgorithms _ _ => true
  | .getDigests _ => true
  | .getCertificate _ slot off len => lt slot 256 && lt off 65536 && lt len 65536
  | .challenge _ slot => lt slot 256
  | .getMeasurements _ index _ => lt index 256
  | .keyExchange _ slot => lt slot 256
  | .finish _ _ => true
  | .qpRead a => lt a 4096
  | .qpDoorbellWrite a _ _ => lt a 4096
  | .qpTriggerWrite a _ _ => lt a 4096
  | .intcEvent n => lt n 1024
  | .intcClaim who r => who.wf && (lt r 10 || (lt 15 r && lt r 32))
  | .intcComplete who r _ => who.wf && (lt r 10 || (lt 15 r && lt r 32))
  | .intcPendSet who w _ => who.wf && lt w 32
  | .intcPendClr who w _ => who.wf && lt w 32
  | .intcEnSet who w _ => who.wf && lt w 32
  | .intcEnClr who w _ => who.wf && lt w 32
  | .mbxSendWrite who c _ => who.wf && lt c 64
  | .mbxRecvRead who c => who.wf && lt c 64
  | .mbxDbSet who c _ => who.wf && lt c 64
  | .mbxDbClr who c _ => who.wf && lt c 64
  | .mbxCrossTimeout k => lt k 32
  | .mbxCrossClear who _ => who.wf
  | .clipNew t => isTicket t
  | .wrap t => isTicket t
  | .enrol t _ => isTicket t
  | .destroy t => isTicket t
  | .keyImport t _ => isTicket t
  | .region t => isTicket t
  | .sign t => isTicket t
  | .openRecord t => isTicket t
  | .ksArbCommit who n _ => who.wf && lt n 4
  | .tamperEvent src => lt src 7
  | .lcRequestGo who _ => who.wf
  | .plumbEvent n detail => lt n 512 && lt detail (2 ^ 64)
  | .plumbRecClose who n => who.wf && lt n 64
  | .plumbSrcClear who n => who.wf && lt n 512
  | .wdogKick who _ => who.wf
  | .por _ => true
  | .coldReset _ => true
  | .crpResetCtrlWarm who _ => who.wf
  | .zeroDone _ => true
  | .bootStageAdvance _ => true
  | .pwrReqActive who => who.wf
  | .pwrReqStandby who => who.wf
  | .pwrReqSleep who => who.wf
  | .sdiPllUpdate n => lt n 4
  | .perfFreeze who _ => who.wf
  | .perfClear who => who.wf
  | .registerWrite who off n _ => who.wf && lt off (2 ^ 28) && (n == 4 || n == 8)
  | .csiHsSync n _ => lt n 8
  | .magwCloseFlushDone clip nvme => lt clip 16 && lt nvme 65536
  | .pfcPauseExpire p c => lt p 6 && lt c 8
  | .woLastPfFlrRead who => who.wf
  | .heartbeat _ => true
  | .keyUpdate _ op tag => lt op 256 && lt tag 256
  | .endSession _ => true
  | .fabricTimeout r => lt r 48
  | .sleepWake src => lt src 3
  | .sleepExitDone _ => true
  | .tempUpdate _ => true
  | .doeDiscovery index => lt index 256
  | .ideKm obj stream _ => lt obj 256 && lt stream 256
  | .tapInstruction _ => true
  | .magEmergNFall => true
  | .shaperTick => true
  | .queueSample => true
  | .syncRequestSend => true
  | .bondHoldoverTimeout => true
  | .bondSchedRepeat => true
  | .linkL0Entry => true
  | .vfEnableClear => true
  | .hostPerstAssert => true
  | .hostPerstRelease => true
  | .qpReadTimeLo => true
  | .lcRequestDone => true
  | .wdogExpire => true
  | .warmReset => true
  | .standbyEnter => true
  | .sleepEnter => true
  | .aonSupplyLoss => true
  | .perfDump => true
  | .perfSample => true
  | .perfBwWindow => true
  | .aonSupplyReturn => true
  | .linkL1Entry => true
  | .pmeTurnOff => true
  | .vfEnableSet => true

end Sys2Proof
end

