-- ==== Sys2Proof/Safety.lean ====
section
/-! DEFINITION. The terms in which claims speak of a run: which commands complete, when a context can issue an instruction, and the state
that an instruction leaves. -/

namespace Sys2Proof.Machine

/-- The one command to which the spec gives no effect: a power-on whose supplies rose out of order (R501). -/
def stops : Instr → Bool
  | .por ordered => !ordered
  | _ => false

/-- A step that answers a next state. -/
def goesOn (o : Host.Outcome State Fault Refusal) : Bool :=
  match o with
  | .next _ => true
  | _ => false

/-! Holt. -/

/-- Context c can issue an instruction: it is READY, its core chooses it for this issue cycle (R53), and the fetch at its PC passes every check
of R25. -/
def canIssue (s : State) (c : Nat) : Bool :=
  decide (c < 512) && decide ((ctxAt s.dev c).st = .ready) && mayIssue s.dev c &&
    (match fetch (issued s.dev c) c with | .ok _ _ _ => true | _ => false)

/-- The form rule of R20 for an instruction with both forms: hb is 0 in the immediate form and imm37 in the register form. -/
def formOk (w : HoltWord) : Bool := if w.imm then w.hb == 0 else w.imm37 == 0

/-- The conditions of R28 by their codes, as facts about the numbers that the registers hold. -/
def condOf (m : Nat) (a b : Word) : Prop :=
  match m with
  | 0 => a.toNat = b.toNat
  | 1 => a.toNat ≠ b.toNat
  | 2 => a.toInt < b.toInt
  | 3 => b.toInt ≤ a.toInt
  | 4 => a.toNat < b.toNat
  | 5 => b.toNat ≤ a.toNat
  | _ => False

/-- The state after context c completes an instruction that writes v to register n and goes on at pc. -/
def regStep (s : State) (c n : Nat) (v pc : Word) : State := after s (retire (setH (issued s.dev c) c n v) c pc)

/-- The state after context c completes an instruction whose own effect turns the device into d, and goes on at pc. -/
def doneStep (s : State) (d : Device) (c : Nat) (pc : Word) : State := after s (retire d c pc)

/-- The state after context c takes a trap (R48–R50). -/
def trapStep (s : State) (c cause detail : Nat) (operand : Word) : State := after s (takeTrap (issued s.dev c) c cause detail operand)

/-- d with other performance counters. -/
def withPerf (d : Device) (p : Perf) : Device := { d with perf := p }

/-- The state after context c completes an instruction that only transfers control to pc. -/
def goStep (s : State) (c : Nat) (pc : Word) : State := doneStep s (issued s.dev c) c pc

/-- The physical address and segment class of an access of context c that passes every check of R25 and R32. -/
def admitted (d : Device) (c : Nat) (a : Word) (n : Nat) (k : Acc) : Option Nat :=
  match holtAcc d c a n k with
  | .ok _ p _ => some p
  | _ => none

/-- The n bytes that a read of context c at Holt address a returns, when it passes every check of R25 and lies in memory. -/
def readable (d : Device) (c : Nat) (a : Word) (n : Nat) (k : Acc) : Option (List Byte) :=
  match admitted d c a n k with
  | some p => if isCtl p then none else some (bytesAt d p n)
  | none => none

/-- The device after the core of context c has read n bytes for it. -/
def readBy (d : Device) (c n : Nat) : Device := perfBytes d (24 + coreOf c) false n

/-! Memory and records. -/

/-- A unit's read of n bytes at an offset of a buffer is performed (R9, R13, R298–R308). -/
def loadable (d : Device) (req h off n : Nat) : Bool :=
  decide (off + n ≤ bufSize d (handleIdx h)) && decide ((memCheck d (reqOf req) false false (bufBase d (handleIdx h) + off) n).2 = .ok)

/-- A unit's write of n bytes at an offset of a buffer is performed. -/
def storable (d : Device) (req h off n : Nat) : Bool :=
  decide (off + n ≤ bufSize d (handleIdx h)) && decide ((memCheck d (reqOf req) false true (bufBase d (handleIdx h) + off) n).2 = .ok)

/-- The status that stands in the record of ticket t when its unit ends it with st: st, but for an abort that waits for its boundary in s, which
ranks before every error (R85). -/
def ranked (s : State) (t st : Nat) : Nat :=
  match woAt s.dev t with
  | some w => rankStatus w st
  | none => st

/-- Between s and u the final record of ticket t was made, for an end with status st (R79, R81, R85), and no other record. -/
def endedWith (s u : State) (t st : Nat) : Prop :=
  ∃ q, u.dev.recs = s.dev.recs ++ [q] ∧ q.ticket = t ∧ q.final = true ∧ fieldAt q.data 4 1 = ranked s t st

/-- The records of u hold a final record of ticket t with a status. -/
def hasEnded (u : State) (t st : Nat) : Prop := ∃ q ∈ u.dev.recs, q.ticket = t ∧ q.final = true ∧ fieldAt q.data 4 1 = st

/-- Plumb of u holds an open record of a source with a detail (R460, R462). -/
def reported (u : State) (n detail : Nat) : Prop := ∃ i x, tfind i u.dev.plumb.recs = some x ∧ x.source = n ∧ x.detail = detail

/-- What has left the device in u since s begins with o. -/
def sends (s u : State) (o : Out) : Prop := ∃ more, u.dev.out = s.dev.out ++ o :: more

/-- The numbers of stored and of queued frames have been given out (R349): the next frame's number is new. -/
def frameIdsOk (d : Device) : Bool :=
  d.sw.frames.all (fun e => decide (e.1 < d.sw.nextId)) && d.sw.queues.all (fun e => e.2.all (fun q => decide (q.frame < d.sw.nextId)))

/-- No class of the switch ages its frames out (R360). -/
def noAging (d : Device) : Bool := (upto 0 8).all (fun c => bitsOf (swClassCfg d c) 15 0 == 0)

/-- Bond port n of a device in a switched array takes frame f as one of a type (R384, R385, R387). -/
def bondTakes (d : Device) (n type : Nat) (f : List Byte) : Bool :=
  decide (n < 2) && bondUp d n && beAt f 12 2 == 0x88B5 && bfMine d f && bfOk f && bfType f == type && !bondRing d

end Sys2Proof.Machine
end

