-- ==== Sys2Proof/Certificates/Slice0/Obligations.lean ====
section
/-! DEFINITION. The statements for the provers. -/

open Sys2Proof Sys2Proof.Machine

/-- R27 and R28: the result of every ALU instruction, for every register, immediate and operand value. -/
def Obligations.AluResults : Prop :=
  ∀ (s : State) (c : Nat) (w : HoltWord), canIssue s c = true →
    let a := hreg s.dev c w.ha.toNat
    let b := if w.imm then w.imm37.signExtend 64 else hreg s.dev c w.hb.toNat
    let old := hreg s.dev c w.hd.toNat
    let out := fun v => Host.Outcome.next (regStep s c w.hd.toNat v ((ctxAt s.dev c).pc + 8))
    (formOk w = true → w.mod = 0 →
      exec (.add c w) s = out (BitVec.ofNat 64 (a.toNat + b.toNat)) ∧
      exec (.sub c w) s = out (BitVec.ofInt 64 ((a.toNat : Int) - b.toNat)) ∧
      exec (.and c w) s = out (a &&& b) ∧
      exec (.or c w) s = out (a ||| b) ∧
      exec (.xor c w) s = out (a ^^^ b) ∧
      exec (.shl c w) s = out (BitVec.ofNat 64 (a.toNat * 2 ^ (b.toNat % 64))) ∧
      exec (.shr c w) s = out (BitVec.ofNat 64 (a.toNat / 2 ^ (b.toNat % 64))) ∧
      exec (.sar c w) s = out (BitVec.ofInt 64 (a.toInt / 2 ^ (b.toNat % 64))) ∧
      exec (.mul c w) s = out (BitVec.ofNat 64 (a.toNat * b.toNat)) ∧
      (∃ h : Word, exec (.mulh c w) s = out h ∧ h.toInt * 2 ^ 64 + ((a * b).toNat : Int) = a.toInt * b.toInt) ∧
      exec (.min c w) s = out (if b.toInt < a.toInt then b else a) ∧
      exec (.max c w) s = out (if a.toInt < b.toInt then b else a) ∧
      exec (.sel c w) s = out (if a = 0 then old else b)) ∧
    (formOk w = true → w.mod = 1 →
      (∃ h : Word, exec (.mulh c w) s = out h ∧ h.toNat * 2 ^ 64 + (a * b).toNat = a.toNat * b.toNat) ∧
      exec (.min c w) s = out (if b.toNat < a.toNat then b else a) ∧
      exec (.max c w) s = out (if a.toNat < b.toNat then b else a) ∧
      exec (.sel c w) s = out (if a = 0 then b else old)) ∧
    (formOk w = true → w.mod.toNat < 6 →
      (condOf w.mod.toNat a b → exec (.cmp c w) s = out 1) ∧ (¬ condOf w.mod.toNat a b → exec (.cmp c w) s = out 0)) ∧
    (w.mod = 0 → w.ha = 0 → w.imm37 = 0 → exec (.mov c w) s = out (hreg s.dev c w.hb.toNat)) ∧
    (w.mod = 0 → w.ha = 0 → w.hb = 0 → exec (.movi c w) s = out (w.imm37.signExtend 64)) ∧
    (w.mod = 0 → w.ha = 0 → w.hb = 0 → exec (.movhi c w) s = out (BitVec.ofNat 64 (old.toNat % 2 ^ 27 + w.imm37.toNat * 2 ^ 27)))

/-- The frame of every instruction whose result statement names regStep. -/
def Obligations.RegStepFrame : Prop :=
  ∀ (s : State) (c n : Nat) (v pc : Word),
    let t := regStep s c n v pc
    hreg t.dev c n = (if n = 0 then 0 else v) ∧
    (∀ m, m ≠ n → hreg t.dev c m = hreg s.dev c m) ∧
    (ctxAt t.dev c).pc = pc ∧ (ctxAt t.dev c).instret = (ctxAt s.dev c).instret + 1 ∧
    { ctxAt t.dev c with h := (ctxAt s.dev c).h, pc := (ctxAt s.dev c).pc, instret := (ctxAt s.dev c).instret } = ctxAt s.dev c ∧
    (∀ k, k ≠ c → ctxAt t.dev k = ctxAt s.dev k) ∧
    t.dev.mem = s.dev.mem ∧ t.dev.rings = s.dev.rings ∧ t.dev.regs = s.dev.regs ∧ t.dev.wos = s.dev.wos ∧
    t.dev.tickets = s.dev.tickets ∧ t.dev.yard = s.dev.yard ∧ t.dev.time = s.dev.time ∧ t.dev.plumb = s.dev.plumb ∧
    t.dev.threadRecs = s.dev.threadRecs ∧ t.dev.ks = s.dev.ks ∧ t.fuses = s.fuses ∧ t.pending = s.pending

/-- R19, R28 and R29 for both forms: the register form takes its target from hb, the immediate form from PC + 8 × imm37. R30: the table's header is COUNT and DEFAULT, its entries follow, and every displacement is signed and relative to the SWITCH. -/
def Obligations.ControlTransfers : Prop :=
  (∀ (s : State) (c : Nat) (w : HoltWord), canIssue s c = true →
    let pc := (ctxAt s.dev c).pc
    let target : Word := if w.imm then BitVec.ofInt 64 ((pc.toNat : Int) + 8 * w.imm37.toInt) else hreg s.dev c w.hb.toNat
    let bad := Host.Outcome.next (trapStep s c 3 0 target)
    (formOk w = true → w.mod = 0 → w.hd = 0 → w.ha = 0 →
      (target.toNat % 8 = 0 → exec (.b c w) s = .next (goStep s c target)) ∧ (target.toNat % 8 ≠ 0 → exec (.b c w) s = bad)) ∧
    (formOk w = true → w.mod.toNat < 6 →
      let hd := hreg s.dev c w.hd.toNat
      let ha := hreg s.dev c w.ha.toNat
      (¬ condOf w.mod.toNat hd ha → exec (.bcond c w) s = .next (goStep s c (pc + 8))) ∧
      (condOf w.mod.toNat hd ha → target.toNat % 8 = 0 → exec (.bcond c w) s = .next (goStep s c target)) ∧
      (condOf w.mod.toNat hd ha → target.toNat % 8 ≠ 0 → exec (.bcond c w) s = bad)) ∧
    (formOk w = true → w.mod = 0 → w.ha = 0 →
      (target.toNat % 8 = 0 → exec (.call c w) s = .next (regStep s c w.hd.toNat (pc + 8) target)) ∧
      (target.toNat % 8 ≠ 0 → exec (.call c w) s = bad)) ∧
    (w.mod = 0 → w.hd = 0 → w.hb = 0 → w.imm37 = 0 →
      let back := hreg s.dev c w.ha.toNat
      (back.toNat % 8 = 0 → exec (.ret c w) s = .next (goStep s c back)) ∧
      (back.toNat % 8 ≠ 0 → exec (.ret c w) s = .next (trapStep s c 3 0 back)))) ∧
  (∀ (s : State) (c : Nat) (w : HoltWord) (h : List Byte), canIssue s c = true → formOk w = true → w.mod = 0 → w.hd = 0 →
    let pc := (ctxAt s.dev c).pc
    let base : Word := if w.imm then BitVec.ofInt 64 ((pc.toNat : Int) + 8 * w.imm37.toInt) else hreg s.dev c w.hb.toNat
    let k : Acc := if w.imm then .fetch else .load
    let i := (hreg s.dev c w.ha.toNat).toNat
    let d := issued s.dev c
    let dest := fun (b : List Byte) => BitVec.ofInt 64 ((pc.toNat : Int) + 8 * (BitVec.ofNat 32 (leNat b)).toInt)
    readable d c base 8 k = some h →
      ((leNat (h.take 4) = 0 ∨ 65536 < leNat (h.take 4) ∨ leNat (h.take 4) ≤ i) →
        exec (.switch c w) s = .next (doneStep s (readBy d c 8) c (dest (h.drop 4)))) ∧
      (∀ e, i < leNat (h.take 4) → leNat (h.take 4) ≤ 65536 →
        readable (readBy d c 8) c (BitVec.ofNat 64 (base.toNat + 8 + 4 * i)) 4 k = some e →
          exec (.switch c w) s = .next (doneStep s (readBy (readBy d c 8) c 4) c (dest e))))

/-- R5, R25, R31, R32: LD8 to LD64 and LD8S to LD32S in both forms, for memory, for the control registers and for a refused access. -/
def Obligations.LoadResult : Prop :=
  ∀ (s : State) (c : Nat) (w : HoltWord), canIssue s c = true → formOk w = true → w.mod.toNat < 7 →
    let d := issued s.dev c
    let n := 2 ^ (w.mod.toNat % 4)
    let b := if w.imm then w.imm37.signExtend 64 else hreg s.dev c w.hb.toNat
    let a := hreg s.dev c w.ha.toNat + b
    let pc := (ctxAt s.dev c).pc + 8
    let ext := fun (v : Word) (x : Nat) => if w.mod.toNat < 4 then v.toNat = x else
      v.toInt = if x < 2 ^ (8 * n - 1) then (x : Int) else (x : Int) - 2 ^ (8 * n)
    (∀ x, readable d c a n .load = some x →
      ∃ v, exec (.ld c w) s = .next (doneStep s (setH (readBy d c n) c w.hd.toNat v) c pc) ∧ ext v (leNat x)) ∧
    (∀ p, admitted d c a n .load = some p → isCtl p = true →
      ∃ v, exec (.ld c w) s =
          .next (doneStep s (setH (ctlRead s.fuses d (.holt c) (p - 0x0F0000000000) n).1 c w.hd.toNat v) c pc) ∧
        ext v ((ctlRead s.fuses d (.holt c) (p - 0x0F0000000000) n).2 % 2 ^ (8 * n))) ∧
    (∀ d' cause detail, holtAcc d c a n .load = .trap d' cause detail →
      exec (.ld c w) s = .next (after s (takeTrap d' c cause detail a)))

/-- R25, R31: ST8 to ST64 with their frame; the address is the one that the checks of R25 compute. -/
def Obligations.StoreResult : Prop :=
  ∀ (s : State) (c : Nat) (w : HoltWord) (p : Nat), canIssue s c = true → formOk w = true → w.mod.toNat < 4 →
    let d := issued s.dev c
    let n := 2 ^ w.mod.toNat
    let b := if w.imm then w.imm37.signExtend 64 else hreg s.dev c w.hb.toNat
    let a := hreg s.dev c w.ha.toNat + b
    let v := hreg s.dev c w.hd.toNat
    admitted d c a n .store = some p →
      (isCtl p = false → ∃ t, exec (.st c w) s = .next t ∧
        (∀ i, i < n → cellAt (p + i) t.dev.mem.cells = some (BitVec.ofNat 8 (v.toNat / 256 ^ i))) ∧
        (∀ q, q < p ∨ p + n ≤ q → cellAt q t.dev.mem.cells = cellAt q s.dev.mem.cells) ∧
        ctxAt t.dev c = { ctxAt s.dev c with pc := (ctxAt s.dev c).pc + 8, instret := (ctxAt s.dev c).instret + 1 } ∧
        (∀ k, k ≠ c → ctxAt t.dev k = ctxAt s.dev k) ∧
        t.dev.rings = s.dev.rings ∧ t.dev.regs = s.dev.regs ∧ t.dev.wos = s.dev.wos ∧ t.dev.tickets = s.dev.tickets ∧
        t.dev.yard = s.dev.yard ∧ t.dev.threadRecs = s.dev.threadRecs ∧ t.fuses = s.fuses ∧ t.pending = s.pending) ∧
      (isCtl p = true →
        let r := ctlWrite s.fuses d (.holt c) (p - 0x0F0000000000) n (v.toNat % 2 ^ (8 * n))
        exec (.st c w) s = doneFuses s (r.1, retire r.2 c ((ctxAt r.2 c).pc + 8)))

/-- R24, R31: LDSEG in both forms. R33: the three atomics in both forms and both sizes. -/
def Obligations.LdsegAndAtomics : Prop :=
  (∀ (s : State) (c : Nat) (w : HoltWord) (x : List Byte), canIssue s c = true → formOk w = true → w.hd = 0 →
    let d := issued s.dev c
    let b := if w.imm then w.imm37.signExtend 64 else hreg s.dev c w.hb.toNat
    let a := hreg s.dev c w.ha.toNat + b
    let g : SegDesc := { lo := BitVec.ofNat 64 (leNat (x.take 8)), hi := BitVec.ofNat 64 (leNat (x.drop 8)) }
    readable d c a 16 .load = some x →
      (descOk s.dev (ctxAt s.dev c).isSealed g = true → ∃ t, exec (.ldseg c w) s = .next t ∧
        segSlot (ctxAt t.dev c) w.mod.toNat = g ∧
        (∀ k, k ≠ w.mod.toNat → segSlot (ctxAt t.dev c) k = segSlot (ctxAt s.dev c) k) ∧
        (ctxAt t.dev c).pc = (ctxAt s.dev c).pc + 8 ∧ (ctxAt t.dev c).h = (ctxAt s.dev c).h ∧
        (∀ k, k ≠ c → ctxAt t.dev k = ctxAt s.dev k) ∧ t.dev.mem = s.dev.mem ∧ t.dev.regs = s.dev.regs ∧
        t.dev.rings = s.dev.rings ∧ t.dev.wos = s.dev.wos ∧ t.dev.tickets = s.dev.tickets) ∧
      (descOk s.dev (ctxAt s.dev c).isSealed g = false →
        exec (.ldseg c w) s = .next (after s (takeTrap (readBy d c 16) c 2 4 a)))) ∧
  (∀ (s : State) (c : Nat) (w : HoltWord) (p : Nat), canIssue s c = true → formOk w = true → w.mod = 2 ∨ w.mod = 3 →
    let d := issued s.dev c
    let n := 2 ^ w.mod.toNat
    let b := (if w.imm then w.imm37.signExtend 64 else hreg s.dev c w.hb.toNat).toNat
    let a := hreg s.dev c w.ha.toNat
    let old := leNat (bytesAt s.dev p n)
    let done := fun (t : State) (new : Nat) =>
      (w.hd ≠ 0 → hreg t.dev c w.hd.toNat = BitVec.ofNat 64 old) ∧
      (∀ k, k ≠ w.hd.toNat → hreg t.dev c k = hreg s.dev c k) ∧ (ctxAt t.dev c).pc = (ctxAt s.dev c).pc + 8 ∧
      (∀ k, k < n → cellAt (p + k) t.dev.mem.cells = some (BitVec.ofNat 8 (new / 256 ^ k))) ∧
      (∀ q, q < p ∨ p + n ≤ q → cellAt q t.dev.mem.cells = cellAt q s.dev.mem.cells) ∧
      (∀ k, k ≠ c → ctxAt t.dev k = ctxAt s.dev k) ∧ t.dev.regs = s.dev.regs ∧ t.dev.rings = s.dev.rings ∧
      t.dev.wos = s.dev.wos ∧ t.dev.tickets = s.dev.tickets ∧ t.dev.yard = s.dev.yard
    admitted d c a n .atomic = some p → isCtl p = false → p % n = 0 →
      (∃ t, exec (.aadd c w) s = .next t ∧ done t ((old + b) % 2 ^ (8 * n))) ∧
      (∃ t, exec (.aswap c w) s = .next t ∧ done t (b % 2 ^ (8 * n))) ∧
      (∃ t, exec (.acas c w) s = .next t ∧
        done t (if old = (hreg s.dev c w.hd.toNat).toNat % 2 ^ (8 * n) then b % 2 ^ (8 * n) else old)))

/-- Steps 1 to 6 of R25 and R48, in their order, seen at one instruction of each access kind. -/
def Obligations.AccessTraps : Prop :=
  ∀ (s : State) (c : Nat) (w : HoltWord), canIssue s c = true → formOk w = true →
    let b := if w.imm then w.imm37.signExtend 64 else hreg s.dev c w.hb.toNat
    let right := fun (g : SegDesc) (i : Nat) => g.lo.getLsbD i
    let check := fun (i : Instr) (a : Word) (n : Nat) (atomic : Bool) (need : SegDesc → Bool) =>
      let g := segSlot (ctxAt s.dev c) (a.toNat / 2 ^ 60)
      let off := a.toNat % 2 ^ 40
      let trap := fun cause detail => exec i s = .next (trapStep s c cause detail a)
      if a.toNat / 2 ^ 40 % 2 ^ 20 ≠ 0 then trap 2 3
      else if off % n ≠ 0 then trap 3 0
      else if right g 63 = false then trap 2 2
      else if atomic = true ∧ g.lo.toNat / 2 ^ 52 % 4 ≠ 1 then trap 4 0
      else if need g = false then trap 2 1
      else if g.hi.toNat % 2 ^ 40 < off + n - 1 then trap 2 0 else True
    (w.mod.toNat < 7 →
      check (.ld c w) (hreg s.dev c w.ha.toNat + b) (2 ^ (w.mod.toNat % 4)) false (fun g => right g 48)) ∧
    (w.mod.toNat < 4 → check (.st c w) (hreg s.dev c w.ha.toNat + b) (2 ^ w.mod.toNat) false (fun g => right g 49)) ∧
    (w.mod = 2 ∨ w.mod = 3 →
      check (.aadd c w) (hreg s.dev c w.ha.toNat) (2 ^ w.mod.toNat) true (fun g => right g 51 && right g 48 && right g 49))

/-- R35–R37: what each ring instruction does on a ring that its context is bound to, with the status result of R36 in ha. R37 and R50: the ring faults; the five opcodes are 0x50, 0x52, 0x54, 0x56 and 0x58. -/
def Obligations.RingInstructions : Prop :=
  (∀ (s : State) (c : Nat) (w : HoltWord), canIssue s c = true → formOk w = true →
    let r := (if w.imm then w.imm37.signExtend 64 else hreg s.dev c w.hb.toNat).toNat
    let x := ringAt s.dev r
    let hd := w.hd.toNat
    let ha := w.ha.toNat
    let pc := (ctxAt s.dev c).pc + 8
    let quad : List Byte :=
      leBytes 8 (hreg s.dev c hd).toNat ++ leBytes 8 (hreg s.dev c (hd + 1)).toNat ++
        leBytes 8 (hreg s.dev c (hd + 2)).toNat ++ leBytes 8 (hreg s.dev c (hd + 3)).toNat
    -- hd to hd + 3 hold the entry, then ha its status; no other register changes
    let moved := fun (t : State) (e : Entry) (st : Nat) =>
      (∀ i, i < 4 → hd + i ≠ 0 → hd + i ≠ ha → hreg t.dev c (hd + i) = BitVec.ofNat 64 (fieldAt e.data (8 * i) 8)) ∧
      (ha ≠ 0 → hreg t.dev c ha = BitVec.ofNat 64 st) ∧
      (∀ k, (k < hd ∨ hd + 4 ≤ k) → k ≠ ha → hreg t.dev c k = hreg s.dev c k)
    let told := fun (t : State) (st : Nat) =>
      (ha ≠ 0 → hreg t.dev c ha = BitVec.ofNat 64 st) ∧ (∀ k, k ≠ ha → hreg t.dev c k = hreg s.dev c k)
    let others := fun (t : State) => t.dev.regs = s.dev.regs ∧ t.dev.wos = s.dev.wos ∧
      t.dev.tickets = s.dev.tickets ∧ t.dev.yard = s.dev.yard ∧ (∀ k, k ≠ c → ctxAt t.dev k = ctxAt s.dev k) ∧
      (∀ k, k ≠ r → ringAt t.dev k = ringAt s.dev k)
    let status := fun (e : Entry) => 1 + 2 * ofFlag e.sop + 4 * ofFlag e.eop
    let shut := isHost x.consumer = true ∧
      (funcBusy s.dev (x.consumer - 0x8000) = true ∨ funcOn s.dev (x.consumer - 0x8000) = false)
    r ≤ 8191 → x.en = true → x.sound = true →
      (x.producer = c → w.mod.toNat < 4 → hd % 4 = 0 →
        (x.noticeP = false → x.entries.length < x.size → ¬ shut → x.hostWait = [] →
          ∃ t, exec (.push c w) s = .next t ∧ (ctxAt t.dev c).pc = pc ∧ others t ∧ (x.tail < 8 → t.dev.mem = s.dev.mem) ∧
            (ringAt t.dev r).entries = x.entries ++ [{ data := quad, sop := w.mod.getLsbD 0, eop := w.mod.getLsbD 1 }] ∧
            told t (1 + 2 * ofFlag (w.mod.getLsbD 0) + 4 * ofFlag (w.mod.getLsbD 1))) ∧
        (x.noticeP = false → (x.size ≤ x.entries.length ∨ shut) →
          ∃ t, exec (.push c w) s = .next t ∧ (ctxAt t.dev c).pc = pc ∧ others t ∧ t.dev.mem = s.dev.mem ∧
            ringAt t.dev r = x ∧ told t 8) ∧
        (x.noticeP = true →
          ∃ t, exec (.push c w) s = .next t ∧ (ctxAt t.dev c).pc = pc ∧ others t ∧ t.dev.mem = s.dev.mem ∧
            ringAt t.dev r = { x with noticeP := false } ∧ told t 0x4400)) ∧
      (x.consumer = c → w.mod = 0 → hd % 4 = 0 →
        (x.noticeC = true → ∀ i ∈ [Instr.pop c w, .popnb c w, .peek c w],
          ∃ t, exec i s = .next t ∧ (ctxAt t.dev c).pc = pc ∧ others t ∧ t.dev.mem = s.dev.mem ∧
            ringAt t.dev r = { x with noticeC := false } ∧ told t 0x4400) ∧
        (∀ e l, x.noticeC = false → x.front = some e → x.entries = e :: l →
          (0 < x.head → ∃ t, exec (.pop c w) s = .next t ∧ (ctxAt t.dev c).pc = pc ∧ others t ∧ t.dev.mem = s.dev.mem ∧
            (ringAt t.dev r).entries = l ∧ moved t e (status e)) ∧
          (∃ t, exec (.popnb c w) s = .next t ∧ (ctxAt t.dev c).pc = pc ∧ others t ∧ t.dev.mem = s.dev.mem ∧
            (ringAt t.dev r).entries = l ∧ moved t e (status e)) ∧
          (∃ t, exec (.peek c w) s = .next t ∧ (ctxAt t.dev c).pc = pc ∧ others t ∧ t.dev.mem = s.dev.mem ∧
            ringAt t.dev r = x ∧ moved t e (status e))) ∧
        (x.noticeC = false → (x.front = none ∨ x.head = 0) →
          ∃ t, exec (.pop c w) s = .next t ∧ others t ∧ t.dev.mem = s.dev.mem ∧ ringAt t.dev r = x ∧
            ctxAt t.dev c = { ctxAt s.dev c with st := .waiting, wait := some (.pop r hd ha) }) ∧
        (x.noticeC = false → x.front = none → ∀ i ∈ [Instr.popnb c w, .peek c w],
            ∃ t, exec i s = .next t ∧ (ctxAt t.dev c).pc = pc ∧ others t ∧ t.dev.mem = s.dev.mem ∧ ringAt t.dev r = x ∧
              told t 0)) ∧
      (x.consumer = c → w.mod = 0 → w.ha = 0 →
        exec (.rlen c w) s = .next (regStep s c hd (BitVec.ofNat 64 x.entries.length) pc))) ∧
  (∀ (s : State) (c : Nat) (w : HoltWord), canIssue s c = true → formOk w = true →
    let r := (if w.imm then w.imm37.signExtend 64 else hreg s.dev c w.hb.toNat).toNat
    let x := ringAt s.dev r
    let trap := fun (op detail : Nat) => Host.Outcome.next (trapStep s c 5 detail (pairWord op w))
    (w.hd.toNat % 4 = 0 → w.mod.toNat < 4 →
      (8191 < r → exec (.push c w) s = trap 0x50 0) ∧
      (r ≤ 8191 → (x.en = false ∨ x.producer ≠ c) → exec (.push c w) s = trap 0x50 1)) ∧
    (w.hd.toNat % 4 = 0 → w.mod = 0 →
      (8191 < r → exec (.pop c w) s = trap 0x52 0 ∧ exec (.popnb c w) s = trap 0x54 0 ∧ exec (.peek c w) s = trap 0x56 0) ∧
      (r ≤ 8191 → (x.en = false ∨ x.consumer ≠ c) →
        exec (.pop c w) s = trap 0x52 2 ∧ exec (.popnb c w) s = trap 0x54 2 ∧ exec (.peek c w) s = trap 0x56 2)) ∧
    (w.ha = 0 → w.mod = 0 →
      (8191 < r → exec (.rlen c w) s = trap 0x58 0) ∧
      (r ≤ 8191 → (x.en = false ∨ x.consumer ≠ c) → exec (.rlen c w) s = trap 0x58 2)))

/-- R37, R40, R41, R66 and R69: the completion of each long instruction. -/
def Obligations.LongInstructionsComplete : Prop :=
  ∀ (s : State) (c : Nat), c < 512 → (ctxAt s.dev c).st = .waiting →
    let x := ctxAt s.dev c
    let ended := fun (t : State) (n : Nat) (v : Word) => (ctxAt t.dev c).st = .ready ∧
      (ctxAt t.dev c).wait = none ∧ (ctxAt t.dev c).pc = x.pc + 8 ∧ (n ≠ 0 → hreg t.dev c n = v) ∧
      t.dev.mem = s.dev.mem ∧ t.dev.regs = s.dev.regs ∧ t.dev.wos = s.dev.wos ∧ t.dev.tickets = s.dev.tickets ∧
      (∀ k, k ≠ c → ctxAt t.dev k = ctxAt s.dev k)
    let same := fun (t : State) => ctxAt t.dev c = x ∧ t.dev.mem = s.dev.mem ∧ t.dev.rings = s.dev.rings
    (∀ r hd ha, x.wait = some (.pop r hd ha) → (ringAt s.dev r).sound = true → (ringAt s.dev r).noticeC = false →
      (∀ e, (ringAt s.dev r).front = some e → 0 < (ringAt s.dev r).head →
        ∃ t, exec (.popComplete c) s = .next t ∧ ended t ha (BitVec.ofNat 64 (1 + 2 * ofFlag e.sop + 4 * ofFlag e.eop)) ∧
          (ringAt t.dev r).entries = (ringAt s.dev r).entries.tail ∧
          (∀ i, i < 4 → hd + i ≠ 0 → hd + i ≠ ha → hreg t.dev c (hd + i) = BitVec.ofNat 64 (fieldAt e.data (8 * i) 8))) ∧
      ((ringAt s.dev r).front = none → ∃ t, exec (.popComplete c) s = .next t ∧ same t)) ∧
    (∀ ha, x.wait = some (.popReset ha) → ∃ t, exec (.popComplete c) s = .next t ∧ ended t ha 0x4400) ∧
    (∀ goal hd, x.wait = some (.waitt goal hd) →
      (goal.toNat ≤ s.dev.time → ∃ t, exec (.waittComplete c) s = .next t ∧ ended t hd (BitVec.ofNat 64 s.dev.time)) ∧
      (s.dev.time < goal.toNat → ∃ t, exec (.waittComplete c) s = .next t ∧ same t)) ∧
    (∀ ch mask hd, x.wait = some (.waitd ch mask hd) →
      let got := (mboxAt s.dev ch).db &&& mask
      (got ≠ 0 → ∃ t, exec (.waitdComplete c) s = .next t ∧ ended t hd (got.setWidth 64)) ∧
      (got = 0 → ∃ t, exec (.waitdComplete c) s = .next t ∧ same t)) ∧
    (∀ v hd, x.wait = some (.tkwait v hd) →
      (256 ≤ tkResult s.dev c v →
        ∃ t, exec (.tkwaitComplete c) s = .next t ∧ ended t hd (BitVec.ofNat 64 (tkResult s.dev c v))) ∧
      (tkResult s.dev c v < 256 → ∃ t, exec (.tkwaitComplete c) s = .next t ∧ same t))

/-- R40, R41, R45, R47 and R53. -/
def Obligations.WaitAndTicketResults : Prop :=
  ∀ (s : State) (c : Nat) (w : HoltWord), canIssue s c = true →
    let v := if w.imm then w.imm37.signExtend 64 else hreg s.dev c w.hb.toNat
    let pc := (ctxAt s.dev c).pc + 8
    let hd := w.hd.toNat
    let waits := fun (r : WaitRec) => Host.Outcome.next (after s (waitFor (issued s.dev c) c r))
    let time := BitVec.ofNat 64 s.dev.time
    (formOk w = true → w.ha = 0 → w.mod.toNat < 2 →
      let goal := if w.mod = 1 then time + v else v
      (goal.toNat ≤ s.dev.time → exec (.waitt c w) s = .next (regStep s c hd time pc)) ∧
      (s.dev.time < goal.toNat → exec (.waitt c w) s = waits (.waitt goal hd))) ∧
    (formOk w = true → w.mod = 0 →
      let ch := (hreg s.dev c w.ha.toNat).toNat
      ch ≤ 63 → (ch < 32 ∨ (ctxAt s.dev c).isSealed = true) →
        let got := (mboxAt s.dev ch).db &&& v.setWidth 32
        (got = 0 → exec (.waitd c w) s = waits (.waitd ch (v.setWidth 32) hd)) ∧
        (got ≠ 0 → ∃ t, exec (.waitd c w) s = .next t ∧ (hd ≠ 0 → hreg t.dev c hd = got.setWidth 64) ∧
          (ctxAt t.dev c).pc = pc ∧ (∀ k, k ≠ hd → hreg t.dev c k = hreg s.dev c k) ∧ t.dev.mem = s.dev.mem ∧
          t.dev.rings = s.dev.rings ∧ t.dev.regs = s.dev.regs)) ∧
    (formOk w = true → w.ha = 0 →
      let tk := v.toNat % 2 ^ 32
      let result := BitVec.ofNat 64 (match s.dev.tickets.find? (fun e => e.2.value == tk) with
        | some e => if e.2.ctx ≠ c then 0x200 else if e.2.ended then 0x100 + e.2.status % 256 else 0
        | none => 0x200)
      (w.mod = 1 → exec (.tkpoll c w) s = .next (regStep s c hd result pc)) ∧
      (w.mod = 0 → result ≠ 0 → exec (.tkwait c w) s = .next (regStep s c hd result pc)) ∧
      (w.mod = 0 → result = 0 → exec (.tkwait c w) s = waits (.tkwait tk hd))) ∧
    (w.mod = 0 → w.hd = 0 → w.ha = 0 → w.hb = 0 → w.imm37 = 0 →
      exec (.fence c w) s = .next (goStep s c pc) ∧
      exec (.yield c w) s = .next (doneStep s (rotate (issued s.dev c) c) c pc)) ∧
    (w.mod = 0 → w.hd = 0 → w.hb = 0 → w.imm37.toNat ≤ 15 →
      ∃ p, exec (.evt c w) s = .next (doneStep s (withPerf (issued s.dev c) p) c pc))

/-- R38, R39, R313–R319. -/
def Obligations.BufferInstructionResults : Prop :=
  ∀ (s : State) (c : Nat) (w : HoltWord), canIssue s c = true → w.mod = 0 →
    let v := if w.imm then w.imm37.signExtend 64 else hreg s.dev c w.hb.toNat
    let d := s.dev
    let hd := w.hd.toNat
    let ha := w.ha.toNat
    let ended := fun (t : State) (st : Nat) => (ctxAt t.dev c).pc = (ctxAt d c).pc + 8 ∧
      (ha ≠ 0 → hreg t.dev c ha = BitVec.ofNat 64 st) ∧ t.dev.rings = d.rings ∧ t.dev.regs = d.regs ∧ t.dev.wos = d.wos ∧
      t.dev.tickets = d.tickets ∧ (∀ k, k ≠ hd → k ≠ ha → hreg t.dev c k = hreg d c k)
    let current := fun (h : Nat) => h % 2 ^ 20 < yardTotal d ∧ h / 2 ^ 20 % 4096 ≠ 0 ∧ (bufAt d (h % 2 ^ 20)).gen = h / 2 ^ 20 % 4096
    (formOk w = true →
      (∀ i, pickBuf d v.toNat = some i →
        let g := if 4095 ≤ (bufAt d i).gen then 1 else (bufAt d i).gen + 1
        ∃ t, exec (.balloc c w) s = .next t ∧ ended t 0 ∧ (bufAt t.dev i).st = .owned ∧ (bufAt t.dev i).owner = c ∧ (bufAt t.dev i).gen = g ∧
          (hd ≠ 0 → hd ≠ ha → hreg t.dev c hd = BitVec.ofNat 64 (g * 2 ^ 20 + i)) ∧
          (∀ k, k ≠ i → bufAt t.dev k = bufAt d k)) ∧
      (pickBuf d v.toNat = none → ∃ t, exec (.balloc c w) s = .next t ∧ ended t 0x40 ∧ t.dev.yard = d.yard ∧ (hd ≠ ha → hreg t.dev c hd = hreg d c hd))) ∧
    (w.hd = 0 → w.imm37 = 0 →
      let h := (hreg d c w.hb.toNat).toNat % 2 ^ 32
      let b := bufAt d (h % 2 ^ 20)
      (¬ current h → ∃ t, exec (.bfree c w) s = .next t ∧ ended t 0x43 ∧ t.dev.yard = d.yard) ∧
      (current h → (b.st = .free ∨ b.st = .held) → ∃ t, exec (.bfree c w) s = .next t ∧ ended t 0x41 ∧ t.dev.yard = d.yard) ∧
      (current h → (b.st = .ring ∨ b.st = .owned ∧ b.owner ≠ c) → ∃ t, exec (.bfree c w) s = .next t ∧ ended t 0x42 ∧ t.dev.yard = d.yard) ∧
      (current h → b.st = .owned → b.owner = c → loadersOf d (h % 2 ^ 20) = [] → ∃ t, exec (.bfree c w) s = .next t ∧ ended t 0 ∧
        (bufAt t.dev (h % 2 ^ 20)).st = (if b.holds = 0 then .free else .held) ∧
        (∀ k, k ≠ h % 2 ^ 20 → bufAt t.dev k = bufAt d k))) ∧
    (formOk w = true → (v.toNat < 512 ∨ 0x8000 ≤ v.toNat ∧ v.toNat < 0x8010) →
      let h := (hreg d c hd).toNat % 2 ^ 32
      let b := bufAt d (h % 2 ^ 20)
      (¬ current h → ∃ t, exec (.bxfer c w) s = .next t ∧ ended t 0x43 ∧ t.dev.yard = d.yard) ∧
      (current h → (b.st ≠ .owned ∨ b.owner ≠ c) → ∃ t, exec (.bxfer c w) s = .next t ∧ ended t 0x42 ∧ t.dev.yard = d.yard) ∧
      (current h → b.st = .owned → b.owner = c → loadersOf d (h % 2 ^ 20) = [] → ∃ t, exec (.bxfer c w) s = .next t ∧ ended t 0 ∧
        (bufAt t.dev (h % 2 ^ 20)) = { b with owner := v.toNat } ∧ (∀ k, k ≠ h % 2 ^ 20 → bufAt t.dev k = bufAt d k))) ∧
    (w.ha ≠ w.hd → w.imm37 = 0 →
      let h := (hreg d c w.hb.toNat).toNat % 2 ^ 32
      (¬ current h → ∃ t, exec (.bstat c w) s = .next t ∧ ended t 0x43 ∧ hreg t.dev c hd = hreg d c hd) ∧
      (current h → ∃ t, exec (.bstat c w) s = .next t ∧ ended t 0 ∧ (hd ≠ 0 → hreg t.dev c hd = BitVec.ofNat 64 (bufWord d (h % 2 ^ 20))) ∧
        t.dev.yard = d.yard))

/-- R42–R44, R76: dispatch, for each type; a dispatch never waits for anything but the ticket limit of the core. R44: a stalled dispatch has not begun. -/
def Obligations.Dispatches : Prop :=
  (∀ (s : State) (c : Nat) (w : HoltWord) (raw : List Byte), canIssue s c = true → formOk w = true → w.mod = 0 →
    let d := issued s.dev c
    let b := if w.imm then w.imm37.signExtend 64 else hreg s.dev c w.hb.toNat
    let a := hreg s.dev c w.ha.toNat + b
    let hd := w.hd.toNat
    let x := ctxAt s.dev c
    let sent := fun (t : State) (k : WoKind) => ∃ tk o, (ctxAt t.dev c).pc = x.pc + 8 ∧
      tk < 0xFFFFF000 ∧ (hd ≠ 0 → hreg t.dev c hd = BitVec.ofNat 64 tk) ∧ (∀ n, n ≠ hd → hreg t.dev c n = hreg s.dev c n) ∧
      t.dev.wos = s.dev.wos ++ [o] ∧ o.ticket = tk ∧ o.kind = k ∧ o.ctx = c ∧ o.raw = raw ∧ o.phase = .dispatched ∧
      o.func = x.func ∧ tkResult t.dev c tk = 0 ∧ t.dev.mem = s.dev.mem ∧ t.dev.rings = s.dev.rings ∧ t.dev.yard = s.dev.yard
    let all : List (Instr × WoKind) :=
      [(.enc c w, .enc), (.encr c w, .encr), (.dec c w, .dec), (.vfy c w, .vfy), (.ana c w, .ana), (.pix c w, .pix),
       (.comp c w, .comp), (.dma c w, .dma), (.magw c w, .magw), (.nettx c w, .nettx), (.ingest c w, .ingest)]
    readable d c a 256 .load = some raw → compRingFault s.dev c (fieldAt raw 4 2) = none →
      (tkCount s.dev c < x.tkLimit → tkUsed s.dev (c / 64) < 128 → s.dev.tickets.length ≤ 1024 →
        (∃ t, exec (.enc c w) s = .next t ∧ sent t .enc) ∧ (∃ t, exec (.encr c w) s = .next t ∧ sent t .encr) ∧
        (∃ t, exec (.dec c w) s = .next t ∧ sent t .dec) ∧ (∃ t, exec (.vfy c w) s = .next t ∧ sent t .vfy) ∧
        (∃ t, exec (.ana c w) s = .next t ∧ sent t .ana) ∧ (∃ t, exec (.pix c w) s = .next t ∧ sent t .pix) ∧
        (∃ t, exec (.comp c w) s = .next t ∧ sent t .comp) ∧ (∃ t, exec (.dma c w) s = .next t ∧ sent t .dma) ∧
        (∃ t, exec (.magw c w) s = .next t ∧ sent t .magw) ∧ (∃ t, exec (.nettx c w) s = .next t ∧ sent t .nettx) ∧
        (∃ t, exec (.ingest c w) s = .next t ∧ sent t .ingest) ∧
        (x.isSealed = true → (∃ t, exec (.seal c w) s = .next t ∧ sent t .seal) ∧ (∃ t, exec (.keyop c w) s = .next t ∧ sent t .keyop))) ∧
      (x.tkLimit ≤ tkCount s.dev c →
        (∀ e ∈ all, exec e.1 s = .next (after s (takeTrap (readBy d c 256) c 6 0 (BitVec.ofNat 64 (tkCount s.dev c)))))) ∧
      (tkCount s.dev c < x.tkLimit → 128 ≤ tkUsed s.dev (c / 64) →
        (∀ e ∈ all, exec e.1 s =
          .next (after s (waitFor (readBy d c 256) c (.dispatch e.2 hd a (pairWord (0x6E + 2 * kindCode e.2) w)))))) ∧
      (x.isSealed = false → exec (.seal c w) s = .next (trapStep s c 7 0 (pairWord 0x80 w)) ∧
        exec (.keyop c w) s = .next (trapStep s c 7 0 (pairWord 0x88 w)))) ∧
  (∀ (s : State) (c : Nat) (k : WoKind) (hd : Nat) (a word : Word), c < 512 → (ctxAt s.dev c).st = .waiting →
    (ctxAt s.dev c).wait = some (.dispatch k hd a word) →
    let u : State := { s with dev := setCtx s.dev c { ctxAt s.dev c with st := .ready, wait := none } }
    let d := issued u.dev c
    (128 ≤ tkUsed s.dev (c / 64) → exec (.dispatchStallIssue c) s = .next (after s s.dev)) ∧
    (∀ raw, tkUsed s.dev (c / 64) < 128 → canIssue u c = true → readable d c a 256 .load = some raw →
      compRingFault u.dev c (fieldAt raw 4 2) = none → tkCount s.dev c < (ctxAt s.dev c).tkLimit →
        ∃ t o, exec (.dispatchStallIssue c) s = .next t ∧ t.dev.wos = s.dev.wos ++ [o] ∧ o.kind = k ∧ o.raw = raw ∧ o.ctx = c ∧
          (ctxAt t.dev c).st = .ready ∧ (ctxAt t.dev c).wait = none ∧ (ctxAt t.dev c).pc = (ctxAt s.dev c).pc + 8 ∧
          (hd ≠ 0 → hreg t.dev c hd = BitVec.ofNat 64 o.ticket)))

/-- R45, R46, R50, R413, R423, R424. -/
def Obligations.SystemInstructionResults : Prop :=
  ∀ (s : State) (c : Nat) (w : HoltWord), canIssue s c = true → w.mod = 0 →
    let v := if w.imm then w.imm37.signExtend 64 else hreg s.dev c w.hb.toNat
    let ch := v.toNat
    let m := mboxAt s.dev ch
    let d := issued s.dev c
    let hd := w.hd.toNat
    let ha := w.ha.toNat
    let pc := (ctxAt s.dev c).pc + 8
    let x := ctxAt s.dev c
    (formOk w = true → ch ≤ 63 → (ch < 32 ∨ x.isSealed = true) → isProxy s.dev ch = false →
      (m.full = false → exec (.mbxsend c w) s = .next (doneStep s (setH (mboxPair (setMbox d ch
          { m with word := (hreg s.dev c hd).setWidth 32, full := true, db := m.db ||| 0x80000000 }) ch) c ha 1) c pc)) ∧
      (m.full = true → exec (.mbxsend c w) s = .next (doneStep s (setH d c ha 8) c pc)) ∧
      (m.full = true → ∃ e t, exec (.mbxrecv c w) s = .next t ∧ t = doneStep s e c pc ∧ (mboxAt e ch).full = false ∧
        (hd ≠ 0 → hd ≠ ha → hreg t.dev c hd = m.word.setWidth 64) ∧ (ha ≠ 0 → hreg t.dev c ha = 1) ∧
        (∀ k, k ≠ hd → k ≠ ha → hreg t.dev c k = hreg s.dev c k) ∧ t.dev.mem = s.dev.mem ∧ t.dev.regs = s.dev.regs) ∧
      (m.full = false → exec (.mbxrecv c w) s = .next (doneStep s (setH d c ha 0) c pc)) ∧
      (w.ha = 0 → exec (.dbell c w) s = .next (doneStep s (setMbox d ch
          { m with db := m.db ||| (hreg s.dev c hd).setWidth 32 }) c pc))) ∧
    (formOk w = true → ch ≤ 63 → w.hd = 0 → w.ha = 0 →
      exec (.irq c w) s = .next (doneStep s { d with intc := { d.intc with
        latch := if intcLost s.dev ch then s.dev.intc.latch else sadd ch s.dev.intc.latch } } c pc)) ∧
    (w.hd = 0 → w.ha = 0 → w.hb = 0 → w.imm37 = 0 → ∃ t r, exec (.halt c w) s = .next t ∧
      ctxAt t.dev c = { x with st := .stopped, wait := none, pc := pc, instret := x.instret + 1 } ∧
      t.dev.threadRecs = s.dev.threadRecs ++ [r] ∧ r.ctx = c ∧ r.func = x.func ∧ r.ring = x.ownerRing ∧ r.status = 0 ∧
      r.cause = 0 ∧ r.detail = 0 ∧ r.operand = 0 ∧ r.pc = pc ∧ r.time = s.dev.time ∧
      t.dev.mem = s.dev.mem ∧ t.dev.rings = s.dev.rings ∧ t.dev.wos = s.dev.wos ∧ t.dev.tickets = s.dev.tickets)

/-- R24, R26, R67. -/
def Obligations.CsrResults : Prop :=
  ∀ (s : State) (c : Nat) (w : HoltWord), canIssue s c = true → formOk w = true → w.mod = 0 →
    let n := (if w.imm then w.imm37.signExtend 64 else hreg s.dev c w.hb.toNat).toNat
    let x := ctxAt s.dev c
    let d := issued s.dev c
    let pc := x.pc + 8
    let v := hreg s.dev c w.ha.toNat
    let reads := fun (v : Nat) => exec (.csrr c w) s = .next (regStep s c w.hd.toNat (BitVec.ofNat 64 v) pc)
    let writes := fun (y : HoltCtx) => exec (.csrw c w) s = .next (doneStep s (setCtx d c y) c pc)
    (w.ha = 0 →
      (n = 0 → reads s.dev.time) ∧ (n = 1 → reads ((if x.isSealed then 2 ^ 31 else 0) + x.func * 2 ^ 16 + c)) ∧
      (n = 2 → reads x.prio) ∧ (n = 3 → reads x.prioMax) ∧ (n = 4 → reads x.ownerRing) ∧ (n = 5 → reads x.tkLimit) ∧
      (n = 6 → reads (tkCount s.dev c)) ∧ (n = 8 → reads ((s.dev.up - s.dev.crp.upAt) * 12 / 5)) ∧ (n = 9 → reads x.instret) ∧
      (∀ k, k < 16 → n = 0x100 + 2 * k →
        exec (.csrr c w) s = .next (regStep s c w.hd.toNat (segSlot x k).lo pc)) ∧
      (∀ k, k < 16 → n = 0x101 + 2 * k →
        exec (.csrr c w) s =
          .next (regStep s c w.hd.toNat (if x.segFresh.contains k then tget 0 k x.segHi else (segSlot x k).hi) pc)) ∧
      (∀ k, k < 512 → n = 0x200 + k → (perfUserEn s.dev = true → reads (tget 0 k s.dev.perf.cnt)) ∧
        (perfUserEn s.dev = false → exec (.csrr c w) s = .next (trapStep s c 7 2 (pairWord 0x9C w)))) ∧
      ((n = 7 ∨ 10 ≤ n ∧ n < 0x100 ∨ 0x120 ≤ n ∧ n < 0x200 ∨ 0x400 ≤ n) →
        exec (.csrr c w) s = .next (trapStep s c 1 3 (pairWord 0x9C w)))) ∧
    (w.hd = 0 →
      (n = 2 → v.toNat ≤ x.prioMax → x.prioMax < 8 → writes { x with prio := v.toNat }) ∧
      (n = 2 → x.prioMax < v.toNat → exec (.csrw c w) s = .next (trapStep s c 7 1 (pairWord 0x9E w))) ∧
      (n = 5 → 1 ≤ v.toNat → v.toNat ≤ 127 → writes { x with tkLimit := max v.toNat (tkCount s.dev c) }) ∧
      (n = 5 → (v.toNat = 0 ∨ 127 < v.toNat) → exec (.csrw c w) s = .next (trapStep s c 1 3 (pairWord 0x9E w))) ∧
      (∀ k, k < 16 → n = 0x101 + 2 * k → writes { x with segHi := tset 0 k v x.segHi, segFresh := sadd k x.segFresh }) ∧
      (∀ k, k < 16 → n = 0x100 + 2 * k →
        let g : SegDesc := { lo := v, hi := tget 0 k x.segHi }
        (descOk s.dev x.isSealed g = true → writes { x with segs := tset SegDesc.empty k g x.segs, segFresh := sdel k x.segFresh }) ∧
        (descOk s.dev x.isSealed g = false → exec (.csrw c w) s = .next (trapStep s c 2 4 (pairWord 0x9E w)))) ∧
      ((n < 2 ∨ n = 3 ∨ n = 4 ∨ 6 ≤ n ∧ n < 0x100 ∨ 0x120 ≤ n) →
        exec (.csrw c w) s = .next (trapStep s c 1 3 (pairWord 0x9E w))))

/-- R20, R48–R50: the trap as every trapping instruction takes it. -/
def Obligations.TrapTaken : Prop :=
  (∀ (s : State) (c cause detail : Nat) (operand : Word),
    let t := trapStep s c cause detail operand
    let x := ctxAt s.dev c
    ctxAt t.dev c = { x with st := .stopped, wait := none } ∧ (∀ k, k ≠ c → ctxAt t.dev k = ctxAt s.dev k) ∧
    (∃ r, t.dev.threadRecs = s.dev.threadRecs ++ [r] ∧ r.ctx = c ∧ r.func = x.func ∧ r.ring = x.ownerRing ∧
      r.status = 0x22 ∧ r.cause = cause ∧ r.detail = detail ∧ r.operand = operand ∧ r.pc = x.pc ∧ r.time = s.dev.time) ∧
    t.dev.mem = s.dev.mem ∧ t.dev.rings = s.dev.rings ∧ t.dev.wos = s.dev.wos ∧ t.dev.tickets = s.dev.tickets ∧
    t.dev.regs = s.dev.regs ∧ t.dev.yard = s.dev.yard ∧ t.fuses = s.fuses ∧ t.pending = s.pending) ∧
  (∀ (s : State) (c : Nat) (word : Word) (w : HoltWord), canIssue s c = true →
    exec (.illegalInstruction c word) s = .next (trapStep s c 1 0 word) ∧
    (w.mod ≠ 0 → exec (.add c w) s = .next (trapStep s c 1 1 (pairWord 0 w)) ∧
      exec (.b c w) s = .next (trapStep s c 1 1 (pairWord 0x20 w))) ∧
    (w.mod = 0 → formOk w = false → exec (.add c w) s = .next (trapStep s c 1 2 (pairWord 0 w))) ∧
    (w.mod = 0 → (w.hd ≠ 0 ∨ w.ha ≠ 0) → exec (.b c w) s = .next (trapStep s c 1 2 (pairWord 0x20 w))))

/-- R60 steps 1 and 2, R63, R64, R70. -/
def Obligations.ThreadCommands : Prop :=
  ∀ (s : State) (who : Who) (c : Nat), c < 512 →
    ctlGrant s.dev who (0x3001008 + c / 64 * 0x100000 + c % 64 * 0x40) 4 true = true →
    let x := ctxAt s.dev c
    let becomes := fun (y : HoltCtx) => after s (setCtx s.dev c y)
    let wrong := becomes { x with cmdErr := true }
    let f := assignFunc s.dev c
    let h := reg s.dev (0x3001004 + c / 64 * 0x100000 + c % 64 * 0x40) 0
    (x.st = .empty →
      (handleStatus s.dev (0x8000 + f) h = 0 → ∃ t, exec (.mtLoad who c) s = .next t ∧
        ctxAt t.dev c = { x with st := .loading, func := f, load := some { handle := h } } ∧
        bufAt t.dev (h % 2 ^ 20) = { bufAt s.dev (h % 2 ^ 20) with holds := (bufAt s.dev (h % 2 ^ 20)).holds + 1 } ∧
        (∀ k, k ≠ c → ctxAt t.dev k = ctxAt s.dev k) ∧ (∀ k, k ≠ h % 2 ^ 20 → bufAt t.dev k = bufAt s.dev k) ∧
        t.dev.mem = s.dev.mem ∧ t.dev.rings = s.dev.rings ∧ t.dev.tickets = s.dev.tickets) ∧
      (handleStatus s.dev (0x8000 + f) h ≠ 0 → x.load = none → ∃ t, exec (.mtLoad who c) s = .next t ∧
        ctxAt t.dev c = { x with func := f, loadStatus := handleStatus s.dev (0x8000 + f) h } ∧
        (∀ k, k ≠ c → ctxAt t.dev k = ctxAt s.dev k) ∧ t.dev.yard = s.dev.yard ∧ t.dev.mem = s.dev.mem)) ∧
    (x.st ≠ .empty → exec (.mtLoad who c) s = .next wrong) ∧
    (∀ im, x.image = some im → (x.st = .loaded ∨ x.st = .stopped) →
      exec (.mtStart who c) s =
        .next (becomes { x with st := .ready, h := [], pc := im.entry, segs := segTable im.segs, segFresh := [], wait := none })) ∧
    (x.st ≠ .loaded → x.st ≠ .stopped → exec (.mtStart who c) s = .next wrong ∧ exec (.mtUnload who c) s = .next wrong) ∧
    ((x.st = .ready ∨ x.st = .waiting) → exec (.mtStop who c) s = .next (becomes { x with st := .stopped, wait := none })) ∧
    (x.st ≠ .ready → x.st ≠ .waiting → exec (.mtStop who c) s = .next wrong) ∧
    (x.st = .stopped → exec (.mtResume who c) s = .next (becomes { x with st := .ready })) ∧
    (x.st ≠ .stopped → exec (.mtResume who c) s = .next wrong) ∧
    ((x.st = .loaded ∨ x.st = .stopped) → 0 < tkCount s.dev c →
      exec (.mtUnload who c) s = .next (becomes { x with st := .draining })) ∧
    ((x.st = .loaded ∨ x.st = .stopped) → tkCount s.dev c = 0 → ∃ t, exec (.mtUnload who c) s = .next t ∧
      ctxAt t.dev c = { x with st := .empty, isSealed := false, prio := 0, prioMax := 0, tkLimit := 0, image := none, wait := none } ∧
      (∀ i, x.isSealed = false → (bufAt s.dev i).st = .owned → (bufAt s.dev i).owner = c → shownOf s.dev c i = false →
        bufAt t.dev i = { bufAt s.dev i with owner := 0x8000 + f }) ∧
      (∀ k, k ≠ c → ctxAt t.dev k = ctxAt s.dev k) ∧ t.dev.tickets = s.dev.tickets ∧ t.dev.wos = s.dev.wos)

/-- R57, R59, R60, R63: how a load ends. A load of an image that its owner frees or transfers has ended by then (YardRequests). -/
def Obligations.LoadEnds : Prop :=
  ∀ (s : State) (c : Nat) (l : LoadRec) (sigOk : SigOk), (ctxAt s.dev c).load = some l →
    let x := ctxAt s.dev c
    let i := l.handle % 2 ^ 20
    let req := 24 + c / 64
    let fails := fun (st : Nat) => ∃ t, exec (.loadComplete c sigOk) s = .next t ∧ (ctxAt t.dev c).st = .empty ∧
      (ctxAt t.dev c).load = none ∧ (ctxAt t.dev c).loadStatus = st ∧ (ctxAt t.dev c).h = x.h ∧ (ctxAt t.dev c).image = x.image ∧
      (∀ k, k ≠ c → ctxAt t.dev k = ctxAt s.dev k) ∧ t.dev.tickets = s.dev.tickets
    ((bufRead s.dev req l.handle 0 64).2 = none → fails 0x20) ∧
    (∀ d1 h, bufRead s.dev req l.handle 0 64 = (d1, some h) →
      (imageHeaderOk h (bufSize s.dev i) = false → fails 0x31) ∧
      (∀ d2 b d3 img, imageHeaderOk h (bufSize d1 i) = true →
        bufRead d1 req l.handle (fieldAt h 32 4) (fieldAt h 30 1 * 24) = (d2, some b) →
        imageTableOk d2 h (bufBase d2 i) (imageEntries b (fieldAt h 30 1)) = true →
        bufRead d2 req l.handle 0 (fieldAt h 8 4 + (if fieldAt h 29 1 = 0 then 0 else 3456)) = (d3, some img) →
          let signer := fieldAt h 29 1
          let size := fieldAt h 8 4
          let verified := (hybridOk d3 (signerKey s.fuses signer) (img.take size) (img.drop size) sigOk).2
          (signer ≠ 0 → keySigner s.fuses signer = true → verified = false → fails 0x70) ∧
          (signer ≠ 0 → keySigner s.fuses signer = true → verified = true → fieldAt h 12 4 < arbCount s.fuses signer → fails 0x70) ∧
          (signer ≠ 0 → keySigner s.fuses signer = false → fails 0x71) ∧
          (signer ≠ 0 → keySigner s.fuses signer = true → verified = true → arbCount s.fuses signer ≤ fieldAt h 12 4 →
            ∃ t, exec (.loadComplete c sigOk) s = .next t ∧ (ctxAt t.dev c).st = .loaded ∧ (ctxAt t.dev c).loadStatus = 0 ∧
              (ctxAt t.dev c).isSealed = decide (fieldAt h 6 2 = 1) ∧ (bufAt t.dev i).owner = c ∧ t.fuses = s.fuses) ∧
          (signer = 0 → ∃ t, exec (.loadComplete c sigOk) s = .next t ∧
            let y := ctxAt t.dev c
            let segs := (imageEntries b (fieldAt h 30 1)).map (imageSeg (bufBase d2 i))
            y.st = .loaded ∧ y.load = none ∧ y.loadStatus = 0 ∧ y.segs = segTable segs ∧ y.isSealed = false ∧
            y.image = some { handle := l.handle, entry := BitVec.ofNat 64 (fieldAt h 16 8), segs := segs } ∧
            y.prio = min (fieldAt h 24 1) (reg s.dev (0x3001000 + c / 64 * 0x100000 + c % 64 * 0x40) 7 % 8) ∧
            y.prioMax = min (fieldAt h 25 1) (reg s.dev (0x3001000 + c / 64 * 0x100000 + c % 64 * 0x40) 7 % 8) ∧
            y.ownerRing = fieldAt h 26 2 ∧ y.tkLimit = fieldAt h 28 1 ∧ (bufAt t.dev i).owner = c)))

/-- R50: the record and its order with the interrupt. -/
def Obligations.ThreadRecordWritten : Prop :=
  ∀ (s : State) (c : Nat) (pre post : List ThreadRec) (r : ThreadRec), c < 512 → s.dev.threadRecs = pre ++ r :: post →
    r.ctx = c → (∀ q ∈ pre, q.ctx ≠ c) →
    let x := ringAt s.dev r.ring
    (x.en = true → x.producer = 0xC000 → x.sound = true → x.entries.length < x.size → x.hostWait = [] →
      ∃ t e, exec (.threadRecordWrite c) s = .next t ∧ t.dev.threadRecs = pre ++ post ∧
        (ringAt t.dev r.ring).entries = x.entries ++ [e] ∧ e.sop = true ∧ e.eop = true ∧ e.data.length = 32 ∧
        fieldAt e.data 0 4 = 0xFFFFF000 + c ∧ fieldAt e.data 4 1 = r.status % 256 ∧ fieldAt e.data 5 1 = r.func % 256 ∧
        fieldAt e.data 6 1 = 120 + c / 64 ∧ fieldAt e.data 7 1 = 128 * ofFlag x.phase ∧ fieldAt e.data 8 8 = r.time % 2 ^ 64 ∧
        fieldAt e.data 16 8 = r.operand.toNat ∧ fieldAt e.data 24 6 = r.pc.toNat % 2 ^ 40 + r.pc.toNat / 2 ^ 60 * 2 ^ 40 ∧
        fieldAt e.data 30 1 = r.cause % 256 ∧ fieldAt e.data 31 1 = r.detail % 256 ∧
        (intcLost s.dev (64 + c / 64) = false → t.dev.intc.latch.contains (64 + c / 64) = true) ∧
        (∀ k, ctxAt t.dev k = ctxAt s.dev k) ∧ (∀ k, k ≠ r.ring → ringAt t.dev k = ringAt s.dev k) ∧ t.dev.wos = s.dev.wos) ∧
    ((x.en = false ∨ x.producer ≠ 0xC000 ∨ x.sound = true ∧ x.size ≤ x.entries.length) →
      ∃ t, exec (.threadRecordWrite c) s = .next t ∧ t.dev.threadRecs = s.dev.threadRecs ∧ t.dev.rings = s.dev.rings ∧
        t.dev.mem = s.dev.mem ∧ (∀ k, ctxAt t.dev k = ctxAt s.dev k))

/-- R75, R77: WO_ACCEPT on a dispatched work order. -/
def Obligations.AcceptanceChecks : Prop :=
  (∀ (d : Device) (w : WorkOrder),
    let hs := handlesStatus d w.ctx (allHandles w)
    let bad := fieldAt w.raw 0 1 ≠ kindCode w.kind ∨ fieldAt w.raw 1 1 ≠ 1 ∨ 7 < fieldAt w.raw 2 1 ∨ 2 < fieldAt w.raw 3 1 ∨
      3 < fieldAt w.raw 6 2 ∨ fieldAt w.raw 19 1 ≠ 0
    (bad → acceptStatus d w = 0x31) ∧
    (acceptStatus d w ≠ 0x31 → (fieldAt w.raw 16 2 ≠ w.ctx ∨ fieldAt w.raw 18 1 ≠ w.func) → acceptStatus d w = 0x42) ∧
    (acceptStatus d w = 0 → hs = 0 ∧ fieldAt w.raw 16 2 = w.ctx ∧ fieldAt w.raw 18 1 = w.func ∧ surfacesRead w = true ∧
      (fieldAt w.raw 3 1 = 0 ∨ fieldAt w.raw 8 8 = 0 ∨ d.time < fieldAt w.raw 8 8)) ∧
    (acceptStatus d w ≠ 0x31 → fieldAt w.raw 16 2 = w.ctx → fieldAt w.raw 18 1 = w.func → hs ≠ 0 → acceptStatus d w = hs)) ∧
  (∀ (s : State) (t : Nat) (w : WorkOrder), woAt s.dev t = some w → w.phase = .dispatched →
    let r := readAll s.dev w
    let v := { r.2 with unit := placeUnit r.1 r.2, low := placeUnit r.1 r.2 }
    let is := (allHandles v).map handleIdx
    let o : WorkOrder := { v with holds := is, seq := r.1.woSeq, phase := .queued }
    (streamWaits s.dev w = false → acceptStatus r.1 v = 0 →
      exec (.woAccept t) s = .next (after s (acceptKind (modWo { is.foldl holdBuf r.1 with woSeq := r.1.woSeq + 1 } t (fun _ => o)) o)) ∧
      (w.kind ≠ .enc → w.kind ≠ .encr → w.kind ≠ .comp → w.kind ≠ .nettx → w.kind ≠ .ingest → ∀ e, acceptKind e o = e)) ∧
    (streamWaits s.dev w = true → exec (.woAccept t) s = .next (after s s.dev)) ∧
    (acceptStatus r.1 v ≠ 0 → (w.kind = .magw ∨ w.kind = .dma) → w.abort = none → funcBusy s.dev w.func = false →
      ∃ u q, exec (.woAccept t) s = .next u ∧ u.dev.recs = s.dev.recs ++ [q] ∧ q.ticket = t ∧ q.final = true ∧
        fieldAt q.data 4 1 = acceptStatus r.1 v % 256 ∧ q.ring = fieldAt w.raw 4 2 ∧
        (woAt u.dev t).map (·.phase) = some .ending)) ∧
  (∀ (s : State) (t : Nat), (∀ w, woAt s.dev t = some w → w.phase ≠ .dispatched) → exec (.woAccept t) s = .next (after s s.dev))

/-- R78, R81, R84, R85, R87, R41. -/
def Obligations.WorkOrderEnds : Prop :=
  (∀ (s : State) (who : Who) (t : Nat), ctlGrant s.dev who 0x204 4 true = true →
    let missed := ∃ u, exec (.woCancel who t) s = .next u ∧ u.dev.cancelMiss = min 0xFFFF (s.dev.cancelMiss + 1) ∧
      u.dev.wos = s.dev.wos ∧ u.dev.recs = s.dev.recs ∧ u.dev.cancelDone = s.dev.cancelDone
    (woAt s.dev t = none → missed) ∧
    (∀ w, woAt s.dev t = some w → isHeld s.dev t = false →
      ((w.phase = .ending ∨ woNoCancel w = true ∨ w.kind = .seal ∨ w.kind = .keyop) → missed) ∧
      (∀ c, who = .holt c → (ctxAt s.dev c).func ≠ w.func → missed) ∧
      (w.kind = .magw → w.phase ≠ .ending → woNoCancel w = false → (∀ c, who = .holt c → (ctxAt s.dev c).func = w.func) →
        ((w.phase = .dispatched ∨ w.phase = .queued) → funcBusy s.dev w.func = false →
          ∃ u q, exec (.woCancel who t) s = .next u ∧ u.dev.recs = s.dev.recs ++ [q] ∧ q.ticket = t ∧ q.final = true ∧
            fieldAt q.data 4 1 = 0x10 ∧ u.dev.cancelDone = min 0xFFFF (s.dev.cancelDone + 1) ∧ u.dev.cancelMiss = s.dev.cancelMiss) ∧
        (w.phase = .running → ∃ u, exec (.woCancel who t) s = .next u ∧
          woAt u.dev t = some { w with abort := some (if w.abort = some .function then .function else .cancel) } ∧
          u.dev.recs = s.dev.recs)))) ∧
  (∀ (s : State) (who : Who) (t f : Nat), whoLive s.dev who = true → whoFunc s.dev who = some (f + 1) →
    let missed := exec (.woCancel who t) s = .next (after s { s.dev with cancelMiss := min 0xFFFF (s.dev.cancelMiss + 1) })
    (woAt s.dev t = none → missed) ∧
    (∀ w, woAt s.dev t = some w →
      (w.func ≠ f + 1 ∨ w.phase = .ending → missed) ∧
      (w.func = f + 1 → w.phase ≠ .ending → exec (.woCancel who t) s = .next (after s s.dev)))) ∧
  (∀ (s : State) (t : Nat) (w : WorkOrder), woAt s.dev t = some w → isHeld s.dev t = false → woDeadline w ≠ 0 →
    woDeadline w ≤ s.dev.time → w.kind = .magw →
      (woDlMode w = 0 → exec (.deadlineExpire t) s = .next (after s s.dev)) ∧
      (woDlMode w ≠ 0 → w.phase = .queued → funcBusy s.dev w.func = false →
        ∃ u q, exec (.deadlineExpire t) s = .next u ∧ u.dev.recs = s.dev.recs ++ [q] ∧ q.ticket = t ∧ q.final = true ∧
          fieldAt q.data 4 1 = 0x12) ∧
      (woDlMode w = 1 → w.phase = .running → exec (.deadlineExpire t) s = .next (after s s.dev)) ∧
      (woDlMode w = 2 → w.phase = .running → w.abort = none → ∃ u, exec (.deadlineExpire t) s = .next u ∧
        woAt u.dev t = some { w with abort := some .deadline })) ∧
  (∀ (s : State) (t : Nat) (stop : AbortAt) (w : WorkOrder) (why : AbortReq), woAt s.dev t = some w → isHeld s.dev t = false → w.kind = .nettx →
    w.phase ≠ .ending → w.abort = some why → funcBusy s.dev w.func = false →
      ∃ u q, exec (.abortAtBoundary t stop) s = .next u ∧ u.dev.recs = s.dev.recs ++ [q] ∧ q.ticket = t ∧ q.final = true ∧
        tfind t u.dev.eth.nettx = none ∧ (woAt u.dev t).map (·.phase) = some .ending ∧
        fieldAt q.data 4 1 = (match why with | .function => 0x11 | .cancel => 0x10 | .deadline => 0x12)) ∧
  (∀ (s : State) (t : Nat) (pre post : List RecWait) (r : RecWait), s.dev.recs = pre ++ r :: post → r.ticket = t →
    (∀ q ∈ pre, q.ticket ≠ t) → r.data.length = 32 →
    let x := ringAt s.dev r.ring
    (x.en = true → x.producer = 0xC000 → x.sound = true → x.entries.length < x.size → x.hostWait = [] →
      (∀ w, woAt s.dev t = some w → w.kind ≠ .ingest) →
      ∃ u e, exec (.completionRecordWrite t) s = .next u ∧ u.dev.recs = pre ++ post ∧ (ringAt u.dev r.ring).entries = x.entries ++ [e] ∧
        fieldAt e.data 0 4 = fieldAt r.data 0 4 ∧ fieldAt e.data 4 1 = fieldAt r.data 4 1 ∧ fieldAt e.data 8 8 = s.dev.time % 2 ^ 64 ∧
        fieldAt e.data 16 8 = fieldAt r.data 16 8 ∧ fieldAt e.data 24 8 = fieldAt r.data 24 8 ∧
        fieldAt e.data 7 1 = fieldAt r.data 7 1 % 128 + 128 * ofFlag x.phase ∧
        (r.final = true → woAt u.dev t = none ∧
          ∀ k y, s.dev.tickets.find? (fun e => !e.2.ended && e.2.value == t) = some (k, y) →
            tfind k u.dev.tickets = some { y with ended := true, status := fieldAt r.data 4 1 }) ∧
        (r.final = false → u.dev.wos = s.dev.wos ∧ u.dev.tickets = s.dev.tickets)) ∧
    (x.en = true → x.producer = 0xC000 → x.sound = true → x.size ≤ x.entries.length →
      exec (.completionRecordWrite t) s = .next (after s s.dev))) ∧
  (∀ (s : State) (f : Nat), ctlGrant s.dev (.host f) 0x20C 4 false = true →
    exec (.woLastPfFlrRead (.host f)) s = .next (after s (emit { s.dev with pfLost := 0 }
      (.hostData f (leBytes 4 (s.dev.pfLost * 2 ^ 24 + s.dev.pfCancelled)) false))))

/-- R96, R109, R119, R125, R161–R169: the commands of one picture's coding. -/
def Obligations.EncodePicture : Prop :=
  ∀ (s : State) (t : Nat) (w : WorkOrder), woAt s.dev t = some w →
    (∀ p pos ty, encReady s.dev w = some (p, pos, ty) → encRunAt s.dev t = none →
      ∃ u r e, exec (.encPictureStart t () ()) s = .next u ∧ encRunAt u.dev t = some r ∧ r.type = ty ∧ r.disp = p.disp ∧ r.coded = false ∧
        tfind (encKey w) u.dev.codec.encs = some e ∧ e.busy = some t ∧ r.pic = e.count ∧
        (woAt u.dev t).map (·.phase) = some .running ∧
        (∀ n ∈ woEngines w, (engineAt u.dev n).cur = some t) ∧ u.dev.yard = s.dev.yard ∧ u.dev.tickets = s.dev.tickets) ∧
    (encReady s.dev w = none → exec (.encPictureStart t () ()) s = .next (after s s.dev)) ∧
    (∀ r k fail, encRunAt s.dev t = some r → isEnc w = true → w.phase = .running →
      let x := runTile r k
      let b := if x.acc.cus = 0 then budgetTest w (runBudget w r k) else runBudget w r k
      (tileOpen s.dev w r k = false → exec (.encCu t k fail) s = .next (after s s.dev)) ∧
      (∀ o rest, tileOpen s.dev w r k = true → ctuPlan s.dev w r b k = o :: rest →
        (rest ≠ [] → ∃ u q, exec (.encCu t k fail) s = .next u ∧ encRunAt u.dev t = some q ∧ (runTile q k).ctu = x.ctu ∧
          (runTile q k).acc.cus = x.acc.cus + 1 ∧ (runTile q k).acc.bits = x.acc.bits + o.bits ∧ (runTile q k).plan = rest ∧
          q.cus = r.cus ++ [o.cu] ∧ u.dev.mem = s.dev.mem ∧ u.dev.rings = s.dev.rings) ∧
        (rest = [] → encRing w = true →
          ∃ u q, exec (.encCu t k fail) s = .next u ∧ encRunAt u.dev t = some q ∧ (runTile q k).ctu = x.ctu + 1 ∧
            (runTile q k).acc = CtuAcc.reset ∧ (runTile q k).plan = [] ∧
            (b.minimal = true ∨ breaksHard w r b k (x.acc.bits + o.bits) = false →
              (runTile q k).bytes = x.bytes +
                (ctuBytes w (runFref s.dev r) r k { x with entropy := o.entropy } (x.held ++ o.bytes)).1.length)) ∧
        (rest = [] → encRing w = false → funcBusy s.dev w.func = false → w.abort = none →
          ∃ u, exec (.encCu t k fail) s = .next u ∧
            ((∃ q, encRunAt u.dev t = some q ∧ (runTile q k).ctu = x.ctu + 1 ∧ (runTile q k).acc = CtuAcc.reset) ∨
              endedWith s u t 0x20)))) ∧
    (∀ r e, encRunAt s.dev t = some r → isEnc w = true → w.phase = .running → r.coded = false → r.queue = [] →
      (∀ k, k < tileCount w → tileDone w r k = true) → tfind r.key s.dev.codec.encs = some e →
        (encRing w = true → woField w 76 1 ≠ 0 →
          ∃ u q f, exec (.encPictureCoded t ()) s = .next u ∧ encRunAt u.dev t = some q ∧ q.coded = true ∧
            tfind r.key u.dev.codec.encs = some f ∧ f.busy = none) ∧
        (∃ u, exec (.encPictureCoded t ()) s = .next u ∧ (encRunAt u.dev t = none ∨ ∃ q, encRunAt u.dev t = some q ∧ q.coded = true))) ∧
    (∀ r, encRunAt s.dev t = some r → r.coded = false →
      let x := ringAt s.dev (woField w 82 2)
      x.en = true → x.producer = 0xC000 → x.sound = true → x.hostWait = [] → x.entries.length + r.queue.length ≤ x.size →
        ∃ u, exec (.encRingPush t) s = .next u ∧ encRunAt u.dev t = some { r with queue := [] } ∧
          (ringAt u.dev (woField w 82 2)).entries = x.entries ++ r.queue ∧ (∀ k, k ≠ woField w 82 2 → ringAt u.dev k = ringAt s.dev k)) ∧
    (∀ r k, encRunAt s.dev t = some r → isEncr w = true → w.phase = .running → k < tileCount w → (runTile r k).started = false →
      (engineAt s.dev (tileEngine w k)).cur = some t → woField w 164 1 = 0 →
      (∀ j, j < k → j % max 1 (woField w 21 1) = k % max 1 (woField w 21 1) → tileDone w r j = true) →
      (k = 0 ∨ encCodec w = 2 ∨ tileDone w r (k - 1) = true ∨ 2 ≤ (runTile r (k - 1)).ctu) →
        ∃ u q, exec (.encrRowStart t k) s = .next u ∧ encRunAt u.dev t = some q ∧ (runTile q k).started = true ∧
          (∀ j, j ≠ k → runTile q j = runTile r j)) ∧
    (∀ r e decoded, encRunAt s.dev t = some r → r.coded = true → r.queue = [] → r.verify = true → woField w 76 1 ≠ 0 →
      (∀ n ∈ verifyEngines w, (engineAt s.dev n).cur = some t) → tfind r.key s.dev.codec.encs = some e → e.order = [t] → e.held = [] →
      w.phase = .running → w.abort = none → funcBusy s.dev w.func = false →
        let n := ((upto 0 (tileCount w)).filter (fun k => !tileMatches w (finalPlanes w r.recon) decoded k)).length
        ∃ u, exec (.verifyEnd t decoded) s = .next u ∧ encRunAt u.dev t = none ∧
          endedWith s u t (if r.fault then 0x61 else if n ≠ 0 then 0x60 else if runShort r then 0x03 else 0))

/-- R176–R179, R207–R210. -/
def Obligations.EngineScheduling : Prop :=
  (∀ (s : State) (u q t : Nat),
    let e := engineAt s.dev u
    let rest := e.susp.filter (· ≠ q)
    e.cur = some t →
      (mayPreempt s.dev u (prioOf s.dev t) q = true → atBoundary s.dev u t = true → rest.length < 2 →
        ∃ v, exec (.preempt u q) s = .next v ∧ engineAt v.dev u = { e with cur := some q, susp := t :: rest } ∧
          tget 0 (trussOf u) v.dev.codec.preempts = (tget 0 (trussOf u) s.dev.codec.preempts + 1) % 65536 ∧
          (∀ k, k ≠ u → engineAt v.dev k = engineAt s.dev k) ∧ v.dev.wos = s.dev.wos ∧ v.dev.mem = s.dev.mem) ∧
      ((prioOf s.dev q < 6 ∨ prioOf s.dev q ≤ prioOf s.dev t ∨ 2 ≤ rest.length) →
        exec (.preempt u q) s = .next (after s s.dev)) ∧
      (∀ w, woAt s.dev t = some w → (microOf s.dev u t).routine ≠ 0 → atBoundary s.dev u t = true)) ∧
  (∀ (s : State) (u t : Nat),
    let e := engineAt s.dev u
    e.cur = none → e.susp = [t] → noneAbove s.dev u (prioOf s.dev t) = true →
      exec (.suspendedResume u) s = .next (after s (setEngine s.dev u { e with cur := some t, susp := [] }))) ∧
  (∀ (s : State) (u code t : Nat) (last : Bool) (w : WorkOrder), u < 96 → (engineAt s.dev u).cur = some t → woAt s.dev t = some w →
    w.phase = .running → hasRoutine s.dev w code = true →
    let p := microOf s.dev u t
    let steps := ((if p.routine = code then p.steps else 0) + 1) % 2 ^ 28
    (p.routine = 0 ∨ p.routine = code) →
      ∃ v, exec (.engineProgStep u code last) s = .next v ∧ (microOf v.dev u t).routine = (if last then 0 else code) ∧
        (microOf v.dev u t).steps = (if last then 0 else steps) ∧
        (last = false → (progAt v.dev u).routine = code ∧ (progAt v.dev u).steps = steps) ∧
        v.dev.engines = s.dev.engines ∧ v.dev.wos = s.dev.wos ∧ (code ≠ 3 → code ≠ 4 → v.dev.mem = s.dev.mem)) ∧
  (∀ (s : State) (u t addr lanes : Nat) (nano : Bool), u < 96 → (engineAt s.dev u).cur = some t →
    ∃ v, exec (.ceParityFault u nano addr lanes) s = .next v ∧
      mchkAt v.dev u = { valid := true, nano := nano, addr := addr % (if nano then 1024 else 4096)
                         count := min 0xFF ((mchkAt s.dev u).count + 1), lanes := if nano then lanes % 256 else 1 } ∧
      (engineAt v.dev u).cur = none ∧ (engineAt v.dev u).susp = [] ∧ progAt v.dev u = EngProg.reset ∧
      tget Retained.reset u v.dev.codec.store = tget Retained.reset (u / 8) s.dev.codec.keep)

/-- R211–R216. -/
def Obligations.MicrocodePatch : Prop :=
  (∀ (s : State) (who : Who) (n : Nat) (mask : BitVec 8), n < 12 → ctlGrant s.dev who (0x2000114 + n * 0x100000) 4 true = true →
    isPf s.dev who = true →
    let p := patchAt s.dev n
    let h := reg s.dev (0x2000110 + n * 0x100000) 0
    let req := engineReq (96 + 2 * n)
    let ends := fun (st : Nat) => ∃ t, exec (.trussPatchGo who n mask) s = .next t ∧ (patchAt t.dev n).busy = false ∧
      (patchAt t.dev n).status = st ∧ (patchAt t.dev n).mask = mask.toNat ∧ t.dev.codec.store = s.dev.codec.store
    (p.busy = true → exec (.trussPatchGo who n mask) s = .next (after s s.dev)) ∧
    (p.busy = false → mask = 0 → ends 0x31) ∧
    (p.busy = false → mask ≠ 0 → handleStatus s.dev 0x8000 h ≠ 0 → ends (handleStatus s.dev 0x8000 h)) ∧
    (∀ d1 hd d2 b, p.busy = false → mask ≠ 0 → handleStatus s.dev 0x8000 h = 0 →
      bufRead (setPatch s.dev n { p with mask := mask.toNat, busy := true, ready := false, image := [] }) req h 0 64 = (d1, some hd) →
      fieldAt hd 8 4 + 3456 ≤ bufSize d1 (h % 2 ^ 20) → bufRead d1 req h 0 (fieldAt hd 8 4 + 3456) = (d2, some b) →
        (patchOk b (bufSize d2 (h % 2 ^ 20)) = false → ends 0x31) ∧
        (patchOk b (bufSize d2 (h % 2 ^ 20)) = true → keyQueleivo s.fuses = false → ends 0x71) ∧
        (patchOk b (bufSize d2 (h % 2 ^ 20)) = true → keyQueleivo s.fuses = true →
          ∃ t, exec (.trussPatchGo who n mask) s = .next t ∧
            patchAt t.dev n = { p with mask := mask.toNat, busy := true, ready := false, image := b.take (fieldAt hd 8 4)
                                       sig := b.drop (fieldAt hd 8 4) }))) ∧
  (∀ (s : State) (n : Nat) (good : SigOk),
    let p := patchAt s.dev n
    p.busy = true → p.ready = false →
      let v := fieldAt p.image 12 4
      let verified := (hybridOk s.dev (signerKey s.fuses 1) p.image p.sig good).2
      let fails := ∃ t, exec (.patchVerifyDone n good) s = .next t ∧
        patchAt t.dev n = { p with busy := false, status := 0x70, image := [], sig := [] } ∧ t.dev.engines = s.dev.engines
      (verified = false → fails) ∧ (v < s.fuses.arb3 → fails) ∧
      (verified = true → s.fuses.arb3 ≤ v → ∃ t, exec (.patchVerifyDone n good) s = .next t ∧ patchAt t.dev n = { p with ready := true } ∧
        (∀ k, k < 8 → bitOf p.mask k = true → (engineAt t.dev (8 * n + k)).hold = true) ∧
        (∀ u, (u < 8 * n ∨ 8 * n + 8 ≤ u) → (engineAt t.dev u).hold = (engineAt s.dev u).hold) ∧
        ((∀ k q w, k < 8 → bitOf p.mask k = true → (engineAt s.dev (8 * n + k)).cur = some q → woAt s.dev q = some w → w.phase ≠ .queued) →
          ∀ u, (engineAt t.dev u).cur = (engineAt s.dev u).cur ∧ (engineAt t.dev u).susp = (engineAt s.dev u).susp))) ∧
  (∀ (s : State) (n : Nat),
    let p := patchAt s.dev n
    p.ready = true → (∀ k, k < 8 → bitOf p.mask k = true →
        (engineAt s.dev (8 * n + k)).cur = none ∧ (engineAt s.dev (8 * n + k)).susp = []) →
      let r : Retained := { id := fieldAt p.image 16 2, digest := Config.sha384 p.image, micro := microEntries p.image
                            nano := nanoEntries p.image }
      ∃ t, exec (.patchApply n) s = .next t ∧
        patchAt t.dev n = { p with busy := false, ready := false, status := 0, image := [], sig := [] } ∧
        tget Retained.reset n t.dev.codec.keep = r ∧
        (∀ k, k < 8 → bitOf p.mask k = true →
          tget Retained.reset (8 * n + k) t.dev.codec.store = r ∧ (engineAt t.dev (8 * n + k)).hold = false) ∧
        (∀ k, k < 8 → bitOf p.mask k = false →
          tget Retained.reset (8 * n + k) t.dev.codec.store = tget Retained.reset (8 * n + k) s.dev.codec.store) ∧
        (n < 12 → intcLost s.dev (80 + n) = false → t.dev.intc.latch.contains (80 + n) = true))

/-- R181, R184, R185, R189, R193, R194, R196–R198: the commands of one picture's decoding. -/
def Obligations.DecodePicture : Prop :=
  (∀ (s : State) (t : Nat) (w : WorkOrder) (h : DecHead), woAt s.dev t = some w → decReady s.dev w = true →
    funcBusy s.dev w.func = false → w.abort = none →
    let s0 := if bitOf (woField w 70 1) 0 then DecStream.reset else decStream s.dev (decKey w)
    let broken := headBroken (decCodec w) s0 h
    let h1 := if broken then brokenHead w h else h
    let s1 := openRefs (decCodec w) h1 s0
    let uses := h1.refs.map (refUse s1 h1.order)
    let ends := fun (st : Nat) => ∃ u, exec (.decPictureStart t h) s = .next u ∧ endedWith s u t st
    (takeUnit s.dev w h = none → exec (.decPictureStart t h) s = .next (after s s.dev)) ∧
    (∀ d n st, takeUnit s.dev w h = some (d, n, st) →
      (st ≠ 0 → ends (st % 256)) ∧
      (st = 0 → broken = false → headOk w h = false → ends 0x31) ∧
      (st = 0 → (broken = true ∨ headOk w h = true) →
        (∀ i, decCodec w = 2 → h.existing = some i →
          (tfind i s0.frames = none → ends 0x51) ∧
          (∀ f k, tfind i s0.frames = some f → f.sub = false → f.slot = some k → ends 0) ∧
          (∀ f, tfind i s0.frames = some f → f.sub = true → ends 0x50)) ∧
        (decCodec w ≠ 2 ∨ h.existing = none →
          (handleGen (woField w 84 4) ≠ 0 → bufSize s.dev (handleIdx (woField w 84 4)) < decCtus h1 → ends 0x20) ∧
          ((handleGen (woField w 84 4) = 0 ∨ decCtus h1 ≤ bufSize s.dev (handleIdx (woField w 84 4))) →
            (pickSlotFor s1 uses w = none → ends 0x40) ∧
            (∀ k, pickSlotFor s1 uses w = some k → decAt s.dev t = none → ∃ u r, exec (.decPictureStart t h) s = .next u ∧
              decAt u.dev t = some r ∧ r.slot = k ∧ r.head = h1 ∧ r.refs = uses ∧ r.bytes = n ∧ r.ctus = [] ∧
              r.error = headError (decCodec w) s0 h ∧
              r.stopped = (broken || (headError (decCodec w) s0 h && woField w 66 1 == 1)) ∧
              decStream u.dev (decKey w) = { s1 with size := some (h1.width, h1.height) } ∧
              (woAt u.dev t).map (·.phase) = some .running ∧ (∀ m ∈ woEngines w, (engineAt u.dev m).cur = some t) ∧
              u.dev.mem.cells = s.dev.mem.cells ∧ u.dev.yard = s.dev.yard)))))) ∧
  (∀ (s : State) (t a : Nat) (w : WorkOrder) (r : DecRun) (c : CtuData), woAt s.dev t = some w → decAt s.dev t = some r →
    w.phase = .running → r.stopped = false → (engineAt s.dev (decEngine w r.head a)).cur = some t →
    (decOpen r.head r a = false → exec (.decCtu t a c) s = .next (after s s.dev)) ∧
    (decOpen r.head r a = true → ctuBad w r c = false → ∃ u q, exec (.decCtu t a c) s = .next u ∧ decAt u.dev t = some q ∧
      tfind a q.ctus = some { concealed := false, mvx := c.mvx, mvy := c.mvy, map := ctuMap (decStream s.dev r.key) (ctuUses r c) } ∧
      (∀ b, b ≠ a → tfind b q.ctus = tfind b r.ctus) ∧ q.slot = r.slot ∧ q.error = r.error ∧ u.dev.mem = s.dev.mem) ∧
    (decOpen r.head r a = true → ctuBad w r c = true → woField w 66 1 = 1 → ∃ u, exec (.decCtu t a c) s = .next u ∧
      decAt u.dev t = some { r with error := true, stopped := true }) ∧
    (decOpen r.head r a = true → ctuBad w r c = true → woField w 66 1 ≠ 1 → ∃ u q, exec (.decCtu t a c) s = .next u ∧
      decAt u.dev t = some q ∧ q.error = true ∧ q.stopped = false ∧
      (∀ b, tfind b q.ctus =
        if (tfind b r.ctus).isNone = true ∧ b < decCtus r.head ∧ restOfSegment r.head a b = true then
          some { concealed := true, mvx := 0, mvy := 0, map := 1 }
        else tfind b r.ctus))) ∧
  (∀ (s : State) (t : Nat) (w : WorkOrder) (r : DecRun) (d : Device), woAt s.dev t = some w →
    decAt s.dev t = some r → w.phase = .running →
    (allEngines s.dev w = false ∨ decUnfinished r = true → exec (.decPictureEnd t () () ()) s = .next (after s s.dev)) ∧
    (allEngines s.dev w = true → decUnfinished r = false → funcBusy s.dev w.func = false → w.abort = none →
      let q := endedRun s.dev w r
      let hash := hashOutcome w q
      (decStore (sourceEvents s.dev w q) w q hash true = (d, true) →
        ∃ u e, exec (.decPictureEnd t () () ()) s = .next u ∧ decAt u.dev t = none ∧ u.dev.recs = s.dev.recs ++ [e] ∧
          e.ticket = t ∧ e.final = true ∧ fieldAt e.data 4 1 = decStatus w q hash ∧ fieldAt e.data 16 4 = r.bytes % 2 ^ 32) ∧
      (decStore (sourceEvents s.dev w q) w q hash true = (d, false) →
        ∃ u, exec (.decPictureEnd t () () ()) s = .next u ∧ decAt u.dev t = none ∧ endedWith s u t 0x20)))

/-- R134, R136, R139, R226–R230, R237. -/
def Obligations.AnalysisAndPlanes : Prop :=
  (∀ (s : State) (t : Nat) (w : WorkOrder), woAt s.dev t = some w → w.kind = .ana → canStart s.dev w = true →
    ∃ u, exec (.anaStart t) s = .next u ∧ (woAt u.dev t).map (·.phase) = some .running ∧
      (∀ n ∈ woEngines w, (engineAt u.dev n).cur = some t) ∧
      u.dev.codec.anaRuns = s.dev.codec.anaRuns ++ [{ ticket := t, asInit := bitOf (woField w 64 1) 0 || (anaFind s.dev w).isNone
                                                      forced := !bitOf (woField w 64 1) 0 && (anaFind s.dev w).isNone }]) ∧
  (∀ (s : State) (t : Nat) (w : WorkOrder) (r : AnaRun) (d : Device), woAt s.dev t = some w → w.kind = .ana → w.phase = .running →
    w.abort = none → s.dev.codec.anaRuns.find? (fun r => r.ticket == t) = some r → funcBusy s.dev w.func = false →
    let ends := fun (st : Nat) => ∃ u, exec (.anaEnd t) s = .next u ∧ endedWith s u t st ∧
      u.dev.codec.anaRuns.find? (fun r => r.ticket == t) = none
    (anaRead s.dev w = (d, false) → ends 0x20) ∧
    (anaRead s.dev w = (d, true) →
      let o := (anaCompute d w r).2.2
      ((bufWrite d (anaReq w) (woHandle w 1) 4096 (o.entries.flatMap entryBytes)).2 = true → ends 0) ∧
      ((bufWrite d (anaReq w) (woHandle w 1) 4096 (o.entries.flatMap entryBytes)).2 = false → ends 0x20))) ∧
  (∀ (s : State) (t rows : Nat) (w : WorkOrder), woAt s.dev t = some w → w.kind = .pix →
    (canStart s.dev w = true → ∃ u, exec (.pixStart t rows) s = .next u ∧ (woAt u.dev t).map (·.phase) = some .running ∧
      (∀ n ∈ woEngines w, (engineAt u.dev n).cur = some t)) ∧
    (∀ d, canStart s.dev w = false → w.phase = .running → allEngines s.dev w = true → w.progress < rows →
      rows < sfHeight (pixOut w 0) → pixAdvance s.dev w rows = (d, true) →
        ∃ u, exec (.pixStart t rows) s = .next u ∧ (woAt u.dev t).map (·.progress) = some rows)) ∧
  (∀ (s : State) (t : Nat) (w : WorkOrder) (d : Device), woAt s.dev t = some w → w.kind = .pix → w.phase = .running →
    allEngines s.dev w = true → funcBusy s.dev w.func = false → w.abort = none →
    (pixAdvance s.dev w (sfHeight (pixOut w 0)) = (d, true) →
      ∃ u q, exec (.pixEnd t) s = .next u ∧ u.dev.recs = s.dev.recs ++ [q] ∧ q.ticket = t ∧ q.final = true ∧
        fieldAt q.data 4 1 = (if badTiles s.dev w.surfIn = 0 then 0 else 0x51) ∧ fieldAt q.data 16 4 = sfHeight (pixOut w 0) % 2 ^ 32) ∧
    (pixAdvance s.dev w (sfHeight (pixOut w 0)) = (d, false) → ∃ u, exec (.pixEnd t) s = .next u ∧ endedWith s u t 0x20))

/-- R239, R242, R246, R287–R289, R376, R470, R471. -/
def Obligations.OutputCommands : Prop :=
  (∀ (s : State) (n : Nat), n < 6 →
    let o := outAt s.dev n
    let takes := fun (p : Option FrameProg) (q : List FrameProg) => ∃ u, exec (.mortarFrameBoundary n) s = .next u ∧
      (outAt u.dev n).prog = p ∧ (outAt u.dev n).queue = q ∧ (outAt u.dev n).frames = (o.frames + 1) % 2 ^ 32 ∧
      (outAt u.dev n).line = 0 ∧ (sdiAt u.dev n).cfg = sdiReg s.dev n ∧
      (∀ k, k ≠ n → outAt u.dev k = { outAt s.dev k with prev := (outAt u.dev k).prev, held := (outAt u.dev k).held })
    (sdiEn (sdiReg s.dev n) = true →
      (∀ p q, o.queue = p :: q → takes (some p) q) ∧ (o.queue = [] → o.blank = true → takes none []) ∧
      (o.queue = [] → o.blank = false → o.resume = false → takes o.prog []) ∧
      (o.queue = [] → o.blank = false → o.resume = true → takes (o.prev.head?.map (·.1)) [])) ∧
    (sdiEn (sdiReg s.dev n) = false → ∃ u, exec (.mortarFrameBoundary n) s = .next u ∧
      (outAt u.dev n).prog = (if o.blank then none else o.prog) ∧ (outAt u.dev n).queue = o.queue ∧ (outAt u.dev n).frames = o.frames ∧
      (sdiAt u.dev n).cfg = sdiReg s.dev n)) ∧
  (∀ (s : State) (n late : Nat) (wbLate : Bool), n < 4 → sdiEn (sdiAt s.dev n).cfg = true →
    let o := outAt s.dev n
    let w := (rasterOf (sdiAt s.dev n).cfg).1
    (o.line < (rasterOf (sdiAt s.dev n).cfg).2 →
      (o.prog = none → exec (.mortarLineCompose n late wbLate) s =
        .next (after s (emit (setOut s.dev n { o with line := o.line + 1 }) (.sdiLine n o.line (blackLine w))))) ∧
      (∀ p, o.prog = some p → o.shown = [] → p.wbBuf = none → ∃ u more, exec (.mortarLineCompose n late wbLate) s = .next u ∧
        (outAt u.dev n).line = o.line + 1 ∧
        u.dev.out = s.dev.out ++ .sdiLine n o.line (videoLine (fieldAt p.head 34 1) (background p w) w) :: more)) ∧
    ((rasterOf (sdiAt s.dev n).cfg).2 ≤ o.line → exec (.mortarLineCompose n late wbLate) s = .next (after s s.dev))) ∧
  (∀ (s : State) (n : Nat), n < 4 → sdiEn (sdiAt s.dev n).cfg = true →
    let x := sdiAt s.dev n
    let natural : Int := x.due + (1000000000 * (rateOf (sdiRate x.cfg)).2 : Nat) / ((rateOf (sdiRate x.cfg)).1 : Nat)
    let e := natural - alignedNear s.dev n (sdiRate x.cfg) natural
    (x.due ≤ s.dev.time → ∃ u tc more, exec (.sdiFrameSend n) s = .next u ∧
      u.dev.out = s.dev.out ++ .sdiFrame n (x.cfg / 2 ^ 22 % 2 ^ 9) tc :: more ∧ (sdiAt u.dev n).cfg = x.cfg ∧
      (e.natAbs ≤ 10000 → (sdiAt u.dev n).due = natural.toNat ∧ (sdiAt u.dev n).err = e ∧ (sdiAt u.dev n).realign = x.realign) ∧
      (10000 < e.natAbs → (sdiAt u.dev n).due = (alignedFrom s.dev n (sdiRate x.cfg) natural).toNat ∧ (sdiAt u.dev n).err = 0 ∧
        (sdiAt u.dev n).realign = (x.realign + 1) % 2 ^ 32)) ∧
    (s.dev.time < x.due → exec (.sdiFrameSend n) s = .next (after s s.dev))) ∧
  (∀ (s : State) (n : Nat),
    let x := sdiAt s.dev n
    let pull := max (-100) (min 100 x.err)
    (sdiEn x.cfg = true → ∃ u, exec (.sdiPllUpdate n) s = .next u ∧ (sdiAt u.dev n).err = x.err - pull ∧
      (sdiAt u.dev n).due = ((x.due : Int) - pull).toNat ∧ (sdiAt u.dev n).trim.natAbs ≤ 659706976 ∧
      (∀ k, k ≠ n → sdiAt u.dev k = sdiAt s.dev k)) ∧
    (sdiEn x.cfg = false → exec (.sdiPllUpdate n) s = .next (after s s.dev))) ∧
  (∀ (s : State) (who : Who) (n : Nat) (v : Word32), n < 4 → ctlGrant s.dev who (0xC00000 + 16 * n) 4 true = true →
    (sdiComboOk v.toNat = true → ∃ u, exec (.sdiCfgWrite who n v) s = .next u ∧
      reg u.dev (0xC00000 + 16 * n) 0 = v.toNat &&& 0xFFE0FFFF ∧ (sdiEn (sdiAt s.dev n).cfg = true → (sdiAt u.dev n).cfg = (sdiAt s.dev n).cfg) ∧
      (sdiEn (sdiAt s.dev n).cfg = false → (sdiAt u.dev n).cfg = v.toNat &&& 0xFFE0FFFF)) ∧
    (sdiComboOk v.toNat = false → ∃ u, exec (.sdiCfgWrite who n v) s = .next u ∧ u.dev.regs = s.dev.regs ∧
      (sdiAt u.dev n).cfgErr = true ∧ (sdiAt u.dev n).cfg = (sdiAt s.dev n).cfg)) ∧
  (∀ (s : State) (who : Who) (n : Nat) (v : Word32), n < 2 → ctlGrant s.dev who (0xA00180 + 16 * n) 4 true = true →
    (ipComboOk v.toNat = true → ∃ u, exec (.ethIpCfgWrite who n v) s = .next u ∧
      reg u.dev (0xA00180 + 16 * n) (15 * 2 ^ 12) = v.toNat &&& 0x8FF8F03F) ∧
    (ipComboOk v.toNat = false → ∃ u, exec (.ethIpCfgWrite who n v) s = .next u ∧ u.dev.regs = s.dev.regs ∧
      (sdiAt u.dev (4 + n)).cfgErr = true))

/-- R254, R260–R265, R267, R269: the sensor commands. -/
def Obligations.SensorFrames : Prop :=
  (∀ (s : State) (who : Who) (n : Nat) (v : Word32), n < 8 → ctlGrant s.dev who (0xD00000 + 16 * n) 4 true = true →
    (csiLocked s.dev n = true → exec (.csiPortCfgWrite who n v) s = .next (after s s.dev)) ∧
    (csiLocked s.dev n = false → bitOf v.toNat 31 = true → csiCfgOk v.toNat = true →
      ∃ u, exec (.csiPortCfgWrite who n v) s = .next u ∧ csiCfg u.dev n = v.toNat &&& 0xC70FFFFF ∧ u.dev.ingest = s.dev.ingest ∧
        (∀ o x, o ≠ 0xD00000 + 16 * n → reg u.dev o x = reg s.dev o x)) ∧
    (csiLocked s.dev n = false → bitOf v.toNat 31 = true → csiCfgOk v.toNat = false →
      ∃ u, exec (.csiPortCfgWrite who n v) s = .next u ∧ u.dev.regs = s.dev.regs ∧ csiAt u.dev n = { csiAt s.dev n with cfgErr := true } ∧
        (∀ k, k ≠ n → csiAt u.dev k = csiAt s.dev k)) ∧
    (csiLocked s.dev n = false → bitOf v.toNat 31 = false →
      ∃ u, exec (.csiPortCfgWrite who n v) s = .next u ∧ csiCfg u.dev n = v.toNat &&& 0xC70FFFFF ∧ csiEn u.dev n = false ∧
        (csiAt u.dev n).lock = false)) ∧
  (∀ (s : State) (n : Nat) (valid : Bool),
    (csiEn s.dev n = true → ∃ u, exec (.csiHsSync n valid) s = .next u ∧ csiAt u.dev n = { csiAt s.dev n with lock := valid } ∧
      (∀ k, k ≠ n → csiAt u.dev k = csiAt s.dev k) ∧ u.dev.ingest.runs = s.dev.ingest.runs) ∧
    (csiEn s.dev n = false → exec (.csiHsSync n valid) s = .next (after s s.dev))) ∧
  (∀ (s : State) (n vc : Nat) (ecc : Bool) (r : IngestRun) (w : WorkOrder), runFor s.dev n vc = some r → runAt s.dev r.ticket = some r →
    woAt s.dev r.ticket = some w →
    (∀ fn, r.frame = none → ∃ u q f, exec (.csiFrameStart n vc fn ecc) s = .next u ∧ runAt u.dev r.ticket = some q ∧ q.started = true ∧
      q.nextNum = (r.nextNum + 1) % 2 ^ 32 ∧ q.frames = r.frames ∧ q.frame = some f ∧ f.number = r.nextNum ∧ f.joined = 2 ^ n ∧
      f.startAt = s.dev.up ∧ f.firstFs = s.dev.time ∧ f.rows = [] ∧ f.bad = 0 ∧ f.metaLen = 0 ∧
      q.dropped = r.dropped + (if f.handle = none then 1 else 0) ∧ u.dev.recs = s.dev.recs) ∧
    (∀ fn f, r.frame = some f → bitOf f.joined n = false → s.dev.up ≤ f.startAt + woField w 84 2 * 1000 →
      ∃ u, exec (.csiFrameStart n vc fn ecc) s = .next u ∧
        runAt u.dev r.ticket = some { r with frame := some { f with joined := f.joined ||| 2 ^ n } } ∧ u.dev.recs = s.dev.recs) ∧
    (∀ f dt line payload crcOk h, r.frame = some f → dt = woField w 66 1 → f.handle = some h →
      (crcOk = false ∨ payload.length * 8 ≠ igWidth w * dtBits dt ∨ line = 0 ∨ igHeight w < line ∨ line - 1 ∈ f.rows →
        ∃ u q g, exec (.csiLine n vc dt line payload crcOk false ecc) s = .next u ∧ runAt u.dev r.ticket = some q ∧ q.frame = some g ∧
          g.bad = f.bad + 1 ∧ g.rows = f.rows ∧ g.stamp = some (f.stamp.getD s.dev.time) ∧ u.dev.mem = s.dev.mem) ∧
      (crcOk = true → payload.length * 8 = igWidth w * dtBits dt → 0 < line → line ≤ igHeight w → line - 1 ∉ f.rows →
        storable s.dev 33 h ((line - 1) * igPitch w) (rowBytes w payload).length = true → r.progPhys = none →
          ∃ u q g, exec (.csiLine n vc dt line payload true false ecc) s = .next u ∧ runAt u.dev r.ticket = some q ∧ q.frame = some g ∧
            g.bad = f.bad ∧ (∀ x, x ∈ g.rows ↔ x = line - 1 ∨ x ∈ f.rows) ∧
            (∀ i, i < (rowBytes w payload).length →
              cellAt (bufBase s.dev (handleIdx h) + (line - 1) * igPitch w + i) u.dev.mem.cells = (rowBytes w payload)[i]?) ∧
            (∀ a, a < bufBase s.dev (handleIdx h) + (line - 1) * igPitch w ∨
                bufBase s.dev (handleIdx h) + (line - 1) * igPitch w + (rowBytes w payload).length ≤ a →
              cellAt a u.dev.mem.cells = cellAt a s.dev.mem.cells)) ∧
      (∃ u, exec (.csiLine n vc dt line payload crcOk true ecc) s = .next u ∧ u.dev.ingest.overrun = (s.dev.ingest.overrun + 1) % 65536 ∧
        u.dev.mem = s.dev.mem)) ∧
    (∀ f line payload crcOk excess, r.frame = some f → f.handle = none →
      ∃ u, exec (.csiLine n vc (woField w 66 1) line payload crcOk excess ecc) s = .next u ∧
        runAt u.dev r.ticket = some { r with frame := some { f with stamp := some (f.stamp.getD s.dev.time) } } ∧ u.dev.mem = s.dev.mem ∧ u.dev.ingest.overrun = s.dev.ingest.overrun) ∧
    (∀ f dt payload crcOk h, r.frame = some f → f.handle = some h → 0x30 ≤ dt → dt ≤ 0x37 → igCtrl w 1 = true →
      ∃ u q g, exec (.csiMetaPacket n vc dt payload crcOk ecc) s = .next u ∧ runAt u.dev r.ticket = some q ∧ q.frame = some g ∧
        (crcOk = false → g.metaLost = f.metaLost + 1 ∧ g.metaLen = f.metaLen ∧ u.dev.mem = s.dev.mem) ∧
        (crcOk = true → woField w 80 4 < f.metaLen + 8 + payload.length → g.metaLost = f.metaLost + 1 ∧ g.metaLen = f.metaLen) ∧
        (crcOk = true → f.metaLen + 8 + payload.length ≤ woField w 80 4 → g.metaLost = f.metaLost ∧
          g.metaLen = f.metaLen + 8 + payload.length)) ∧
    (∀ f, r.frame = some f → bitOf f.joined n = true → f.ended ||| 2 ^ n ≠ f.joined → ∃ u, exec (.csiFrameEnd n vc ecc) s = .next u ∧
      runAt u.dev r.ticket = some { r with frame := some { f with ended := f.ended ||| 2 ^ n } } ∧ u.dev.recs = s.dev.recs) ∧
    (∀ f h, r.frame = some f → f.handle = some h → bitOf f.joined n = true → f.ended ||| 2 ^ n = f.joined →
      (arrivalsHeld s.dev r.ticket < 4 → w.phase = .running → woNoInterim w = false → funcBusy s.dev w.func = false →
        ∃ u q, exec (.csiFrameEnd n vc ecc) s = .next u ∧ runAt u.dev r.ticket = some { r with frame := none, frames := r.frames + 1 } ∧
          u.dev.recs = s.dev.recs ++ [q] ∧ q.ticket = r.ticket ∧ q.final = false ∧ fieldAt q.data 16 8 = frameStamp f % 2 ^ 64 ∧
          fieldAt q.data 24 4 = f.number % 2 ^ 32 ∧ fieldAt q.data 28 4 = h % 2 ^ 32) ∧
      (4 ≤ arrivalsHeld s.dev r.ticket → ∃ u, exec (.csiFrameEnd n vc ecc) s = .next u ∧
        runAt u.dev r.ticket = some { r with frame := none, dropped := r.dropped + 1 } ∧ u.dev.recs = s.dev.recs))) ∧
  (∀ (s : State) (t : Nat) (r : IngestRun) (w : WorkOrder) (f : InFrame) (h : Nat), runAt s.dev t = some r → woAt s.dev t = some w →
    r.frame = some f → f.handle = some h →
    (s.dev.up < f.startAt + woField w 88 4 * 1000 → exec (.frameTimeout t) s = .next (after s s.dev)) ∧
    (f.startAt + woField w 88 4 * 1000 ≤ s.dev.up → arrivalsHeld s.dev t < 4 → ∃ u, exec (.frameTimeout t) s = .next u ∧
      runAt u.dev t = some { r with frame := none, frames := r.frames + (if woNoInterim w then 0 else 1) })) ∧
  (∀ (s : State) (p : Nat) (x : Trig), tfind p s.dev.ingest.trigs = some x → x.next = none →
    (∀ l, x.low = some l → l ≤ s.dev.up → ∃ u more, exec (.trigPulse p) s = .next u ∧
      u.dev.out = s.dev.out ++ .pin ("SYNC_OUT" ++ toString p) false :: more ∧
      tfind p u.dev.ingest.trigs = some { x with low := none }) ∧
    (x.low = none → x.due ≤ s.dev.time → ∃ u more, exec (.trigPulse p) s = .next u ∧
      u.dev.out = s.dev.out ++ .pin ("SYNC_OUT" ++ toString p) true :: more ∧
      tfind p u.dev.ingest.trigs = some { x with low := some (s.dev.up + x.width), due := x.due + max 1 x.period }) ∧
    (x.low = none → s.dev.time < x.due → exec (.trigPulse p) s = .next (after s s.dev)))

/-- R271–R283, R438, R440, R441, R443: the life of a clip. -/
def Obligations.MagazineClips : Prop :=
  (∀ (s : State) (p gen : Nat) (found : List NvmeFound), p < 2 → (rpAt s.dev p).onB = 0 →
    ∃ u, exec (.magLinkUp p 0 gen found) s = .next u ∧ (rpAt u.dev p).upA = true ∧ (rpAt u.dev p).genA = gen ∧
      (∀ i, i < 16 → bitOf (rpAt u.dev p).onA i = decide (i < found.length) ∧
        bitOf (rpAt u.dev p).ready i = match found[i]? with | some f => f.twoPairs && nvmeRings s.dev (16 * p + i) | none => false) ∧
      (∀ k, k ≠ p → rpAt u.dev k = rpAt s.dev k) ∧ u.dev.mag.clips = s.dev.mag.clips) ∧
  (∀ (s : State) (p c link : Nat), p < 2 → c < 16 → ∃ u, exec (.magLinkDown p link (some c)) s = .next u ∧
    bitOf (rpAt u.dev p).ready c = false ∧ (∀ i, i < 16 → i ≠ c → bitOf (rpAt u.dev p).ready i = bitOf (rpAt s.dev p).ready i) ∧
    (∀ k x r, clipAt u.dev k = some x → r ∈ x.recs → r.st = .flight → touches x r.cba r.blocks (16 * p + c) = false) ∧
    (∀ k x r t w, s.dev.mag.clips = [(k, x)] → x.recs.find? (fun y => y.seq == x.linked) = some r → r.st = .flight →
      touches x r.cba r.blocks (16 * p + c) = true → r.ticket = some t → woAt s.dev t = some w → w.phase = .running →
      w.abort = none → funcBusy s.dev w.func = false → hasEnded u t 0x80)) ∧
  (∀ (s : State) (p : Nat), p < 2 → ∃ u, exec (.magLinkDown p 0 none) s = .next u ∧ (rpAt u.dev p).upA = false ∧
    (rpAt u.dev p).onA = 0 ∧ (rpAt u.dev p).upB = (rpAt s.dev p).upB ∧
    (∀ i, i < 16 → bitOf (rpAt s.dev p).onA i = true → bitOf (rpAt u.dev p).ready i = false)) ∧
  (∀ (s : State) (t : Nat) (w : WorkOrder), magwNext s.dev t 1 = some w → funcBusy s.dev w.func = false →
    (∀ x, clipAt s.dev (mwClip w) = some x → ∃ u, exec (.magwOpen t) s = .next u ∧ endedWith s u t 0x31 ∧ u.dev.mag = s.dev.mag) ∧
    (∀ l k, clipAt s.dev (mwClip w) = none → membersOf (tget [] 104 w.extra) (woField w 68 1) = l.map some → membersOk s.dev l = true →
      slotAt s.dev (woField w 88 4) = some k → k.func = w.func → k.imported = false → k.opened = false →
      k.clipId = (w.raw.drop 72).take 16 → keyDsk s.fuses s.dev = true →
        ∃ u x, exec (.magwOpen t) s = .next u ∧ clipAt u.dev (mwClip w) = some x ∧ x.func = w.func ∧ x.members = l ∧ x.clipId = k.clipId ∧
          x.cap = l.length * 2 ^ woField w 69 1 * (l.foldl (fun n m => min n m.len) (65535 * 65536) / 2 ^ woField w 69 1) ∧
          x.nextSeq = 0 ∧ x.nextCba = 0 ∧ x.recs = [] ∧ x.openTime = s.dev.time ∧ x.key = k.key ∧
          x.link = seedLink k.clipId k.keyId s.dev.ks.devFpr s.dev.time ∧ slotAt u.dev (woField w 88 4) = some { k with opened := true } ∧
          endedWith s u t 0)) ∧
  (∀ (s : State) (t : Nat) (w : WorkOrder) (c : Clip), magwNext s.dev t 2 = some w → clipAt s.dev (mwClip w) = some c → c.func = w.func →
    c.closing = none → woField w 67 1 = 0 → funcBusy s.dev w.func = false →
    let len := (mwSrc w).foldl (fun s e => s + e.2.2) 0
    let fails := fun st => ∃ u, exec (.magwWrite t) s = .next u ∧ endedWith s u t st ∧ u.dev.mag = s.dev.mag
    (c.sealFailed = true → fails 0x70) ∧
    (c.sealFailed = false → membersReady s.dev c = false → fails 0x80) ∧
    (c.sealFailed = false → membersReady s.dev c = true → c.cap - 256 < c.nextCba + recBlocks len → fails 0x20) ∧
    (∀ data, c.sealFailed = false → membersReady s.dev c = true → c.nextCba + recBlocks len ≤ c.cap - 256 → (∀ y ∈ c.recs, y.seq ≠ c.nextSeq) →
      (readPieces (mwReq c) (mwSrc w) s.dev).2 = some data →
        let hdr := recHeader c (woField w 66 1) c.nextSeq c.nextCba (recBlocks len) (woField w 92 4) (woField w 96 8) len
        ∃ u x r, exec (.magwWrite t) s = .next u ∧ clipAt u.dev (mwClip w) = some x ∧ x.recs = c.recs ++ [r] ∧ x.nextSeq = c.nextSeq + 1 ∧
          x.nextCba = c.nextCba + recBlocks len ∧ x.linked = c.linked ∧ r.seq = c.nextSeq ∧ r.cba = c.nextCba ∧ r.ticket = some t ∧
          r.st = .flight ∧ r.header = hdr ∧ r.tag = recTag c c.nextSeq hdr data ∧ (woAt u.dev t).map (·.phase) = some .running ∧
          u.dev.recs = s.dev.recs)) ∧
  (∀ (s : State) (t : Nat) (w : WorkOrder) (c : Clip), magwNext s.dev t 3 = some w → clipAt s.dev (mwClip w) = some c → c.func = w.func →
    c.closing = none →
    (∀ r, c.recs.find? (fun y => y.seq == c.linked) = some r → r.st = .flight → c.linked ≠ c.nextSeq →
      ∃ u, exec (.magwClose t) s = .next u ∧ clipAt u.dev (mwClip w) = some { c with closing := some t } ∧
        (woAt u.dev t).map (·.phase) = some .running ∧ u.dev.recs = s.dev.recs) ∧
    (c.recs = [] → c.linked = c.nextSeq → c.flushing = false → c.finalDone = false → c.sealFailed = false → membersReady s.dev c = true →
      c.nextCba + 1 ≤ c.cap - 256 → ∃ u x r, exec (.magwClose t) s = .next u ∧ clipAt u.dev (mwClip w) = some x ∧ x.closing = some t ∧
        x.finalDone = true ∧ x.recs = [r] ∧ r.kind = 4 ∧ r.st = .reserved ∧ r.seq = c.nextSeq ∧ r.cba = c.nextCba ∧
        x.nextSeq = c.nextSeq + 1)) ∧
  (∀ (s : State) (k : Nat) (c : Clip) (r : ClipRec), clipAt s.dev k = some c → c.recs.find? (fun y => y.seq == c.linked) = some r →
    r.st = .flight → r.kind ≠ 4 → c.closing = none → (∀ y ∈ c.recs, y.seq ≠ c.linked + 1) →
    (s.dev.time < c.nextSeal → c.recs.length < 4096 → ∃ u x, exec (.magRecordComplete k c.linked 0) s = .next u ∧ clipAt u.dev k = some x ∧
      x.link = linkOf c.link r.header r.tag false ∧ x.linked = c.linked + 1 ∧ x.completes = c.completes + 1 ∧ x.nextSeq = c.nextSeq ∧
      (∀ t w, r.ticket = some t → woAt s.dev t = some w → w.phase = .running → funcBusy s.dev w.func = false → r.status < 256 →
        endedWith s u t r.status)) ∧
    (∀ nvme, nvme ≠ 0 → ∃ u x, exec (.magRecordComplete k c.linked nvme) s = .next u ∧ clipAt u.dev k = some x ∧
      x.link = linkOf c.link r.header 0 true ∧ x.linked = c.linked + 1 ∧ x.voids = c.voids + 1 ∧
      (∀ t w, r.ticket = some t → woAt s.dev t = some w → w.phase = .running → funcBusy s.dev w.func = false →
        ∃ st, st ≠ 0 ∧ endedWith s u t st))) ∧
  (∀ (s : State) (k : Nat) (c : Clip) (r : ClipRec), clipAt s.dev k = some c → sealReady s.dev k = some r →
    (keyDsk s.fuses s.dev = true → ∃ u x, exec (.sealRecordSign k true) s = .next u ∧ clipAt u.dev k = some x ∧ x.linked = c.linked ∧
      x.sealFailed = c.sealFailed ∧ (∀ y ∈ x.recs, y.seq = r.seq → y.st = .flight) ∧ u.dev.recs = s.dev.recs) ∧
    (∃ u x, exec (.sealRecordSign k false) s = .next u ∧ clipAt u.dev k = some x ∧ x.sealFailed = true ∧ c.linked < x.linked ∧
      u.dev.ks.sealFail = (s.dev.ks.sealFail + 1) % 256))

/-- R273, R283, R285, R286, R443. -/
def Obligations.EmergencyCloseAndMagazineSetup : Prop :=
  (∀ (s : State) (k nvme t : Nat) (c : Clip) (w : WorkOrder), clipAt s.dev k = some c → c.closing = some t → inEmergency s.dev k = false →
    (c.flushing = false → exec (.magwCloseFlushDone k nvme) s = .next (after s s.dev)) ∧
    (c.flushing = true → woAt s.dev t = some w → w.phase = .running → funcBusy s.dev w.func = false →
      ∃ u st, exec (.magwCloseFlushDone k nvme) s = .next u ∧ clipAt u.dev k = none ∧ (∀ j, j ≠ k → clipAt u.dev j = clipAt s.dev j) ∧
        endedWith s u t st ∧ (nvme = 0 → st = if c.sealFailed then 0x70 else 0) ∧ (nvme ≠ 0 → st ≠ 0))) ∧
  (∀ (s : State) (who : Who),
    let fresh := freshClips s.dev (fun _ => true)
    let started := fun (u : State) reason =>
      u.dev.mag.emerg = s.dev.mag.emerg ++ [{ reason := reason, clips := fresh, startAt := s.dev.up }] ∧ u.dev.mag.clips = s.dev.mag.clips
    (s.dev.mag.emerg = [] ∨ fresh ≠ [] → (∃ u, exec .magEmergNFall s = .next u ∧ started u 1) ∧
      (ctlGrant s.dev who 0xF00020 4 true = true → isPf s.dev who = true →
        ∃ u, exec (.magEmergSwTrig who) s = .next u ∧ started u 7)) ∧
    (s.dev.mag.emerg ≠ [] → fresh = [] → exec .magEmergNFall s = .next (after s s.dev)) ∧
    (isPf s.dev who = false → exec (.magEmergSwTrig who) s = .next (after s s.dev)) ∧
    (∀ k c, clipAt s.dev k = some c → inEmergency s.dev k = false → k ∈ fresh)) ∧
  (∀ (s : State) (lost : List Nat) (r : EmergRun) (rest : List EmergRun), s.dev.mag.emerg = r :: rest →
    ∃ u, exec (.emergencyCloseDone lost) s = .next u ∧ u.dev.mag.emerg = rest ∧ u.dev.mag.done = true ∧ u.dev.mag.reason = r.reason ∧
      (∀ k, k ∈ r.clips → clipAt u.dev k = none) ∧ (∀ k, k ∉ r.clips → clipAt u.dev k = clipAt s.dev k) ∧
      (∀ k, bitOf u.dev.mag.trailers k = true ↔ k ∈ r.clips ∧ k ∉ lost ∧ ∃ c, clipAt s.dev k = some c ∧ membersReady s.dev c = true)) ∧
  (∀ (s : State) (who : Who) (v : Word32), ctlGrant s.dev who 0xF00000 4 true = true → ∃ u, exec (.magCfgWrite who v) s = .next u ∧
    magCfg u.dev % 4 = v.toNat % 4 ∧
    magRingBase u.dev = (if s.dev.rings.any (fun e => e.2.en && e.2.producer == 0xC001) then magRingBase s.dev else bitsOf v.toNat 28 16 / 64 * 64) ∧
    u.dev.rings = s.dev.rings)

/-- R293, R294, R296–R298, R305: accesses to DRAM. -/
def Obligations.DramChannels : Prop :=
  (∀ (s : State) (q a n : Nat) (data : List Byte), q ≠ 47 ∨ lcState s.fuses ≠ some 2 →
    let c := chanOf s.dev a
    let x := chanAt s.dev c
    (a + n ≤ usableBytes s.dev → a % 64 + n ≤ 64 → n ≠ 0 →
      (x.reads.length < 64 → (∀ y ∈ x.wait, y.write = true) → ∃ u r, exec (.dmcAccess q a false data n) s = .next u ∧
        chanAt u.dev c = { x with reads := x.reads ++ [r], powerDown := false, lastUse := s.dev.up } ∧ r.addr = a ∧ r.size = n ∧
        r.requester = q ∧ r.write = false ∧ r.at_ = s.dev.up ∧ r.seq = s.dev.mem.reqSeq ∧ u.dev.mem.reqSeq = s.dev.mem.reqSeq + 1 ∧
        (∀ k, k ≠ c → chanAt u.dev k = chanAt s.dev k) ∧ u.dev.mem.cells = s.dev.mem.cells) ∧
      (64 ≤ x.reads.length ∨ (∃ y ∈ x.wait, y.write = false) → ∃ u r, exec (.dmcAccess q a false data n) s = .next u ∧
        chanAt u.dev c = { x with wait := x.wait ++ [r], powerDown := false, lastUse := s.dev.up } ∧ r.addr = a ∧ r.size = n ∧
        r.requester = q ∧ r.write = false ∧ u.dev.mem.cells = s.dev.mem.cells)) ∧
    (a + data.length ≤ usableBytes s.dev → a % 64 + data.length ≤ 64 → data ≠ [] → x.writes.length < 64 → (∀ y ∈ x.wait, y.write = false) →
      ∃ u r, exec (.dmcAccess q a true data n) s = .next u ∧
        chanAt u.dev c = { x with writes := x.writes ++ [r], powerDown := false, lastUse := s.dev.up } ∧ r.addr = a ∧ r.data = data ∧
        r.requester = q ∧ r.write = true ∧ r.seq = s.dev.mem.reqSeq ∧ u.dev.mem.cells = s.dev.mem.cells) ∧
    (usableBytes s.dev < a + n → ∃ u, exec (.dmcAccess q a false data n) s = .next u ∧
      u.dev.mem = { s.dev.mem with served := s.dev.mem.served ++ [(s.dev.mem.reqSeq, q, [])] })) ∧
  (∀ (s : State) (a n : Nat) (write : Bool) (data : List Byte), lcState s.fuses = some 2 →
    ∃ u, exec (.dmcAccess 47 a write data n) s = .next u ∧
      u.dev.mem = { s.dev.mem with served := s.dev.mem.served ++ [(s.dev.mem.reqSeq, 47, [])] }) ∧
  (∀ (s : State) (c : Nat) (flt : DramFault),
    let x := chanAt s.dev c
    (∀ k m rest, 8 ≤ x.postponed → x.owed = (k, m) :: rest → ∃ u, exec (.dmcSchedule c flt) s = .next u ∧
      (dmcAt u.dev (c / 2)).forced = ((dmcAt s.dev (c / 2)).forced + 1) % 256 ∧ (chanAt u.dev c).postponed = x.postponed - 1 ∧
      (chanAt u.dev c).reads = x.reads ∧ (chanAt u.dev c).writes = x.writes ∧ tfind k (chanAt u.dev c).open_ = none ∧
      u.dev.mem.cells = s.dev.mem.cells) ∧
    (∀ r, dramChoice s.dev x = some r → (r ∈ x.reads ∨ r ∈ x.writes) ∧ blocked x r = false ∧
      (∀ q ∈ dramCandidates s.dev x, urgency s.dev q.requester ≤ urgency s.dev r.requester) ∧
      (x.postponed < 8 → ∃ u, exec (.dmcSchedule c flt) s = .next u ∧
        (∀ q, q.seq ≠ r.seq → (q ∈ (chanAt u.dev c).reads ++ (chanAt u.dev c).writes ++ (chanAt u.dev c).wait ↔
          q ∈ x.reads ++ x.writes ++ x.wait)) ∧
        (x.wait = [] → (∀ q, q ∈ (chanAt u.dev c).reads ↔ q ∈ x.reads ∧ q.seq ≠ r.seq) ∧
          (∀ q, q ∈ (chanAt u.dev c).writes ↔ q ∈ x.writes ∧ q.seq ≠ r.seq)) ∧
        tfind (bankKey s.dev r.addr) (chanAt u.dev c).open_ = some (rowNo s.dev r.addr))) ∧
    (∀ r, x.postponed < 8 → dramChoice s.dev x = some r → r.write = false →
      (memCheck s.dev (reqOf r.requester) false false r.addr r.size).2 = .ok → ∃ u, exec (.dmcSchedule c .none) s = .next u ∧
        u.dev.mem.served = s.dev.mem.served ++ [(r.seq, r.requester, bytesAt s.dev r.addr r.size)] ∧ u.dev.mem.cells = s.dev.mem.cells) ∧
    (∀ r, x.postponed < 8 → dramChoice s.dev x = some r → r.write = true →
      (memCheck s.dev (reqOf r.requester) false true r.addr r.data.length).2 = .ok → ∃ u, exec (.dmcSchedule c .none) s = .next u ∧
        u.dev.mem.served = s.dev.mem.served ++ [(r.seq, r.requester, [])] ∧
        (∀ i, i < r.data.length → cellAt (r.addr + i) u.dev.mem.cells = r.data[i]?) ∧
        (∀ a, a < r.addr ∨ r.addr + r.data.length ≤ a → cellAt a u.dev.mem.cells = cellAt a s.dev.mem.cells)) ∧
    (∀ r, x.postponed < 8 → dramChoice s.dev x = some r → r.write = false → r.addr % 64 + r.size ≤ 64 → 1 ≤ r.size →
      r.addr + r.size ≤ usableBytes s.dev → (∀ b ∈ blocksOf 64 r.addr r.size, inMacArea s.dev b = false) →
      (∀ b ∈ blocksOf 64 r.addr r.size, b ∉ s.dev.mem.badBlocks) →
      (isSealedAddr s.dev (r.addr / 256 * 256) = true → ∃ u, exec (.dmcSchedule c .mac) s = .next u ∧
        u.dev.mem.served = s.dev.mem.served ++ [(r.seq, r.requester, [])] ∧ u.dev.mem.cells = s.dev.mem.cells ∧
        r.addr / 256 * 256 ∈ u.dev.mem.badUnits) ∧
      (∀ syn, ∃ u, exec (.dmcSchedule c (.double syn)) s = .next u ∧
        u.dev.mem.served = s.dev.mem.served ++ [(r.seq, r.requester, [])] ∧ u.dev.mem.cells = s.dev.mem.cells ∧
        r.addr / 64 * 64 ∈ u.dev.mem.badBlocks ∧ tget 0 (r.addr / 64 * 64) u.dev.mem.syndromes = syn))) ∧
  (∀ (s : State) (c : Nat),
    let x := chanAt s.dev c
    (x.reads = [] → x.writes = [] → x.lastUse + 1000 ≤ s.dev.up →
      ∃ u, exec (.dmcPowerDown c) s = .next u ∧ chanAt u.dev c = { x with powerDown := true }) ∧
    (x.reads ≠ [] ∨ x.writes ≠ [] ∨ s.dev.up < x.lastUse + 1000 → exec (.dmcPowerDown c) s = .next (after s s.dev))) ∧
  (∀ (s : State) (c k : Nat),
    let x := chanAt s.dev c
    ∃ u, exec (.refreshDue c k) s = .next u ∧ (∀ j, j ≠ c → chanAt u.dev j = chanAt s.dev j) ∧
      (0 < x.ahead → chanAt u.dev c = { x with ahead := x.ahead - 1 }) ∧
      (x.ahead = 0 → bankBusy s.dev x k = true → (chanAt u.dev c).postponed = x.postponed + 1 ∧
        tget 0 k (chanAt u.dev c).owed = tget 0 k x.owed + 1 ∧ (chanAt u.dev c).open_ = x.open_) ∧
      (x.ahead = 0 → bankBusy s.dev x k = false → (chanAt u.dev c).postponed = x.postponed ∧ tfind k (chanAt u.dev c).open_ = none))

/-- R297, R298, R300–R302, R304, R306. -/
def Obligations.DramUpkeep : Prop :=
  (∀ (s : State) (c v : Nat), ∃ u, exec (.mr4Poll c v) s = .next u ∧ (chanAt u.dev c).mr4 = v ∧
    ((chanAt s.dev c).mr4 + 2 ≤ v ∨ v + 2 ≤ (chanAt s.dev c).mr4 → (chanAt s.dev c).checkDue = none →
      (chanAt u.dev c).checkDue = some s.dev.up) ∧
    (v < (chanAt s.dev c).mr4 + 2 → (chanAt s.dev c).mr4 < v + 2 → (chanAt u.dev c).checkDue = (chanAt s.dev c).checkDue)) ∧
  (∀ (s : State) (n : Nat) (flt : DramFault),
    let p := tget 0 n s.dev.mem.scrubAt
    let a := addrOfLocal s.dev (2 * n + p % 2) (p / 2 * 64)
    (bitsOf (memCfg s.dev) 7 0 = 0 → exec (.scrubRead n flt) s = .next (after s s.dev)) ∧
    (bitsOf (memCfg s.dev) 7 0 ≠ 0 → channelBlocks s.dev ≠ 0 → p / 2 * 64 < usableBytes s.dev / 32 → a ∉ s.dev.mem.badBlocks →
      ∃ u, exec (.scrubRead n flt) s = .next u ∧ tget 0 n u.dev.mem.scrubAt = (p + 1) % (2 * channelBlocks s.dev) ∧
        u.dev.mem.cells = s.dev.mem.cells ∧
        (flt = .none → u.dev.mem.dmcs = s.dev.mem.dmcs ∧ u.dev.mem.badBlocks = s.dev.mem.badBlocks) ∧
        (∀ syn, flt = .single syn → (dmcAt u.dev n).corr = ((dmcAt s.dev n).corr + 1) % 256 ∧ u.dev.mem.badBlocks = s.dev.mem.badBlocks) ∧
        (∀ syn, flt = .double syn → (dmcAt u.dev n).uncorr = ((dmcAt s.dev n).uncorr + 1) % 256 ∧ a ∈ u.dev.mem.badBlocks) ∧
        (flt = .link → (dmcAt u.dev n).uncorr = ((dmcAt s.dev n).uncorr + 1) % 256 ∧ u.dev.mem.badBlocks = s.dev.mem.badBlocks))) ∧
  (∀ (s : State) (c : Nat) (drift failed : Bool),
    let x := chanAt s.dev c
    let urgent := (x.reads ++ x.writes).any (fun r => urgency s.dev r.requester == 3)
    let ended := fun (u : State) => u.dev.mem.cells = s.dev.mem.cells ∧
      (failed = true → (chanAt u.dev c).fails = x.fails + 1 ∧ (chanAt u.dev c).retryAt = some (s.dev.up + 1000000)) ∧
      (failed = false → (chanAt u.dev c).fails = 0 ∧ (chanAt u.dev c).retryAt = none)
    (x.checkDue = none → s.dev.up < x.checkedAt + max 8 (bitsOf (memCfg s.dev) 15 8) * 1000000 →
      exec (.retrainCheck c drift failed) s = .next (after s s.dev)) ∧
    (∀ t, (x.checkDue = some t ∨ (x.checkDue = none ∧ t = x.checkedAt + max 8 (bitsOf (memCfg s.dev) 15 8) * 1000000 ∧ t ≤ s.dev.up)) →
      (urgent = true → s.dev.up < t + 1000000 → ∃ u, exec (.retrainCheck c drift failed) s = .next u ∧
        chanAt u.dev c = { x with checkDue := some t } ∧ u.dev.plumb = s.dev.plumb) ∧
      (urgent = false ∨ t + 1000000 ≤ s.dev.up →
        (drift = false → ∃ u, exec (.retrainCheck c drift failed) s = .next u ∧
          chanAt u.dev c = { x with checkDue := none, checkedAt := s.dev.up }) ∧
        (drift = true → ∃ u, exec (.retrainCheck c drift failed) s = .next u ∧ ended u))) ∧
    (∀ t, x.retryAt = some t → t ≤ s.dev.up → ∃ u, exec (.retrainRetry c failed) s = .next u ∧ ended u) ∧
    (∀ t, x.retryAt = some t → s.dev.up < t → exec (.retrainRetry c failed) s = .next (after s s.dev))) ∧
  (∀ (s : State) (who : Who) (n : Nat), n < 16 → ctlGrant s.dev who (0x4000010 + n * 0x100000) 4 true = true →
    ((dmcAt s.dev n).log = [] → exec (.dmcLogPop who n) s = .next (after s s.dev)) ∧
    (∀ e rest, (dmcAt s.dev n).log = e :: rest → ∃ u, exec (.dmcLogPop who n) s = .next u ∧
      dmcAt u.dev n = { dmcAt s.dev n with log := rest, head := ((dmcAt s.dev n).head + 1) % 16 } ∧
      (∀ k, k ≠ n → dmcAt u.dev k = dmcAt s.dev k))) ∧
  (∀ (s : State) (n base limit : Nat),
    (1 ≤ n → n < 64 → regionOk s.dev n (base &&& 0xC003FFFF) limit = true → ∃ u, exec (.memRegionWrite n base limit) s = .next u ∧
      (regionRegs u.dev n).1 = base &&& 0xC003FFFF ∧ (regionRegs u.dev n).2 % 2 ^ 30 = limit &&& 0x3F03FFFF ∧
      (∀ k, k < 64 → k ≠ n → regionRegs u.dev k = regionRegs s.dev k)) ∧
    (1 ≤ n → n < 64 → regionOk s.dev n (base &&& 0xC003FFFF) limit = false → ∃ u, exec (.memRegionWrite n base limit) s = .next u ∧
      (regionRegs u.dev n).1 = (regionRegs s.dev n).1 ∧ bitOf (regionRegs u.dev n).2 31 = true ∧ u.dev.mem = s.dev.mem) ∧
    exec (.memRegionWrite 0 base limit) s = .next (after s s.dev))

/-- R13, R307–R309, R311. -/
def Obligations.AshlarBanks : Prop :=
  (∀ (s : State) (q ch a b : Nat) (flt : AshFault), flt ≠ .double → regionOf s.dev a = .ashlar b →
    let r : Req := { id := q, ch := ch }
    let good := fun (w : Bool) n => (memCheck s.dev r false w a n).2 = .ok
    let answers := fun (u : State) bs => u.dev.mem.served = s.dev.mem.served ++ [(s.dev.mem.reqSeq, q, bs)]
    let stored := fun (u : State) (bs : List Byte) => (∀ i, i < bs.length → cellAt (a + i) u.dev.mem.cells = bs[i]?) ∧
      (∀ k, k < a ∨ a + bs.length ≤ k → cellAt k u.dev.mem.cells = cellAt k s.dev.mem.cells)
    (∀ n, good false n → ∃ u, exec (.ashlarAccess q ch a (.load n) flt) s = .next u ∧ answers u (bytesAt s.dev a n) ∧
      u.dev.mem.cells = s.dev.mem.cells) ∧
    (∀ bs, good true bs.length → ∃ u, exec (.ashlarAccess q ch a (.store bs) flt) s = .next u ∧ answers u [] ∧ stored u bs) ∧
    (∀ n v c, n = 4 ∨ n = 8 → a % n = 0 → good false n →
      let old := leNat (bytesAt s.dev a n)
      (∃ u, exec (.ashlarAccess q ch a (.add n v) flt) s = .next u ∧ answers u (bytesAt s.dev a n) ∧ stored u (leBytes n (old + v))) ∧
      (∃ u, exec (.ashlarAccess q ch a (.swap n v) flt) s = .next u ∧ answers u (bytesAt s.dev a n) ∧ stored u (leBytes n v)) ∧
      (∃ u, exec (.ashlarAccess q ch a (.cas n c v) flt) s = .next u ∧ answers u (bytesAt s.dev a n) ∧
        stored u (leBytes n (if old = c % 2 ^ (8 * n) then v else old)))) ∧
    (∀ n, 1 ≤ n → a % 0x400000 + n ≤ 0x400000 → ownerAdmits (bankAt s.dev b).owner r = false →
      ∃ u, exec (.ashlarAccess q ch a (.load n) .none) s = .next u ∧ answers u [] ∧ u.dev.mem.viol = (s.dev.mem.viol + 1) % 65536 ∧
        u.dev.mem.violBank = b ∧ u.dev.mem.violReq = q ∧ u.dev.mem.cells = s.dev.mem.cells) ∧
    (∀ bs, 1 ≤ bs.length → a % 0x400000 + bs.length ≤ 0x400000 → ownerAdmits (bankAt s.dev b).owner r = true →
      ((bankAt s.dev b).pending || (bankAt s.dev b).wiping) = true → ∃ u, exec (.ashlarAccess q ch a (.store bs) flt) s = .next u ∧
        (bankAt u.dev b).held = (bankAt s.dev b).held ++ [{ requester := q, ch := ch, addr := a, op := .store bs }] ∧
        u.dev.mem.cells = s.dev.mem.cells ∧ u.dev.mem.served = s.dev.mem.served)) ∧
  (∀ (s : State) (q ch a b n : Nat), regionOf s.dev a = .ashlar b → 1 ≤ n → a % 8 + n ≤ 8 →
    ownerAdmits (bankAt s.dev b).owner { id := q, ch := ch } = true → (bankAt s.dev b).pending = false → (bankAt s.dev b).wiping = false →
    ∃ u, exec (.ashlarAccess q ch a (.load n) .double) s = .next u ∧ u.dev.mem.cells = s.dev.mem.cells ∧
      u.dev.mem.served = s.dev.mem.served ++ [(s.dev.mem.reqSeq, q, [])] ∧ a / 8 * 8 ∈ u.dev.mem.badWords) ∧
  (∀ (s : State) (who : Who) (n : Nat) (v : Word32), n < 32 → ctlGrant s.dev who (0x5000000 + 4 * n) 4 true = true →
    isPf s.dev who = true →
    let b := bankAt s.dev n
    ∃ u, exec (.ashlarOwnerWrite who n v) s = .next u ∧ u.dev.mem.cells = s.dev.mem.cells ∧ (bankAt u.dev n).held = b.held ∧
      (∀ k, k ≠ n → bankAt u.dev k = bankAt s.dev k) ∧
      ((b.pending || b.wiping || !ownerCodeOk (bitsOf v.toNat 7 0)) = true → (bankAt u.dev n).owner = b.owner ∧
        (bankAt u.dev n).err = true ∧ (bankAt u.dev n).pending = b.pending) ∧
      ((b.pending || b.wiping || !ownerCodeOk (bitsOf v.toNat 7 0)) = false → (bankAt u.dev n).owner = bitsOf v.toNat 7 0 ∧
        (bankAt u.dev n).pending = true ∧ (bankAt u.dev n).wipeNext = bitOf v.toNat 8)) ∧
  (∀ (s : State) (n : Nat),
    let b := bankAt s.dev n
    (b.pending = false → exec (.ashlarDrainDone n) s = .next (after s s.dev)) ∧
    (b.pending = true → b.wipeNext = true → ∃ u, exec (.ashlarDrainDone n) s = .next u ∧
      bankAt u.dev n = { b with pending := false, wiping := true, wipeNext := false }) ∧
    (b.pending = true → b.wipeNext = false → b.held = [] → ∃ u, exec (.ashlarDrainDone n) s = .next u ∧
      bankAt u.dev n = { b with pending := false } ∧ u.dev.mem.cells = s.dev.mem.cells) ∧
    (b.wiping = false → exec (.ashlarWipeDone n) s = .next (after s s.dev)) ∧
    (n < 32 → b.wiping = true → b.held = [] → ∃ u, exec (.ashlarWipeDone n) s = .next u ∧ bankAt u.dev n = { b with wiping := false } ∧
      (∀ i, i < 0x400000 → cellAt (0x080000000000 + n * 0x400000 + i) u.dev.mem.cells = some 0) ∧
      (∀ a, a < 0x080000000000 + n * 0x400000 ∨ 0x080000000000 + (n + 1) * 0x400000 ≤ a →
        cellAt a u.dev.mem.cells = cellAt a s.dev.mem.cells))) ∧
  (∀ (s : State) (bad : Option Nat),
    (s.dev.mem.absWiping = false → exec (.absWipeDone bad) s = .next (after s s.dev)) ∧
    (s.dev.mem.absWiping = true → ∃ u, exec (.absWipeDone bad) s = .next u ∧
      u.dev.mem = { s.dev.mem with absWiping := false, absWiped := true } ∧ (bad = none → u.dev.plumb = s.dev.plumb) ∧
      (∀ o, bad = some o → openSlot s.dev 432 = none → s.dev.plumb.recs = [] → ∃ i x, tfind i u.dev.plumb.recs = some x ∧ x.source = 432 ∧
        x.detail = o)))

/-- R16, R303, R312, R315, R317–R322, R401: the Yard as host functions reach it. -/
def Obligations.YardRequests : Prop :=
  (∀ (s : State) (who : Who), ctlGrant s.dev who 0x600000 4 true = true →
    (s.dev.yard.en = true → exec (.yardCtrlEn who) s = .next (after s s.dev)) ∧
    (s.dev.yard.en = false → ∃ u, exec (.yardCtrlEn who) s = .next u ∧ u.dev.yard.bufs = s.dev.yard.bufs ∧
      u.dev.yard.en = yardChecks s.dev ∧ u.dev.yard.err = (s.dev.yard.err || !yardChecks s.dev) ∧ u.dev.regs = s.dev.regs ∧
      (yardChecks s.dev = true → ∀ n, n < 16 → (n ∈ u.dev.yard.low ↔ poolEn s.dev n = true ∧ poolFree s.dev n < poolLow s.dev n)))) ∧
  (∀ (s : State) (f : Nat), ctlGrant s.dev (.host f) 0x600044 4 false = true →
    (∀ i, pickBuf s.dev (yardHost s.dev f).size = some i → ∃ u, exec (.yardAlloc (.host f)) s = .next u ∧
      bufAt u.dev i = { bufAt s.dev i with st := .owned, owner := funcOwner f, gen := nextGen (bufAt s.dev i).gen, epoch := nextEpoch (bufAt s.dev i).epoch, wipe := false } ∧
      (∀ j, j ≠ i → bufAt u.dev j = bufAt s.dev j) ∧ (yardHost u.dev f).op = 1 ∧ (yardHost u.dev f).status = 0 ∧
      sends s u (.hostData f (leBytes 4 (mkHandle i (nextGen (bufAt s.dev i).gen))) false)) ∧
    (pickBuf s.dev (yardHost s.dev f).size = none → ∃ u, exec (.yardAlloc (.host f)) s = .next u ∧ u.dev.yard.bufs = s.dev.yard.bufs ∧
      (yardHost u.dev f).op = 1 ∧ (yardHost u.dev f).status = 0x40 ∧ sends s u (.hostData f (leBytes 4 0) false))) ∧
  (∀ (s : State) (who : Who) (h : Word32),
    let f := whoPage s.dev who
    let i := handleIdx h.toNat
    let b := bufAt s.dev i
    let told := fun (u : State) op st => (yardHost u.dev f).op = op ∧ (yardHost u.dev f).status = st ∧
      (yardHost u.dev f).size = (yardHost s.dev f).size ∧ (∀ k, k ≠ f → yardHost u.dev k = yardHost s.dev k) ∧
      (st ≠ 0 → u.dev.yard.bufs = s.dev.yard.bufs ∧ (s.dev.plumb.recs = [] → reported u 439 h.toNat)) ∧
      (∀ j, j ≠ i → bufAt u.dev j = bufAt s.dev j)
    let lost := fun (u : State) => ∀ c l, (ctxAt s.dev c).load = some l → handleIdx l.handle = i →
      (ctxAt u.dev c).st = .empty ∧ (ctxAt u.dev c).load = none ∧ (ctxAt u.dev c).loadStatus = 0x42
    (ctlGrant s.dev who 0x600048 4 true = true → ∃ u, exec (.yardFree who h) s = .next u ∧
      (handleCurrent s.dev h.toNat = false → told u 2 0x43) ∧
      (handleCurrent s.dev h.toNat = true → b.st = .free ∨ b.st = .held → told u 2 0x41) ∧
      (handleCurrent s.dev h.toNat = true → b.st = .ring ∨ (b.st = .owned ∧ b.owner ≠ funcOwner f) → told u 2 0x42) ∧
      (handleCurrent s.dev h.toNat = true → b.st = .owned → b.owner = funcOwner f → told u 2 0 ∧ lost u ∧
        (loadersOf s.dev i = [] → (bufAt u.dev i).gen = b.gen ∧ (bufAt u.dev i).st = (if b.holds = 0 then .free else .held) ∧
          (b.holds = 0 → ∀ a, bufBase s.dev i ≤ a → a < bufBase s.dev i + bufSize s.dev i → cellAt a u.dev.mem.cells = unlisted a)))) ∧
    (ctlGrant s.dev who 0x60004C 4 true = true → ∃ u, exec (.yardXfer who h) s = .next u ∧
      (handleCurrent s.dev h.toNat = false → told u 3 0x43) ∧
      (handleCurrent s.dev h.toNat = true → b.st ≠ .owned ∨ b.owner ≠ funcOwner f ∨ ownerOk (yardHost s.dev f).xferOwner = false → told u 3 0x42) ∧
      (handleCurrent s.dev h.toNat = true → b.st = .owned → b.owner = funcOwner f → ownerOk (yardHost s.dev f).xferOwner = true →
        told u 3 0 ∧ ((yardHost s.dev f).xferOwner ≠ funcOwner f → lost u) ∧
        (loadersOf s.dev i = [] → bufAt u.dev i = { b with owner := (yardHost s.dev f).xferOwner })))) ∧
  (∀ (s : State) (who : Who) (n : Nat) (v : Word32), n < 16 → ctlGrant s.dev who (0x60010C + 16 * n) 4 true = true →
    ∃ u, exec (.yardLowWaterWrite who n v) s = .next u ∧ poolLow u.dev n = v.toNat % 2 ^ 21 ∧ u.dev.yard.bufs = s.dev.yard.bufs ∧
      (n ∈ u.dev.yard.low ↔ s.dev.yard.en = true ∧ poolEn s.dev n = true ∧ poolFree s.dev n < v.toNat % 2 ^ 21) ∧
      (∀ k, k ≠ n → (k ∈ u.dev.yard.low ↔ k ∈ s.dev.yard.low)) ∧
      (n ∉ s.dev.yard.low → n ∈ u.dev.yard.low → intcLost s.dev (96 + n) = false → 96 + n ∈ u.dev.intc.latch)) ∧
  (∀ (s : State) (f off a : Nat), funcOn s.dev f = true → funcBusy s.dev f = false → apertureAddr s.dev f off = some a →
    regionOf s.dev a ≠ .unmapped →
    (windowOk s.dev (funcOwner f) a = true →
      (∀ n, (memCheck s.dev (reqOf 41) false false a n).2 = .ok → ∃ u, exec (.hostBar2Access f off n none) s = .next u ∧
        sends s u (.hostData f (bytesAt s.dev a n) false) ∧ u.dev.mem.cells = s.dev.mem.cells ∧ u.dev.yard = s.dev.yard) ∧
      (∀ n bs, (memCheck s.dev (reqOf 41) false true a bs.length).2 = .ok → ∃ u, exec (.hostBar2Access f off n (some bs)) s = .next u ∧
        (∀ i, i < bs.length → cellAt (a + i) u.dev.mem.cells = bs[i]?) ∧
        (∀ k, k < a ∨ a + bs.length ≤ k → cellAt k u.dev.mem.cells = cellAt k s.dev.mem.cells) ∧ u.dev.yard = s.dev.yard)) ∧
    (windowOk s.dev (funcOwner f) a = false → ∀ n data, ∃ u, exec (.hostBar2Access f off n data) s = .next u ∧ u.dev.mem = s.dev.mem ∧
      u.dev.yard.winCount = (s.dev.yard.winCount + 1) % 65536 ∧ u.dev.yard.winAddr = a ∧ u.dev.yard.winWho = f ∧
      u.dev.yard.winHolt = false ∧ u.dev.yard.winWrite = data.isSome ∧ (data = none → sends s u (.hostData f (List.replicate n 0) true))))

/-- R325, R326, R330: the control of a ring. -/
def Obligations.RingControl : Prop :=
  ∀ (s : State) (who : Who) (n : Nat) (v : Word32), n < 8192 → ctlGrant s.dev who (0x710004 + 32 * n) 4 true = true →
    let x := ringAt s.dev n
    let f := whoPage s.dev who
    let log := bitsOf v.toNat 28 24
    let fields := fun (y : Ring) => y.irqEn = bitOf v.toNat 29 ∧ y.cut = bitsOf v.toNat 23 16 ∧ y.vec = bitsOf v.toNat 6 0 ∧
      y.producer = x.producer ∧ y.consumer = x.consumer ∧ y.store = x.store
    let others := fun (u : State) => ∀ k, k ≠ n → ringAt u.dev k = ringAt s.dev k
    (isAdmin s.dev who = true → x.en = false →
      (ringEnOk s.dev n f log = true → ∃ u, exec (.ringEnable who n v) s = .next u ∧ fields (ringAt u.dev n) ∧ others u ∧
        (ringAt u.dev n).en = true ∧ (ringAt u.dev n).sizeLog2 = log ∧ (ringAt u.dev n).entries = [] ∧
        (ringAt u.dev n).phase = true ∧
        (loadersOf s.dev (handleIdx x.store) = [] →
          bufAt u.dev (handleIdx x.store) = { bufAt s.dev (handleIdx x.store) with st := .ring })) ∧
      (ringEnOk s.dev n f log = false → ∃ u, exec (.ringEnable who n v) s = .next u ∧ fields (ringAt u.dev n) ∧ others u ∧
        (ringAt u.dev n).en = false ∧ (ringAt u.dev n).err = true ∧ u.dev.yard = s.dev.yard) ∧
      (∃ u, exec (.ringDisable who n v) s = .next u ∧ fields (ringAt u.dev n) ∧ others u ∧ (ringAt u.dev n).en = false ∧
        (ringAt u.dev n).sizeLog2 = log ∧ u.dev.yard = s.dev.yard)) ∧
    (isAdmin s.dev who = true → x.en = true →
      (∃ u, exec (.ringEnable who n v) s = .next u ∧ fields (ringAt u.dev n) ∧ others u ∧ (ringAt u.dev n).en = true ∧
        (ringAt u.dev n).sizeLog2 = x.sizeLog2 ∧ (x.hostWait = [] → (ringAt u.dev n).entries = x.entries) ∧
        (ringAt u.dev n).err = (x.err || log != x.sizeLog2) ∧ u.dev.yard = s.dev.yard) ∧
      (∃ u, exec (.ringDisable who n v) s = .next u ∧ fields (ringAt u.dev n) ∧ others u ∧ (ringAt u.dev n).en = false ∧
        (ringAt u.dev n).entries = [] ∧ (x.hostWait ≠ [] → sends s u (.hostData (x.consumer - 0x8000) resetToken false)) ∧
        (x.producer ≠ 0xC001 → bufAt u.dev (handleIdx x.store) = { bufAt s.dev (handleIdx x.store) with st := .owned, owner := funcOwner f }))) ∧
    (x.en = true → isAdmin s.dev who = false ∨ bitOf v.toNat 31 = true → ∃ u, exec (.ringReset who n v) s = .next u ∧ others u ∧
      let y := ringAt u.dev n
      y.en = true ∧ y.entries = [] ∧ y.rd = 0 ∧ y.wr = 0 ∧ y.sound = true ∧ y.sizeLog2 = x.sizeLog2 ∧ y.producer = x.producer ∧
        y.consumer = x.consumer ∧ y.store = x.store ∧ y.hostWait = x.hostWait.tail ∧ (isCtx x.producer = true → y.noticeP = true) ∧
        (isCtx x.consumer = true → y.noticeC = true) ∧ (isHost x.producer = true → y.resetP = true) ∧
        (isHost x.consumer = true → y.resetC = true ∧ (x.hostWait = [] → y.token = true)) ∧
        (x.hostWait ≠ [] → sends s u (.hostData (x.consumer - 0x8000) resetToken false)) ∧
        u.dev.ringResets = (s.dev.ringResets + 1) % 65536 ∧ u.dev.ringLast = n) ∧
    (∃ u, exec (.ringRefill n) s = .next u ∧ others u ∧ (ringAt u.dev n).entries = x.entries ∧ (ringAt u.dev n).rd = x.rd ∧
      (ringAt u.dev n).wr = x.wr ∧ (x.head + x.tail ≤ x.entries.length → x.head ≤ 8 → x.tail ≤ 8 → (ringAt u.dev n).head = min 8 x.entries.length))

/-- R328, R329: ring slots in BAR4. -/
def Obligations.HostRingAccess : Prop :=
  (∀ (s : State) (f n : Nat) (data : List Byte),
    let x := ringAt s.dev n
    let may := n < 4096 ∧ x.en = true ∧ x.producer = funcOwner f ∧ funcOn s.dev f = true ∧ funcBusy s.dev f = false ∧ data.length = 32
    let pushed := fun (u : State) sop eop =>
      (ringAt u.dev n).entries = x.entries ++ [{ data := data, sop := sop, eop := eop }] ∧ (ringAt u.dev n).drop = x.drop ∧
        (∀ k, k ≠ n → ringAt u.dev k = ringAt s.dev k)
    (may → x.sound = true → x.entries.length < x.size → x.hostWait = [] →
      (∃ u, exec (.hostPushSopEop f n data) s = .next u ∧ pushed u true true) ∧
      (∃ u, exec (.hostPushSop f n data) s = .next u ∧ pushed u true false) ∧
      (∃ u, exec (.hostPushMid f n data) s = .next u ∧ pushed u false false) ∧
      (∃ u, exec (.hostPushEop f n data) s = .next u ∧ pushed u false true)) ∧
    (¬ may ∨ (x.sound = true ∧ x.size ≤ x.entries.length) →
      ∀ i ∈ [Instr.hostPushSopEop f n data, .hostPushSop f n data, .hostPushMid f n data, .hostPushEop f n data],
        ∃ u, exec i s = .next u ∧ ringAt u.dev n = { x with drop := (x.drop + 1) % 256 } ∧
          (∀ k, k ≠ n → ringAt u.dev k = ringAt s.dev k) ∧ u.dev.mem = s.dev.mem ∧ u.dev.ringLost = s.dev.ringLost)) ∧
  (∀ (s : State) (f n size : Nat),
    let x := ringAt s.dev n
    let may := n < 4096 ∧ x.en = true ∧ x.consumer = funcOwner f ∧ funcOn s.dev f = true ∧ funcBusy s.dev f = false ∧ size = 32
    (may → x.sound = true →
      (x.token = true → ∃ u, exec (.hostPop f n size) s = .next u ∧ ringAt u.dev n = { x with token := false } ∧
        sends s u (.hostData f resetToken false)) ∧
      (∀ e, x.token = false → x.front = some e → ∃ u, exec (.hostPop f n size) s = .next u ∧ (ringAt u.dev n).entries = x.entries.tail ∧
        (ringAt u.dev n).lastSop = e.sop ∧ (ringAt u.dev n).lastEop = e.eop ∧ sends s u (.hostData f e.data false)) ∧
      (x.token = false → x.front = none → ∃ u, exec (.hostPop f n size) s = .next u ∧
        ringAt u.dev n = { x with hostWait := x.hostWait ++ [s.dev.up + min 10000 (bitsOf (reg s.dev 0x700000 2000) 15 0)] })) ∧
    (¬ may → ∃ u, exec (.hostPop f n size) s = .next u ∧ u.dev.rings = s.dev.rings ∧
      sends s u (.hostData f (List.replicate size 0) false)) ∧
    (∀ t more, x.hostWait = t :: more →
      (t ≤ s.dev.up → ∃ u, exec (.hostPopTimeout n) s = .next u ∧ ringAt u.dev n = { x with hostWait := more } ∧
        sends s u (.hostData (x.consumer - 0x8000) emptyToken false)) ∧
      ((∀ k ∈ x.hostWait, s.dev.up < k) → exec (.hostPopTimeout n) s = .next (after s s.dev))) ∧
    (n < 4096 → x.en = true → x.producer = funcOwner f ∨ x.consumer = funcOwner f → funcOn s.dev f = true → funcBusy s.dev f = false →
      x.entries.length < 2 ^ 21 → ∃ u v, exec (.hostRingStatusRead f n) s = .next u ∧ sends s u (.hostData f (leBytes 4 v) false) ∧
        bitsOf v 20 0 = x.entries.length ∧ bitOf v 24 = x.lastSop ∧ bitOf v 25 = x.lastEop ∧
        bitOf v 26 = ((x.producer == funcOwner f && x.resetP) || (x.consumer == funcOwner f && x.resetC)) ∧
        (x.producer = funcOwner f → (ringAt u.dev n).resetP = false) ∧ (x.consumer = funcOwner f → (ringAt u.dev n).resetC = false) ∧
        (x.producer ≠ funcOwner f → (ringAt u.dev n).resetP = x.resetP) ∧ (ringAt u.dev n).entries = x.entries) ∧
    (x.producer ≠ funcOwner f → x.consumer ≠ funcOwner f → ∃ u, exec (.hostRingStatusRead f n) s = .next u ∧ u.dev.rings = s.dev.rings ∧
      sends s u (.hostData f (leBytes 4 0) false)))

/-- R335–R341, R343, R345: the life of a descriptor. -/
def Obligations.DmaChannels : Prop :=
  (∀ (s : State) (c : Nat),
    let x := dmaAt s.dev c
    (x.st = .idle → dmaNext s.dev c = none → exec (.dmaDescFetch c) s = .next (after s s.dev)) ∧
    (∀ w, x.st = .idle → dmaNext s.dev c = some w → ∃ u, exec (.dmaDescFetch c) s = .next u ∧
      (dmaAt u.dev c = DmaChan.reset ∨ ((dmaAt u.dev c).st = .run ∧ (dmaAt u.dev c).ticket = w.ticket ∧ (dmaAt u.dev c).pend = false ∧
        (dmaAt u.dev c).desc = woField w 72 8 ∧ (dmaAt u.dev c).done = 0)) ∧ (∀ k, k ≠ c → dmaAt u.dev k = dmaAt s.dev k)) ∧
    (∀ w b, x.st = .run → x.fetched = false → woAt s.dev x.ticket = some w → (chainRead s.dev c w.ctx x.desc 64).2 = (.ok, b) →
      (dmaDescStatus s.dev c w b = 0 → ∃ u, exec (.dmaDescFetch c) s = .next u ∧ dmaAt u.dev c = { x with fetched := true } ∧
        woAt u.dev x.ticket = some { w with holds := w.holds ++ (dmaHandles b).map handleIdx, result := b } ∧ u.dev.recs = s.dev.recs ∧
        (∀ i, i ∈ (dmaHandles b).map handleIdx → (bufAt s.dev i).holds < (bufAt u.dev i).holds) ∧ u.dev.mem = s.dev.mem) ∧
      (dmaDescStatus s.dev c w b ≠ 0 → w.phase = .running → funcBusy s.dev w.func = false → ∃ u, exec (.dmaDescFetch c) s = .next u ∧
        dmaAt u.dev c = DmaChan.reset ∧ endedWith s u x.ticket (dmaDescStatus s.dev c w b) ∧ u.dev.yard = s.dev.yard))) ∧
  (∀ (s : State) (c : Nat) (host : List Byte) (w : WorkOrder),
    let x := dmaAt s.dev c
    let b := w.result
    let r := dmaTransfer s.dev c w.func b host (dmaBytes b)
    woAt s.dev x.ticket = some w → w.phase = .running → funcBusy s.dev w.func = false → x.st = .run → x.fetched = true → r.held = false →
    (∀ n, r.fail = some n → ∃ u q, exec (.dmaDescComplete c host) s = .next u ∧ dmaAt u.dev c = DmaChan.reset ∧
      q ∈ u.dev.recs ∧ q.ticket = x.ticket ∧
      (n ≠ 0 → r.written + n = dmaBytes b → endedWith s u x.ticket 0x21 ∧ fieldAt q.data 24 4 = 0) ∧
      (n = 0 ∨ r.written + n ≠ dmaBytes b → endedWith s u x.ticket 0x20 ∧
        fieldAt q.data 24 4 = min 0xFFFFFFFF (dmaResidue b r.written))) ∧
    (r.fail = none → bitOf (fieldAt b 1 1) 1 = true → bitOf (fieldAt b 1 1) 0 = false → ∃ u, exec (.dmaDescComplete c host) s = .next u ∧
      dmaAt u.dev c = DmaChan.reset ∧ endedWith s u x.ticket 0 ∧
      (dmaOp b = 0 → (dmaSrc b).kind < 2 → (dmaDst b).kind < 2 → dmaSame (dmaSrc b) (dmaDst b) = false →
        (dmaAddr s.dev (dmaSrc b) 0 + dmaLen b ≤ dmaAddr s.dev (dmaDst b) 0 ∨ dmaAddr s.dev (dmaDst b) 0 + dmaLen b ≤ dmaAddr s.dev (dmaSrc b) 0) →
          (∀ i, i < dmaLen b → cellAt (dmaAddr s.dev (dmaDst b) i) u.dev.mem.cells = some (byteAt s.dev (dmaAddr s.dev (dmaSrc b) i))) ∧
          (∀ a, a < dmaAddr s.dev (dmaDst b) 0 ∨ dmaAddr s.dev (dmaDst b) 0 + dmaLen b ≤ a →
            cellAt a u.dev.mem.cells = cellAt a s.dev.mem.cells)))) ∧
  (∀ (s : State) (who : Who) (c : Nat), c < 64 → ctlGrant s.dev who (0x800108 + 16 * c) 4 true = true →
    let x := dmaAt s.dev c
    (x.st = .idle → exec (.dmaDbell who c) s = .next (after s s.dev)) ∧
    (x.st = .run → ∃ u, exec (.dmaDbell who c) s = .next u ∧ dmaAt u.dev c = { x with pend := true } ∧ u.dev.mem = s.dev.mem) ∧
    (∀ w b, x.st = .parked → woAt s.dev x.ticket = some w → (chainRead s.dev c w.ctx (x.desc + 56) 8).2 = (.ok, b) →
      (∀ o, dmaLinkOf (leNat b) = .next o → ∃ u, exec (.dmaDbell who c) s = .next u ∧
        dmaAt u.dev c = { x with st := .run, desc := o, fetched := false } ∧ u.dev.recs = s.dev.recs) ∧
      (dmaLinkOf (leNat b) = .stop → dmaPark w = true → ∃ u, exec (.dmaDbell who c) s = .next u ∧
        dmaAt u.dev c = { x with fetched := false, pend := false } ∧ u.dev.recs = s.dev.recs) ∧
      (dmaLinkOf (leNat b) = .bad → w.phase = .running → funcBusy s.dev w.func = false → ∃ u, exec (.dmaDbell who c) s = .next u ∧
        dmaAt u.dev c = DmaChan.reset ∧ endedWith s u x.ticket 0x31)))

/-- R347–R350, R352, R353, R355, R359: the switch. -/
def Obligations.SwitchForwarding : Prop :=
  (∀ (s : State) (p q : Nat) (data : List Byte), p < 4 →
    let c := classOf s.dev p data
    let n := (data.length + 4 + 255) / 256
    let ports := fwdPorts s.dev data
    (∃ u, exec (.swFrameRx p data false) s = .next u ∧ (swAt u.dev p).rx = ((swAt s.dev p).rx + 1) % 256 ∧ u.dev.sw.frames = s.dev.sw.frames ∧
      u.dev.sw.queues = s.dev.sw.queues) ∧
    (9216 < data.length + 4 ∨ freeCells s.dev < n → ∃ u, exec (.swFrameRx p data true) s = .next u ∧
      (swAt u.dev p).rx = ((swAt s.dev p).rx + 1) % 256 ∧ u.dev.sw.frames = s.dev.sw.frames) ∧
    (frameIdsOk s.dev = true → data.length + 4 ≤ 9216 → n ≤ freeCells s.dev → c < 8 → swMode s.dev c ≠ 2 →
      [0, 1, 2, 3, 4, 5, 7].filter (fun k => bitOf ports k && k != p) = [q] → q ≠ 7 → (swAt s.dev q).st ≠ .down →
      (depth s.dev q c + n ≤ admitLimit s.dev c (freeCells s.dev - n) → ∃ u f e, exec (.swFrameRx p data true) s = .next u ∧
        frameAt u.dev s.dev.sw.nextId = some f ∧ f.data = data ∧ f.port = p ∧ f.cls = c ∧ f.rxTime = s.dev.time ∧
        queueAt u.dev q c = queueAt s.dev q c ++ [e] ∧ e.frame = s.dev.sw.nextId ∧ e.time = s.dev.time ∧ e.dead = false ∧
        e.ce = (swMode s.dev c == 1 && decide (bitsOf (swClassThr s.dev c) 31 16 ≤ depth s.dev q c) && isEct data) ∧
        u.dev.sw.nextId = s.dev.sw.nextId + 1 ∧ (∀ i j, j < 8 → (i ≠ q ∨ j ≠ c) → queueAt u.dev i j = queueAt s.dev i j) ∧
        (∀ k, k ≠ s.dev.sw.nextId → frameAt u.dev k = frameAt s.dev k)) ∧
      (admitLimit s.dev c (freeCells s.dev - n) < depth s.dev q c + n → ∃ u, exec (.swFrameRx p data true) s = .next u ∧
        (swAt u.dev q).admits = ((swAt s.dev q).admits + 1) % 256 ∧ u.dev.sw.queues = s.dev.sw.queues ∧
        (∀ k, frameAt u.dev k = frameAt s.dev k)))) ∧
  (∀ (s : State) (p c t : Nat), tfind c (swAt s.dev p).repeatAt = some t → bitOf (swAt s.dev p).xoff c = true →
    (t ≤ s.dev.up → ∃ u, exec (.pfcRepeat p c) s = .next u ∧ sends s u (.pfc p c 0xFFFF) ∧
      tfind c (swAt u.dev p).repeatAt = some (t + 160000) ∧ (swAt u.dev p).xoff = (swAt s.dev p).xoff) ∧
    (s.dev.up < t → exec (.pfcRepeat p c) s = .next (after s s.dev))) ∧
  (∀ (s : State) (p enable : Nat) (quanta : List Nat), p < 6 →
    (bitOf (swPortCfg s.dev p) 30 = true → ∃ u, exec (.pfcRx p enable quanta) s = .next u ∧
      (∀ c, c < 8 → tfind c (swAt u.dev p).paused =
        if bitOf enable c then
          (if (quanta[c]?).getD 0 % 65536 = 0 then none
           else some (s.dev.up + ((quanta[c]?).getD 0 % 65536 * 512 + portGbps s.dev p - 1) / portGbps s.dev p))
        else tfind c (swAt s.dev p).paused) ∧
      (∀ k, k ≠ p → swAt u.dev k = swAt s.dev k) ∧ u.dev.sw.queues = s.dev.sw.queues) ∧
    (bitOf (swPortCfg s.dev p) 30 = false → exec (.pfcRx p enable quanta) s = .next (after s s.dev))) ∧
  (∀ (s : State) (p c t : Nat), tfind c (swAt s.dev p).paused = some t →
    (t ≤ s.dev.up → ∃ u, exec (.pfcPauseExpire p c) s = .next u ∧ tfind c (swAt u.dev p).paused = none ∧
      (∀ k, k ≠ c → tfind k (swAt u.dev p).paused = tfind k (swAt s.dev p).paused)) ∧
    (s.dev.up < t → exec (.pfcPauseExpire p c) s = .next (after s s.dev))) ∧
  (∀ (s : State) (p : Nat),
    let flushed := fun (u : State) => (swAt u.dev p).st = .down ∧ (∀ c, c < 8 → queueAt u.dev p c = []) ∧
      (∀ k c, k ≠ p → c < 8 → queueAt u.dev k c = queueAt s.dev k c)
    ((swAt s.dev p).st = .hold → (swAt s.dev p).holdAt ≤ s.dev.up → ∃ u, exec (.holdExpire p) s = .next u ∧ flushed u) ∧
    ((swAt s.dev p).st ≠ .hold ∨ s.dev.up < (swAt s.dev p).holdAt → exec (.holdExpire p) s = .next (after s s.dev)) ∧
    (p < 4 → (ethPort s.dev p).link = true → (swAt s.dev p).st = .up →
      (holdNs s.dev p = 0 → ∃ u, exec (.swLinkDown p) s = .next u ∧ flushed u ∧ (ethPort u.dev p).link = false) ∧
      (holdNs s.dev p ≠ 0 → ∃ u, exec (.swLinkDown p) s = .next u ∧ (swAt u.dev p).st = .hold ∧
        (swAt u.dev p).holdAt = s.dev.up + holdNs s.dev p ∧ (swAt u.dev p).paused = [] ∧ u.dev.sw.queues = s.dev.sw.queues ∧
        (ethPort u.dev p).downs = ((ethPort s.dev p).downs + 1) % 256)) ∧
    (p < 4 → (ethPort s.dev p).link = false → exec (.swLinkDown p) s = .next (after s s.dev)) ∧
    (p < 4 → bitOf (ethPortCfg s.dev p) 31 = true → ∃ u, exec (.swLinkUp p) s = .next u ∧ (swAt u.dev p).st = .up ∧
      (ethPort u.dev p).link = true ∧ (ethPort u.dev p).mode = bitsOf (ethPortCfg s.dev p) 30 28))

/-- The premise of SwitchForwarding on frame numbers, kept by every command. -/
def Obligations.FrameNumbersKept : Prop :=
  ∀ (s t : State), frameIdsOk s.dev = true → step s = .next t → frameIdsOk t.dev = true

/-- R352, R377–R383: egress. -/
def Obligations.EgressScheduling : Prop :=
  (∀ (s : State) (p : Nat), p < 4 → (swAt s.dev p).st = .up → noAging s.dev = true →
    ((∀ c, c < 8 → classReady s.dev p c = false) → exec (.egressFrameStart p) s = .next (after s s.dev)) ∧
    (∀ c q r f, c < 8 → classReady s.dev p c = true → (∀ k, c < k → k < 8 → classReady s.dev p k = false) →
      queueAt s.dev p c = q :: r → frameAt s.dev q.frame = some f → f.ticket = none →
      ∃ u, exec (.egressFrameStart p) s = .next u ∧ sends s u (.frame p (frameOut s.dev p f q.ce)) ∧ queueAt u.dev p c = r ∧
        (∀ i j, j < 8 → (i ≠ p ∨ j ≠ c) → queueAt u.dev i j = queueAt s.dev i j) ∧
        tokens u.dev p c = (if shapeRate s.dev p c = 0 then 0
          else tokens s.dev p c - (((frameOut s.dev p f q.ce).length + 4 + shapeOverhead s.dev p c) * 8000 : Nat)))) ∧
  (∀ (s : State),
    (s.dev.up < s.dev.eth.tickAt → exec .shaperTick s = .next (after s s.dev)) ∧
    (s.dev.eth.tickAt ≤ s.dev.up → ∃ u, exec .shaperTick s = .next u ∧ u.dev.eth.tickAt = s.dev.eth.tickAt + 1000 ∧
      ∀ p c, p < 6 → c < 8 → tokens u.dev p c =
        if shapeRate s.dev p c = 0 then 0
        else
          let full : Int := min (tokens s.dev p c + shapeRate s.dev p c) (max 64 (bitsOf (shapeCfg s.dev p c) 15 0) * 8000 : Nat)
          if queueAt s.dev p c = [] then min full 0 else full)) ∧
  (∀ (s : State), bitOf (reg s.dev 0xA00140 100) 31 = false →
    (s.dev.up < s.dev.eth.sampleAt → exec .queueSample s = .next (after s s.dev)) ∧
    (s.dev.eth.sampleAt ≤ s.dev.up → ∃ u, exec .queueSample s = .next u ∧
      u.dev.eth.sampleAt = s.dev.up + max 10 (bitsOf (reg s.dev 0xA00140 100) 15 0) * 1000 ∧ u.dev.rings = s.dev.rings ∧
      ∀ p c, p < 6 → c < 8 →
        let h := tget (0, 0) (p * 8 + c) s.dev.eth.hwm
        tget (0, 0) (p * 8 + c) u.dev.eth.hwm = (max h.1 (min 65535 (depth s.dev p c)), max h.2 (min 65535 (headAge s.dev p c / 1000))))) ∧
  (∀ (s : State) (who : Who) (p : Nat) (v : Word32), p < 6 → ctlGrant s.dev who (0xA02000 + 0x100 * p) 4 true = true →
    let g := gateAt s.dev p
    let len := bitsOf v.toNat 8 0
    let cyc := gateCycle s.dev p
    let base := reg s.dev (0xA02008 + p * 0x100) 0 + 2 ^ 32 * reg s.dev (0xA0200C + p * 0x100) 0
    let good := 1 ≤ len ∧ len ≤ 256 ∧ 1000 ≤ cyc ∧ cyc ≤ 1000000000 ∧ (∀ i, i < len → 64 ≤ (adminEntry s.dev p i).1)
    (g.pending = false → good → ∃ u h, exec (.gateChange who p v) s = .next u ∧ gateAt u.dev p = h ∧ h.pending = true ∧
      h.next = (upto 0 len).map (adminEntry s.dev p) ∧ h.nextCycle = cyc ∧ h.oper = g.oper ∧ h.entry = g.entry ∧
      (∃ k, h.startReg = base + k * cyc ∧ s.dev.time + 2000 ≤ h.startReg ∧ (∀ j, j < k → base + j * cyc < s.dev.time + 2000) ∧
        h.late = (g.late || decide (k ≠ 0)))) ∧
    (g.pending = true ∨ ¬ good → ∃ u, exec (.gateChange who p v) s = .next u ∧ gateAt u.dev p = { g with err := true } ∧
      u.dev.regs = s.dev.regs)) ∧
  (∀ (s : State) (p : Nat),
    let g := gateAt s.dev p
    (g.pending = true → g.startReg ≤ s.dev.time → g.next ≠ [] → ∃ u h, exec (.gateListStart p) s = .next u ∧ gateAt u.dev p = h ∧
      h.pending = false ∧ h.oper = g.next ∧ h.cycle = g.nextCycle ∧ h.start = g.startReg ∧
      (g.startReg = s.dev.time → 0 < (g.next.map (·.1)).headD 0 → h.entry = 0)) ∧
    (g.pending = false ∨ s.dev.time < g.startReg → exec (.gateListStart p) s = .next (after s s.dev)) ∧
    (∃ u, exec (.gateEntryAdvance p) s = .next u ∧ gateAt u.dev p = { g with entry := gatePos g s.dev.time } ∧
      (∀ k, k ≠ p → gateAt u.dev k = gateAt s.dev k)))

/-- R362, R364, R367, R368, R371, R372, R380, R390. -/
def Obligations.NetworkReceiveAndSend : Prop :=
  (∀ (s : State) (c : Nat) (q : QEnt) (rest : List QEnt) (f : Frame), c < 8 → noAging s.dev = true → queueAt s.dev 7 c = q :: rest →
    frameAt s.dev q.frame = some f → q.ce = false → q.dead = false → flowFor s.dev f = none → f.ticket = none →
    (bitOf (reg s.dev 0xA00120 0) 31 = false → ∃ u, exec (.rxDeliver c) s = .next u ∧ queueAt u.dev 7 c = rest ∧
      (swAt u.dev 7).down = ((swAt s.dev 7).down + 1) % 256 ∧ u.dev.rings = s.dev.rings) ∧
    (bitOf (reg s.dev 0xA00120 0) 31 = true →
      let n := bitsOf (reg s.dev 0xA00120 0) 12 0
      let x := ringAt s.dev n
      unitRing s.dev n = true → x.sound = true → x.hostWait = [] → (f.data.length + 31) / 32 + 1 ≤ x.room →
        ∃ u hd es, exec (.rxDeliver c) s = .next u ∧ queueAt u.dev 7 c = rest ∧ (ringAt u.dev n).entries = x.entries ++ hd :: es ∧
          hd.sop = true ∧ fieldAt hd.data 0 2 = f.data.length % 65536 ∧ fieldAt hd.data 4 2 = 0xFFFF ∧
          fieldAt hd.data 8 8 = f.rxTime % 2 ^ 64 ∧ (es.flatMap (·.data)).take f.data.length = f.data ∧
          es.length = (f.data.length + 31) / 32)) ∧
  (∀ (s : State) (t : Nat) (w : WorkOrder) (x : NetTx), woAt s.dev t = some w → tfind t s.dev.eth.nettx = some x → w.phase = .running →
    w.ticket = t →
    (∀ f, x.pend = [f] → sourcePaused s.dev 6 f.cls = true → exec (.nettxPacket t) s = .next (after s s.dev)) ∧
    (∀ f, x.pend = [f] → sourcePaused s.dev 6 f.cls = false → f.ticket = some t → ∃ u y, exec (.nettxPacket t) s = .next u ∧
      tfind t u.dev.eth.nettx = some y ∧ y.pend = [] ∧ y.taken = x.taken) ∧
    (∀ h mid lst f, x.pend = [] → woField w 64 1 = 0 →
      let r := ringAt s.dev x.ring
      r.en = true → r.consumer = ctxOwner w.ctx → r.sound = true → sourcePaused s.dev 6 (woField w 65 1) = false →
      r.entries = { data := h, sop := true, eop := false } :: mid.map (fun b => { data := b, sop := false, eop := false }) ++
        [{ data := lst, sop := false, eop := true }] → rawFrame w h (mid ++ [lst]) = some f →
        ∃ u y, exec (.nettxPacket t) s = .next u ∧ tfind t u.dev.eth.nettx = some y ∧ y.taken = satAdd 0xFFFFFFFF x.taken 1 ∧
          y.part = [] ∧ y.pend = [] ∧ (ringAt u.dev x.ring).entries = [])) ∧
  (∀ (s : State) (who : Who) (p : Nat) (v : Word32), p < 4 → ctlGrant s.dev who (0xA00000 + 16 * p) 4 true = true →
    (ethModeOk (bitsOf v.toNat 30 28) (bitsOf v.toNat 27 26) = true → ∃ u, exec (.ethPortCfgWrite who p v) s = .next u ∧
      ethPortCfg u.dev p = v.toNat &&& 0xFE000000 ∧ (ethPort u.dev p).cfgErr = (ethPort s.dev p).cfgErr ∧
      (ethPort u.dev p).link = ((ethPort s.dev p).link && bitOf v.toNat 31)) ∧
    (ethModeOk (bitsOf v.toNat 30 28) (bitsOf v.toNat 27 26) = false → ∃ u, exec (.ethPortCfgWrite who p v) s = .next u ∧
      u.dev.regs = s.dev.regs ∧ ethPort u.dev p = { ethPort s.dev p with cfgErr := true })) ∧
  (∀ (s : State) (who : Who) (v : Word), ctlGrant s.dev who 0xA00100 8 true = true →
    (bondRole s.dev ≠ 2 → ∃ u, exec (.ethTimeStep who v) s = .next u ∧ (u.dev.time : Int) = ((s.dev.time : Int) + v.toInt) % 2 ^ 64 ∧
      u.dev.up = s.dev.up) ∧
    (bondRole s.dev = 2 → ∃ u, exec (.ethTimeStep who v) s = .next u ∧ u.dev.time = s.dev.time ∧ u.dev.bond.extErr = true)) ∧
  (∀ (s : State) (who : Who) (v : Word32), ctlGrant s.dev who 0xA00108 4 true = true →
    (bondRole s.dev ≠ 2 → ∃ u, exec (.ethTimeRate who v) s = .next u ∧ reg u.dev 0xA00108 0 = v.toNat ∧
      ethRate u.dev = max (-549755814) (min 549755814 v.toInt) ∧ u.dev.time = s.dev.time) ∧
    (bondRole s.dev = 2 → ∃ u, exec (.ethTimeRate who v) s = .next u ∧ u.dev.regs = s.dev.regs ∧ u.dev.bond.extErr = true)) ∧
  (∀ (s : State) (f p c : Nat), p < 6 → c < 8 → ctlGrant s.dev (.host f) (0xA01008 + 0x100 * p + 16 * c) 4 false = true →
    let h := tget (0, 0) (p * 8 + c) s.dev.eth.hwm
    ∃ u, exec (.ethQhwmRead (.host f) p c) s = .next u ∧ sends s u (.hostData f (leBytes 4 (h.1 * 65536 + h.2)) false) ∧
      tget (0, 0) (p * 8 + c) u.dev.eth.hwm = (0, 0) ∧
      (∀ k, k ≠ p * 8 + c → tget (0, 0) k u.dev.eth.hwm = tget (0, 0) k s.dev.eth.hwm))

/-- R384, R385, R387, R389, R390, R393–R396. -/
def Obligations.BondFrames : Prop :=
  (∀ (s : State) (n : Nat) (f : List Byte), n < 2 → bondUp s.dev n = true → beAt f 12 2 = 0x88B5 →
    (bfMine s.dev f = true → bfOk f = false → ∃ u, exec (.bondSyncRx n f) s = .next u ∧
      (bondPort u.dev n).bad = ((bondPort s.dev n).bad + 1) % 256 ∧ u.dev.sw = s.dev.sw) ∧
    (bfOk f = true → bfType f = 1 → bondRing s.dev = true → bfSrc f ≠ bondId s.dev → bfDst f ≠ bondId s.dev → bfMine s.dev f = false →
      (1 < bfTtl f → bondUp s.dev (1 - n) = true → ∃ u, exec (.bondSyncRx n f) s = .next u ∧
        sends s u (.bond (1 - n) (putByte f 21 (bfTtl f - 1)))) ∧
      (bfTtl f ≤ 1 → ∃ u, exec (.bondSyncRx n f) s = .next u ∧
        (bondPort u.dev (1 - n)).fwdDrop = ((bondPort s.dev (1 - n)).fwdDrop + 1) % 256))) ∧
  (∀ (s : State) (n : Nat) (f : List Byte), bondTakes s.dev n 1 f = true →
    let b := bondBody f
    (byteOf b 0 = 0 → ∃ u, exec (.bondSyncRx n f) s = .next u ∧ (bondPort u.dev n).seq = ((bondPort s.dev n).seq + 1) % 65536 ∧
      sends s u (.bond n (bondFrame (bondId s.dev) (bfSrc f) 1 1 (bondPort s.dev n).seq false
        (leBytes 1 1 ++ leBytes 3 0 ++ beBytes 8 (beAt b 4 8) ++ beBytes 8 s.dev.time ++ beBytes 8 s.dev.time)))) ∧
    (byteOf b 0 = 1 → bondRole s.dev = 2 → n = parentPort s.dev → bfSrc f = bitsOf (bondTimeCtrl s.dev) 15 0 →
      beAt b 4 8 ∈ s.dev.bond.asked → s.dev.bond.exch = [] → s.dev.bond.st = .locked →
      let theta : Int := (((s.dev.time : Int) - (beAt b 20 8 : Nat)) - ((beAt b 12 8 : Nat) - (beAt b 4 8 : Nat) : Int)) / 2
      theta.natAbs ≤ 4 → ∃ u, exec (.bondSyncRx n f) s = .next u ∧ u.dev.bond.offset = theta ∧ u.dev.bond.st = .locked ∧
        u.dev.bond.lastValid = s.dev.up ∧ u.dev.bond.rate.natAbs ≤ 549755814 ∧ u.dev.time = s.dev.time)) ∧
  (∀ (s : State) (n : Nat) (f : List Byte) (x : Trig), bondTakes s.dev n 2 f = true →
    let b := bondBody f
    let r := schedRx s.dev (byteOf b 0)
    let ahead := (beAt b 2 2 + 65536 - r.sseq) % 65536
    byteOf b 0 < 4 → 1000000 ≤ beAt b 12 8 → beAt b 12 8 ≤ 1000000000 → tfind (byteOf b 0) s.dev.ingest.trigs = some x →
    (r.valid = false ∨ (0 < ahead ∧ ahead < 32768) → ∃ u, exec (.bondSchedRx n f) s = .next u ∧
      (schedRx u.dev (byteOf b 0)).sseq = beAt b 2 2 ∧ (schedRx u.dev (byteOf b 0)).valid = true ∧
      tfind (byteOf b 0) u.dev.ingest.trigs =
        some { x with next := some (firstInstant (beAt b 4 8) (beAt b 12 8) (s.dev.time + 2000), beAt b 4 8, beAt b 12 8) }) ∧
    (r.valid = true → ahead = 0 ∨ 32768 ≤ ahead → exec (.bondSchedRx n f) s = .next (after s s.dev))) ∧
  (∀ (s : State) (n : Nat) (f : List Byte), bondTakes s.dev n 3 f = true →
    let b := bondBody f
    let c := byteOf b 0
    let v := BitVec.ofNat 32 (beAt b 4 4)
    let answers := fun (u : State) kind value => sends s u (.bond n (bondFrame (bondId s.dev) (bfSrc f) 3 (bondTtl s.dev n 3)
      (bondPort s.dev n).seq false (msgBody c kind (bfSeq f) value)))
    (byteOf b 1 = 1 ∨ byteOf b 1 = 2 → s.dev.bond.answered = [] →
      (32 ≤ c ∨ bitOf (reg s.dev 0xB00050 0) c = false → ∃ u, exec (.bondMsgRx n f) s = .next u ∧ answers u 4 2 ∧
        (∀ k, (mboxAt u.dev k).full = (mboxAt s.dev k).full)) ∧
      (c < 32 → bitOf (reg s.dev 0xB00050 0) c = true → byteOf b 1 = 1 →
        ((mboxAt s.dev c).full = true → ∃ u, exec (.bondMsgRx n f) s = .next u ∧ answers u 4 1 ∧ (mboxAt u.dev c).word = (mboxAt s.dev c).word) ∧
        ((mboxAt s.dev c).full = false → ∃ u, exec (.bondMsgRx n f) s = .next u ∧ answers u 3 0 ∧ (mboxAt u.dev c).full = true ∧
          (mboxAt u.dev c).word = v)) ∧
      (c < 32 → bitOf (reg s.dev 0xB00050 0) c = true → byteOf b 1 = 2 → ∃ u, exec (.bondMsgRx n f) s = .next u ∧ answers u 3 0 ∧
        (mboxAt u.dev c).db &&& v = v ∧ (mboxAt u.dev c).full = (mboxAt s.dev c).full)) ∧
    (∀ k m, byteOf b 1 = 3 → k < 8 → (proxyAt s.dev k).msgs = [m] → m.seq = beAt b 2 2 → m.dest = bfSrc f → m.body.take 1 = b.take 1 →
      m.word = true → ∃ u, exec (.bondMsgRx n f) s = .next u ∧ proxyAt u.dev k = { proxyAt s.dev k with msgs := [] } ∧
        (mboxAt u.dev (24 + k)).full = false)) ∧
  (∀ (s : State) (n q : Nat) (f : List Byte), bondTakes s.dev n 4 f = true →
    let data := bondBody f
    let c := classOf s.dev (4 + n) data
    let cells := (data.length + 4 + 255) / 256
    frameIdsOk s.dev = true → data.length + 4 ≤ 9216 → cells ≤ freeCells s.dev → c < 8 → swMode s.dev c ≠ 2 →
    [0, 1, 2, 3, 4, 5, 7].filter (fun k => bitOf (fwdPorts s.dev data) k && k != 4 + n) = [q] → q ≠ 7 → (swAt s.dev q).st ≠ .down →
    depth s.dev q c + cells ≤ admitLimit s.dev c (freeCells s.dev - cells) → ∃ u x e, exec (.bondStreamRx n f) s = .next u ∧
      frameAt u.dev s.dev.sw.nextId = some x ∧ x.data = data ∧ x.port = 4 + n ∧ x.cls = c ∧
      queueAt u.dev q c = queueAt s.dev q c ++ [e] ∧ e.frame = s.dev.sw.nextId)

/-- R389, R390, R392, R394, R397. -/
def Obligations.BondTimeAndSchedules : Prop :=
  (∀ (s : State),
    (bondRole s.dev = 2 → s.dev.bond.reqAt ≤ s.dev.up → bondUp s.dev (parentPort s.dev) = true → ∃ u, exec .syncRequestSend s = .next u ∧
      u.dev.bond.reqAt = s.dev.up + 62500000 ∧ s.dev.time ∈ u.dev.bond.asked ∧
      sends s u (.bond (parentPort s.dev) (bondFrame (bondId s.dev) (bitsOf (bondTimeCtrl s.dev) 15 0) 1 1
        (bondPort s.dev (parentPort s.dev)).seq false (leBytes 4 0 ++ beBytes 8 s.dev.time ++ leBytes 16 0)))) ∧
    (bondRole s.dev ≠ 2 ∨ s.dev.up < s.dev.bond.reqAt → exec .syncRequestSend s = .next (after s s.dev)) ∧
    (bondRole s.dev = 2 → (s.dev.bond.st = .acquire ∨ s.dev.bond.st = .locked) → s.dev.bond.lastValid + 1000000000 ≤ s.dev.up →
      ∃ u, exec .bondHoldoverTimeout s = .next u ∧ u.dev.bond.st = .holdover ∧ u.dev.bond.rate = s.dev.bond.rate ∧
        (intcLost s.dev 128 = false → 128 ∈ u.dev.intc.latch)) ∧
    (bondRole s.dev ≠ 2 ∨ s.dev.bond.st = .holdover ∨ s.dev.up < s.dev.bond.lastValid + 1000000000 →
      exec .bondHoldoverTimeout s = .next (after s s.dev))) ∧
  (∀ (s : State) (k : Nat) (m : ProxyMsg), (proxyAt s.dev k).msgs = [m] →
    (s.dev.up < m.at_ → exec (.proxyRetransmit k) s = .next (after s s.dev)) ∧
    (m.at_ ≤ s.dev.up → m.tries < 3 → ∃ u, exec (.proxyRetransmit k) s = .next u ∧
      (proxyAt u.dev k).msgs = [{ m with at_ := m.at_ + 20000, tries := m.tries + 1 }] ∧
      (bondUp s.dev m.port = true → sends s u (.bond m.port (bondFrame (bondId s.dev) m.dest 3 (bondTtl s.dev m.port 3) m.seq false m.body)))) ∧
    (m.at_ ≤ s.dev.up → 3 ≤ m.tries → ∃ u, exec (.proxyRetransmit k) s = .next u ∧
      proxyAt u.dev k = { msgs := [], err := true, reason := 3 } ∧ (m.word = true → (mboxAt u.dev (24 + k)).full = false))) ∧
  (∀ (s : State) (who : Who) (v : Word32), ctlGrant s.dev who 0xB00090 4 true = true →
    let period := reg s.dev 0xB00088 0 + 2 ^ 32 * reg s.dev 0xB0008C 0
    let base := reg s.dev 0xB00080 0 + 2 ^ 32 * reg s.dev 0xB00084 0
    let pin := bitsOf v.toNat 28 27
    let q := (tget 0 pin s.dev.bond.sseqs + 1) % 65536
    (1000000 ≤ period → period ≤ 1000000000 → ∃ u, exec (.bondSchedGo who v) s = .next u ∧ tget 0 pin u.dev.bond.sseqs = q ∧
      (bondUp s.dev 0 = true → sends s u (.bond 0 (bondFrame (bondId s.dev) (bitsOf v.toNat 15 0) 2 (bondTtl s.dev 0 2) (bondPort s.dev 0).seq
        (bitOf v.toNat 30) (leBytes 1 pin ++ leBytes 1 0 ++ beBytes 2 q ++ beBytes 8 base ++ beBytes 8 period)))) ∧
      u.dev.bond.reps.length = s.dev.bond.reps.length + (if bitsOf v.toNat 26 24 = 0 then 0 else 1)) ∧
    (period < 1000000 ∨ 1000000000 < period → ∃ u, exec (.bondSchedGo who v) s = .next u ∧ u.dev.bond = s.dev.bond ∧
      bitOf (reg u.dev 0xB00090 0x42000000) 29 = true)) ∧
  (∀ (s : State),
    (∀ r rest, s.dev.bond.reps = r :: rest → r.at_ ≤ s.dev.up → bondUp s.dev 0 = true → ∃ u, exec .bondSchedRepeat s = .next u ∧
      u.dev.bond.reps = (if r.left ≤ 1 then [] else [{ r with left := r.left - 1, at_ := r.at_ + 10000 }]) ++ rest ∧
      sends s u (.bond 0 (bondFrame (bondId s.dev) r.dest 2 (bondTtl s.dev 0 2) (bondPort s.dev 0).seq r.bcast r.body))) ∧
    ((∀ r ∈ s.dev.bond.reps, s.dev.up < r.at_) → exec .bondSchedRepeat s = .next (after s s.dev))) ∧
  (∀ (s : State) (n : Nat), n < 2 →
    ((bondPort s.dev n).link = false → exec (.bondLinkDown n) s = .next (after s s.dev)) ∧
    ((bondPort s.dev n).link = true → ∃ u, exec (.bondLinkDown n) s = .next u ∧
      bondPort u.dev n = { bondPort s.dev n with link := false, downs := ((bondPort s.dev n).downs + 1) % 128 } ∧
      ((swAt s.dev (4 + n)).st = .up → holdNs s.dev (4 + n) ≠ 0 → (swAt u.dev (4 + n)).st = .hold) ∧
      (parentPort s.dev = n → s.dev.bond.st ≠ .off → u.dev.bond.st = .holdover)))

/-- R398, R402, R404, R405, R476, R482. -/
def Obligations.HostPowerStates : Prop :=
  (∀ (s : State) (f v t : Nat), v < 128 → (vecAt s.dev f v).timer = some t →
    (s.dev.up < t → exec (.msixTimerExpire f v) s = .next (after s s.dev)) ∧
    (t ≤ s.dev.up → ∃ u, exec (.msixTimerExpire f v) s = .next u ∧
      (canSend s.dev f = true → (vecAt s.dev f v).masked = false →
        sends s u (.msix f v (vecAt s.dev f v).addr (vecAt s.dev f v).data)) ∧
      (canSend s.dev f = true → (vecAt s.dev f v).masked = true → (vecAt u.dev f v).due = true))) ∧
  (∀ (s : State),
    (s.dev.host.perst = true → exec .linkL0Entry s = .next (after s s.dev)) ∧
    (s.dev.host.perst = false → ∃ u, exec .linkL0Entry s = .next u ∧ u.dev.host.link = .l0 ∧
      (∀ f, f < 16 → (funcAt s.dev f).d ≠ .d3cold → (funcAt u.dev f).wake = false) ∧
      (∀ f v, f < 16 → v < 128 → funcOn s.dev f = true → (funcAt s.dev f).msixEn = true → (funcAt s.dev f).d = .d0 → (funcAt s.dev f).flr = false →
        (vecAt s.dev f v).due = true → (vecAt s.dev f v).masked = false →
        .msix f v (vecAt s.dev f v).addr (vecAt s.dev f v).data ∈ u.dev.out)) ∧
    (s.dev.host.link = .l0 → exec .linkL1Entry s = .next (after s { s.dev with host := { s.dev.host with link := .l1 } })) ∧
    (s.dev.host.link ≠ .l0 → exec .linkL1Entry s = .next (after s s.dev)) ∧
    (∃ u, exec .pmeTurnOff s = .next u ∧ u.dev.host.pmeOff = true ∧ sends s u .pmeAck)) ∧
  (∀ (s : State) (f : Nat), f < 16 →
    (cfgServed s.dev f = true → (funcAt s.dev f).d = .d0 → ∃ u, exec (.d3hotEntry f) s = .next u ∧ (funcAt u.dev f).d = .d3hot ∧
      (∀ k, k ≠ f → (funcAt u.dev k).d = (funcAt s.dev k).d)) ∧
    (cfgServed s.dev f = true → (funcAt s.dev f).d = .d3hot → ∃ u, exec (.d0Entry f) s = .next u ∧ (funcAt u.dev f).d = .d0 ∧
      (∀ v, v < 128 → (funcAt s.dev f).msixEn = true → s.dev.host.link = .l0 → (vecAt s.dev f v).due = true → (vecAt s.dev f v).masked = false →
        .msix f v (vecAt s.dev f v).addr (vecAt s.dev f v).data ∈ u.dev.out)) ∧
    (cfgServed s.dev f = false → exec (.d3hotEntry f) s = .next (after s s.dev) ∧ exec (.d0Entry f) s = .next (after s s.dev))) ∧
  (∀ (s : State),
    (s.dev.host.perst = true → exec .hostPerstAssert s = .next (after s s.dev)) ∧
    (s.dev.host.perst = false → (∀ f, f < 16 → funcOn s.dev f = true → (funcAt s.dev f).d = .d3hot) → ∃ u, exec .hostPerstAssert s = .next u ∧
      u.dev.host.perst = true ∧ u.dev.host.link = .down ∧ u.dev.host.ide = [] ∧ u.dev.host.spdm.session = false ∧
      (∀ f, f < 16 → (funcAt s.dev f).d = .d3hot → (funcAt u.dev f).d = .d3cold) ∧ u.dev.rings = s.dev.rings ∧ u.dev.wos = s.dev.wos) ∧
    (s.dev.host.perst = false → (funcAt s.dev 0).d = .d0 → (funcAt s.dev 0).flr = false → ∃ u, exec .hostPerstAssert s = .next u ∧ u.dev.host.perst = true ∧
      u.dev.host.link = .down ∧ u.dev.host.ide = [] ∧ (∀ f, f < 16 → (funcAt u.dev f).flr = true)) ∧
    (s.dev.host.perst = true → ∃ u, exec .hostPerstRelease s = .next u ∧ u.dev.host.perst = false ∧
      (∀ f, f < 16 → (funcAt s.dev f).d = .d3cold → (funcAt u.dev f).d = .d0 ∧ (funcAt u.dev f).msixEn = false)) ∧
    (s.dev.host.perst = false → exec .hostPerstRelease s = .next (after s s.dev))) ∧
  (∀ (s : State) (n : Nat),
    (n < 5 → (ideAt s.dev n).open_ = true → ∃ u, exec (.ideTlpFail n) s = .next u ∧ ideAt u.dev n = { ideAt s.dev n with secure := false } ∧
      (s.dev.plumb.recs = [] → reported u 434 n)) ∧
    (5 ≤ n ∨ (ideAt s.dev n).open_ = false → exec (.ideTlpFail n) s = .next (after s s.dev)))

/-- R89–R91, R398, R406, R407. -/
def Obligations.FunctionResets : Prop :=
  (∀ (s : State) (f : Nat), 0 < f → f < 16 →
    (funcOn s.dev f = true → funcBusy s.dev f = false → ∃ u, exec (.flrInitiate f) s = .next u ∧ (funcAt u.dev f).flr = true ∧
      (∀ v, v < 128 → (vecAt u.dev f v).count = 0 ∧ (vecAt u.dev f v).timer = none ∧ (vecAt u.dev f v).due = false) ∧
      (∀ r ∈ u.dev.recs, r.func ≠ f) ∧ (∀ r ∈ u.dev.threadRecs, r.func ≠ f)) ∧
    (funcOn s.dev f = false ∨ funcBusy s.dev f = true → exec (.flrInitiate f) s = .next (after s s.dev)) ∧
    (funcBusy s.dev f = false ∨ ((funcAt s.dev f).flrPf = false ∧ flrQuiet s.dev f = false) → exec (.flrComplete f) s = .next (after s s.dev)) ∧
    (funcBusy s.dev f = true → (funcAt s.dev f).flrPf = false → flrQuiet s.dev f = true → bitOf (reg s.dev 0x200 0) 31 = false →
      ∃ u, exec (.flrComplete f) s = .next u ∧ funcAt u.dev f = Func.reset ∧ u.dev.pfLost = satAdd 0xFF s.dev.pfLost 1 ∧
        (∀ i ∈ flrBufs s.dev f, (bufAt s.dev i).holds = 0 → (bufAt u.dev i).st = .free) ∧
        (∀ o, ownPage f ≤ o → o < ownPage f + 0x1000 → ∀ x, reg u.dev o x = x))) ∧
  (∀ (s : State), funcBusy s.dev 0 = true → (funcAt s.dev 0).flrPf = true → (∀ f, f < 16 → flrQuiet s.dev f = true) →
    ∃ u, exec (.flrComplete 0) s = .next u ∧ u.dev.host.vfEnable = false ∧ u.dev.host.numVfs = 0 ∧
      (∀ f, f < 16 → funcAt u.dev f = Func.reset)) ∧
  (∀ (s : State),
    (cfgServed s.dev 0 = true → ∃ u, exec .vfEnableSet s = .next u ∧ u.dev.host.vfEnable = true ∧ u.dev.host.numVfs = s.dev.host.numVfs) ∧
    (cfgServed s.dev 0 = false → exec .vfEnableSet s = .next (after s s.dev) ∧ exec .vfEnableClear s = .next (after s s.dev)) ∧
    (cfgServed s.dev 0 = true → s.dev.host.vfEnable = true → ∃ u, exec .vfEnableClear s = .next u ∧ u.dev.host.vfEnable = false ∧
      (∀ f, 1 ≤ f → f ≤ s.dev.host.numVfs → f < 16 → (funcAt u.dev f).flr = true) ∧ (funcAt u.dev 0).flr = (funcAt s.dev 0).flr)) ∧
  (∀ (s : State) (f : Nat), ctlGrant s.dev (.host f) 0x20C 4 false = true → ∃ u, exec (.woLastPfFlrRead (.host f)) s = .next u ∧
    u.dev.pfLost = 0 ∧ u.dev.pfCancelled = s.dev.pfCancelled ∧
    sends s u (.hostData f (leBytes 4 (s.dev.pfLost * 2 ^ 24 + s.dev.pfCancelled)) false))

/-- R402, R434, R435. -/
def Obligations.AttestationMessages : Prop :=
  (∀ (s : State) (req : List Byte), ksUp s.dev = true →
    let x := s.dev.host.spdm
    let told := fun (u : State) code => ∃ p1 p2 body, sends s u (.spdm (spdmMsg code p1 p2 body)) ∧ u.dev.mem = s.dev.mem ∧ u.dev.ks = s.dev.ks
    let errs := fun (i : Instr) code => ∃ u, exec i s = .next u ∧ sends s u (.spdm (spdmMsg 0x7F code 0 [])) ∧ u.dev.host.spdm = x
    (∃ u, exec (.getVersion req) s = .next u ∧ u.dev.host.spdm.version = true ∧ u.dev.host.spdm.caps = false ∧ u.dev.host.spdm.algs = false ∧
      ∃ rsp, sends s u (.spdm rsp) ∧ fieldAt rsp 0 2 = 0x0410) ∧
    (x.version = true → ∃ u, exec (.getCapabilities req) s = .next u ∧ told u 0x61 ∧ u.dev.host.spdm.caps = true) ∧
    (x.version = false → errs (.getCapabilities req) 4) ∧
    (x.caps = true → 
      (∃ u, exec (.negotiateAlgorithms req true) s = .next u ∧ told u 0x63 ∧ u.dev.host.spdm.algs = true) ∧ errs (.negotiateAlgorithms req false) 1) ∧
    (x.caps = false → ∀ o, errs (.negotiateAlgorithms req o) 4) ∧
    (x.algs = true →
      (∃ u, exec (.getDigests req) s = .next u ∧
        sends s u (.spdm (spdmMsg 0x01 0 1 (leBytes 48 (Config.sha384 (certChain s.fuses s.dev)))))) ∧
      (∀ o n, ∃ u rsp, exec (.getCertificate req 0 o n) s = .next u ∧ sends s u (.spdm rsp) ∧
        rsp.drop 8 = ((certChain s.fuses s.dev).drop o).take n) ∧
      (∀ k o n, k ≠ 0 → errs (.getCertificate req k o n) 1 ∧ errs (.challenge req k) 1 ∧ errs (.keyExchange req k) 1) ∧
      (∃ u body, exec (.challenge req 0) s = .next u ∧ sends s u (.spdm (body ++ akSign s.dev (x.transcript ++ req ++ body))) ∧
        fieldAt body 1 1 = 0x03) ∧
      (∀ i, 1 ≤ i → i ≤ 5 → ∃ u body, exec (.getMeasurements req i true) s = .next u ∧ fieldAt body 1 1 = 0x60 ∧
        sends s u (.spdm (body ++ akSign s.dev (x.transcript ++ req ++ body))) ∧ (body.drop 15).take 48 = (measurement s.fuses s.dev i).take 48) ∧
      (∀ i, 5 < i → i ≠ 0xFF → ∀ g, errs (.getMeasurements req i g) 1) ∧
      (∃ u body, exec (.keyExchange req 0) s = .next u ∧ u.dev.host.spdm.handshake = true ∧ u.dev.host.spdm.session = x.session ∧
        sends s u (.spdm (body ++ akSign s.dev (x.transcript ++ req ++ body))))) ∧
    (x.algs = false → errs (.getDigests req) 4 ∧ errs (.challenge req 0) 4 ∧ errs (.keyExchange req 0) 4) ∧
    (x.handshake = true → 
      (∃ u, exec (.finish req true) s = .next u ∧ told u 0x65 ∧ u.dev.host.spdm.session = true ∧ u.dev.host.spdm.handshake = false) ∧
      (∃ u, exec (.finish req false) s = .next u ∧ u.dev.host.spdm.session = x.session ∧ u.dev.host.spdm.handshake = false)) ∧
    (x.handshake = false → ∀ g, errs (.finish req g) 4) ∧
    (x.session = true → 
      (∃ u, exec (.heartbeat req) s = .next u ∧ told u 0x68 ∧ u.dev.host.spdm.session = true ∧ u.dev.host.spdm.key = x.key) ∧
      (∀ op tag, 1 ≤ op → op ≤ 3 → ∃ u, exec (.keyUpdate req op tag) s = .next u ∧ told u 0x69 ∧ u.dev.host.spdm.session = true ∧
        (op = 3 → u.dev.host.spdm.key = x.key)) ∧
      (∃ u, exec (.endSession req) s = .next u ∧ told u 0x6C ∧ u.dev.host.spdm.session = false ∧ u.dev.host.spdm.key = 0) ∧
      (∀ n key, n < 5 →
        (∃ u, exec (.ideKm 2 n key) s = .next u ∧ ideAt u.dev n = { ideAt s.dev n with key := key }) ∧
        (∃ u, exec (.ideKm 4 n key) s = .next u ∧ ideAt u.dev n = { ideAt s.dev n with open_ := true, secure := true }) ∧
        (∃ u, exec (.ideKm 5 n key) s = .next u ∧ ideAt u.dev n = { ideAt s.dev n with open_ := false, secure := false }))) ∧
    (x.session = false → errs (.heartbeat req) 4 ∧ errs (.endSession req) 4 ∧ ∀ o n key, exec (.ideKm o n key) s = .next (after s s.dev))) ∧
  (∀ (s : State) (req : List Byte), ksUp s.dev = false → exec (.getVersion req) s = .next (after s s.dev) ∧
    exec (.challenge req 0) s = .next (after s s.dev) ∧ exec (.getMeasurements req 0xFF true) s = .next (after s s.dev)) ∧
  (∀ (s : State) (i : Nat), (i < 3 → ∃ u, exec (.doeDiscovery i) s = .next u ∧
      sends s u (.doe (leBytes 2 1 ++ leBytes 1 i ++ leBytes 1 ((i + 1) % 3)))) ∧
    (3 ≤ i → ∃ u, exec (.doeDiscovery i) s = .next u ∧ sends s u (.doe (leBytes 2 0xFFFF ++ leBytes 2 0))))

/-- R408, R409, R411, R412. -/
def Obligations.QuickPort : Prop :=
  ∀ (s : State) (a : Nat) (v : Word32) (clash : Bool),
    (qpOn s.dev = false → exec (.qpRead a) s = .next (after s s.dev) ∧ exec .qpReadTimeLo s = .next (after s s.dev) ∧
      exec (.qpDoorbellWrite a v clash) s = .next (after s s.dev) ∧ exec (.qpTriggerWrite a v clash) s = .next (after s s.dev)) ∧
    (qpOn s.dev = true →
      (∃ u w, exec (.qpRead a) s = .next u ∧ sends s u (.qp w) ∧
        (a = 0 → w = 0x4960A100) ∧ (a = 2 → w = s.dev.qpLatch) ∧
        (∀ k, k < 16 → a = 0x20 + k → w = poolFree s.dev k) ∧ (∀ k, k < 256 → a = 0x100 + k → w = reg s.dev (0x1001000 + 4 * k) 0) ∧
        (∀ k x, k < 8 → tfind k s.dev.ingest.arrivals = some x → (a = 0x10 + k → w = 2 ^ 31 + x.frame % 2 ^ 31) ∧ (a = 0x18 + k → w = x.stamp % 2 ^ 32)) ∧
        (0x200 ≤ a → w = 0) ∧ (a ≠ 1 → u.dev.qpLatch = s.dev.qpLatch) ∧ u.dev.regs = s.dev.regs) ∧
      (∃ u, exec .qpReadTimeLo s = .next u ∧ sends s u (.qp (s.dev.time % 2 ^ 32)) ∧ u.dev.qpLatch = s.dev.time / 2 ^ 32) ∧
      (∀ c, c < 64 → a = 0x800 + c →
        (c < 32 ∨ s.dev.qpSecure = true → isProxy s.dev c = false → ∃ u x, exec (.qpDoorbellWrite a v clash) s = .next u ∧
          (mboxAt u.dev c).db &&& x = x ∧ (mboxAt u.dev c).db &&& (mboxAt s.dev c).db = (mboxAt s.dev c).db ∧ (clash = false → x = v) ∧
          (mboxAt u.dev c).full = (mboxAt s.dev c).full ∧ u.dev.qpRefused = s.dev.qpRefused) ∧
        (32 ≤ c → s.dev.qpSecure = false → ∃ u, exec (.qpDoorbellWrite a v clash) s = .next u ∧
          u.dev.qpRefused = (s.dev.qpRefused + 1) % 256 ∧ (s.dev.plumb.recs = [] → reported u 441 (free s.dev 12)))) ∧
      (∀ k, k < 16 → a = 0x900 + k → ∃ u, exec (.qpTriggerWrite a v clash) s = .next u ∧
        (clash = false → tget 0 k u.dev.qpTrig = v.toNat) ∧ (∀ j, j ≠ k → tget 0 j u.dev.qpTrig = tget 0 j s.dev.qpTrig) ∧
        (intcLost s.dev (112 + k) = false → 112 + k ∈ u.dev.intc.latch)) ∧
      ((a < 0x800 ∨ 0x840 ≤ a) → exec (.qpDoorbellWrite a v clash) s = .next (after s s.dev)) ∧
      ((a < 0x900 ∨ 0x910 ≤ a) → exec (.qpTriggerWrite a v clash) s = .next (after s s.dev)))

/-- R413, R415, R417–R419. -/
def Obligations.InterruptController : Prop :=
  let same := fun (s u : State) => u.dev.mem = s.dev.mem ∧ u.dev.rings = s.dev.rings ∧ u.dev.regs = s.dev.regs ∧ u.dev.wos = s.dev.wos ∧
    u.dev.ctxs = s.dev.ctxs ∧ u.dev.plumb = s.dev.plumb ∧ u.dev.intc.cfg = s.dev.intc.cfg ∧ u.fuses = s.fuses
  (∀ (s : State) (who : Who) (r : Nat), (r < 10 ∨ (16 ≤ r ∧ r < 32)) → ctlGrant s.dev who (claimOff s.dev who r) 4 false = true →
    ((∀ n, intcDeliverable s.dev n = true → intcCovers s.dev r n = false) → ∃ u, exec (.intcClaim who r) s = .next u ∧ same s u ∧
      u.dev.intc.latch = s.dev.intc.latch ∧ u.dev.intc.active = s.dev.intc.active ∧
      u.dev.intc.emptyClaims = (s.dev.intc.emptyClaims + 1) % 65536 ∧
      (∀ f, who = .host f → sends s u (.hostData f (leBytes 4 0) false))) ∧
    (∀ n, intcDeliverable s.dev n = true → intcCovers s.dev r n = true →
      (∀ m, intcDeliverable s.dev m = true → intcCovers s.dev r m = true → m ≠ n →
        intcPrio s.dev m < intcPrio s.dev n ∨ (intcPrio s.dev m = intcPrio s.dev n ∧ n < m)) →
      ∃ u, exec (.intcClaim who r) s = .next u ∧ same s u ∧ tfind n u.dev.intc.active = some r ∧
        (∀ m, m ≠ n → tfind m u.dev.intc.active = tfind m s.dev.intc.active) ∧
        (∀ m, m ∈ u.dev.intc.latch ↔ m ∈ s.dev.intc.latch ∧ m ≠ n) ∧ u.dev.intc.emptyClaims = s.dev.intc.emptyClaims ∧
        (∀ f, who = .host f → sends s u (.hostData f (leBytes 4 (2 ^ 31 + n)) false)))) ∧
  (∀ (s : State) (who : Who) (r : Nat) (v : Word32), (r < 10 ∨ (16 ≤ r ∧ r < 32)) → ctlGrant s.dev who (claimOff s.dev who r + 4) 4 true = true →
    let n := v.toNat % 1024
    (tfind n s.dev.intc.active = some r → ∃ u, exec (.intcComplete who r v) s = .next u ∧ same s u ∧ tfind n u.dev.intc.active = none ∧
      (∀ m, m ≠ n → tfind m u.dev.intc.active = tfind m s.dev.intc.active) ∧ u.dev.intc.latch = s.dev.intc.latch ∧
      (intcValid n = true → intcLevel n = true → intcLost s.dev n = false →
        intcPending u.dev n = (s.dev.intc.latch.contains n || intcInput u.dev n)) ∧
      (v.getLsbD 31 = true → u.dev.intc.noCause = (s.dev.intc.noCause + 1) % 65536) ∧
      (v.getLsbD 31 = false → u.dev.intc.noCause = s.dev.intc.noCause)) ∧
    (tfind n s.dev.intc.active ≠ some r → exec (.intcComplete who r v) s = .next (after s s.dev))) ∧
  (∀ (s : State) (who : Who) (w : Nat) (v : Word32), w < 32 →
    let bit := fun (n : Nat) => n / 32 = w ∧ v.getLsbD (n % 32) = true
    (ctlGrant s.dev who (0x300000 + 4 * w) 4 true = true → ∃ u, exec (.intcPendSet who w v) s = .next u ∧ same s u ∧
      u.dev.intc.en = s.dev.intc.en ∧ u.dev.intc.active = s.dev.intc.active ∧
      ∀ n, n ∈ u.dev.intc.latch ↔ n ∈ s.dev.intc.latch ∨ (bit n ∧ intcValid n = true ∧ intcLost s.dev n = false)) ∧
    (ctlGrant s.dev who (0x300080 + 4 * w) 4 true = true → ∃ u, exec (.intcPendClr who w v) s = .next u ∧ same s u ∧
      u.dev.intc.en = s.dev.intc.en ∧ u.dev.intc.active = s.dev.intc.active ∧
      ∀ n, n ∈ u.dev.intc.latch ↔ n ∈ s.dev.intc.latch ∧ ¬ bit n) ∧
    (ctlGrant s.dev who (0x300100 + 4 * w) 4 true = true → ∃ u, exec (.intcEnSet who w v) s = .next u ∧ same s u ∧
      u.dev.intc.latch = s.dev.intc.latch ∧ u.dev.intc.active = s.dev.intc.active ∧
      ∀ n, n ∈ u.dev.intc.en ↔ n ∈ s.dev.intc.en ∨ (bit n ∧ intcValid n = true)) ∧
    (ctlGrant s.dev who (0x300180 + 4 * w) 4 true = true → ∃ u, exec (.intcEnClr who w v) s = .next u ∧ same s u ∧
      u.dev.intc.latch = s.dev.intc.latch ∧ u.dev.intc.active = s.dev.intc.active ∧
      ∀ n, n ∈ u.dev.intc.en ↔ n ∈ s.dev.intc.en ∧ (n = 517 ∨ ¬ bit n))) ∧
  (∀ (s : State) (n : Nat), ∃ u, exec (.intcEvent n) s = .next u ∧ same s u ∧ u.dev.intc.en = s.dev.intc.en ∧
    u.dev.intc.active = s.dev.intc.active ∧
    ∀ m, m ∈ u.dev.intc.latch ↔ m ∈ s.dev.intc.latch ∨ (m = n ∧ intcValid n = true ∧ intcLevel n = false ∧ intcLost s.dev n = false))

/-- R422–R424, R426. -/
def Obligations.Mailboxes : Prop :=
  let same := fun (s u : State) => u.dev.mem = s.dev.mem ∧ u.dev.rings = s.dev.rings ∧ u.dev.regs = s.dev.regs ∧ u.dev.wos = s.dev.wos ∧
    u.dev.ctxs = s.dev.ctxs ∧ u.dev.plumb = s.dev.plumb ∧ u.fuses = s.fuses
  (∀ (s : State) (who : Who) (c : Nat) (v : Word32), (c < 32 ∨ (c < 64 ∧ secureOk s.dev who = true)) → isProxy s.dev c = false →
    let x := mboxAt s.dev c
    let others := fun (u : State) => ∀ k, k ≠ c → (mboxAt u.dev k).full = (mboxAt s.dev k).full ∧ (mboxAt u.dev k).word = (mboxAt s.dev k).word
    (ctlGrant s.dev who (0x400004 + 32 * c) 4 true = true →
      (x.full = false → ∃ u, exec (.mbxSendWrite who c v) s = .next u ∧ same s u ∧ others u ∧ (mboxAt u.dev c).full = true ∧
        (mboxAt u.dev c).word = v ∧ (mboxAt u.dev c).db.getLsbD 31 = true ∧ (mboxAt u.dev c).drop = x.drop) ∧
      (x.full = true → ∃ u, exec (.mbxSendWrite who c v) s = .next u ∧ same s u ∧ others u ∧ (mboxAt u.dev c).full = true ∧
        (mboxAt u.dev c).word = x.word ∧ (mboxAt u.dev c).drop = true)) ∧
    (ctlGrant s.dev who (0x400008 + 32 * c) 8 false = true →
      (x.full = true → ∃ u, exec (.mbxRecvRead who c) s = .next u ∧ same s u ∧ others u ∧ (mboxAt u.dev c).full = false ∧
        (∀ f, who = .host f → sends s u (.hostData f (leBytes 8 (2 ^ 32 + x.word.toNat)) false)) ∧
        (c ∉ s.dev.bond.bondFilled → intcLost s.dev (320 + c) = false → 320 + c ∈ u.dev.intc.latch) ∧
        (c ∈ s.dev.bond.bondFilled → u.dev.intc.latch = s.dev.intc.latch)) ∧
      (x.full = false → ∃ u, exec (.mbxRecvRead who c) s = .next u ∧ same s u ∧ others u ∧ (mboxAt u.dev c).full = false ∧
        (mboxAt u.dev c).word = x.word ∧ u.dev.intc.latch = s.dev.intc.latch ∧
        (∀ f, who = .host f → sends s u (.hostData f (leBytes 8 0) false)))) ∧
    (ctlGrant s.dev who (0x400010 + 32 * c) 4 true = true → ∃ u, exec (.mbxDbSet who c v) s = .next u ∧ same s u ∧ others u ∧
      (mboxAt u.dev c).db &&& (x.db ||| v) = x.db ||| v ∧ (mboxAt u.dev c).full = x.full) ∧
    (ctlGrant s.dev who (0x400014 + 32 * c) 4 true = true → ∃ u, exec (.mbxDbClr who c v) s = .next u ∧ same s u ∧ others u ∧
      (mboxAt u.dev c).db &&& (x.db &&& ~~~v) = x.db &&& ~~~v ∧ (mboxAt u.dev c).full = x.full ∧
      ((∀ n, intcDeliverable s.dev n = true → 8 ≤ intcTarget s.dev n) → (mboxAt u.dev c).db = x.db &&& ~~~v))) ∧
  (∀ (s : State) (who : Who) (v : Word32), ctlGrant s.dev who 0x400800 4 true = true → ∃ u, exec (.mbxCrossClear who v) s = .next u ∧
    same s u ∧ ∀ k, k < 32 →
      (bitOf u.dev.mbox.cross k = (bitOf s.dev.mbox.cross k && !(v.getLsbD k && (decide (k < 16) || who == .keystone)))) ∧
      (bitOf s.dev.mbox.cross k = true → bitOf u.dev.mbox.cross k = false → (mboxAt s.dev (2 * k)).full = true →
        (mboxAt s.dev (2 * k + 1)).full = true → tfind k u.dev.mbox.since = some s.dev.up)) ∧
  (∀ (s : State) (k t : Nat), tfind k s.dev.mbox.since = some t →
    (crossTimeout s.dev ≠ 0 → t + crossTimeout s.dev < s.dev.up → ∃ u, exec (.mbxCrossTimeout k) s = .next u ∧ same s u ∧
      bitOf u.dev.mbox.cross k = true ∧ tfind k u.dev.mbox.since = none ∧
      (∀ j, j ≠ k → bitOf u.dev.mbox.cross j = bitOf s.dev.mbox.cross j)) ∧
    (crossTimeout s.dev = 0 ∨ s.dev.up ≤ t + crossTimeout s.dev → exec (.mbxCrossTimeout k) s = .next (after s s.dev))) ∧
  (∀ (s : State) (c : Nat) (v : Word32), 32 ≤ c → c < 64 →
    (∀ f, funcOn s.dev f = true → funcBusy s.dev f = false → s.dev.plumb.recs = [] →
      ∀ i ∈ [Instr.mbxSendWrite (.host f) c v, .mbxDbSet (.host f) c v, .mbxDbClr (.host f) c v, .mbxRecvRead (.host f) c],
        ∃ u, exec i s = .next u ∧ reported u 441 (free s.dev 12) ∧
          ∀ k, (mboxAt u.dev k).full = (mboxAt s.dev k).full ∧ (mboxAt u.dev k).word = (mboxAt s.dev k).word) ∧
    (∀ x, x < 512 → (ctxAt s.dev x).st = .ready → (ctxAt s.dev x).isSealed = false →
      ∀ i ∈ [Instr.mbxSendWrite (.holt x) c v, .mbxDbSet (.holt x) c v, .mbxDbClr (.holt x) c v, .mbxRecvRead (.holt x) c],
        exec i s = .next (after s (takeTrap s.dev x 7 0 (BitVec.ofNat 64 (free s.dev 13))))))

/-- R436–R449. -/
def Obligations.KeystoneWork : Prop :=
  ∀ (s : State) (t : Nat),
    let cells := fun (u : State) (a : Nat) (bs : List Byte) => ∀ i, i < bs.length → cellAt (a + i) u.dev.mem.cells = bs[i]?
    let out := fun (h off : Nat) => bufBase s.dev (handleIdx h) + off
    (∀ (op : Nat) (i : Instr), ((op, i) ∈ [(1, Instr.clipNew t), (2, .wrap t), (4, .destroy t), (6, .region t)]) → ksNext s.dev t .keyop op = none → exec i s = .next (after s s.dev)) ∧
    (∀ good, ksNext s.dev t .keyop 3 = none → exec (.enrol t good) s = .next (after s s.dev)) ∧
    (∀ good, ksNext s.dev t .keyop 5 = none → exec (.keyImport t good) s = .next (after s s.dev)) ∧
    (∀ (op : Nat) (i : Instr), ((op, i) ∈ [(1, Instr.sign t), (2, .openRecord t)]) → ksNext s.dev t .seal op = none →
      exec i s = .next (after s s.dev)) ∧
    (∀ w, ksNext s.dev t .keyop 1 = some w → funcBusy s.dev w.func = false →
      (keyClip s.fuses s.dev = false ∨ freeKeySlot s.dev = none →
        ∃ u, exec (.clipNew t) s = .next u ∧ endedWith s u t 0x71 ∧ u.dev.ks = s.dev.ks) ∧
      (∀ k, keyClip s.fuses s.dev = true → freeKeySlot s.dev = some k → ∃ u x, exec (.clipNew t) s = .next u ∧ endedWith s u t 0 ∧
        slotAt s.dev k = none ∧ slotAt u.dev k = some x ∧ x.func = w.func ∧ x.clipId = (w.raw.drop 72).take 16 ∧ x.keyId ≠ 0 ∧
        x.imported = false ∧ (∀ j, j ≠ k → slotAt u.dev j = slotAt s.dev j) ∧ u.dev.mem = s.dev.mem ∧
        (∀ q ∈ u.dev.recs.drop s.dev.recs.length, fieldAt q.data 16 4 = k ∧ fieldAt q.data 20 4 = x.keyId))) ∧
    (∀ w x, ksNext s.dev t .keyop 2 = some w → funcBusy s.dev w.func = false → slotAt s.dev (keySlotOf w) = some x →
      (x.func ≠ w.func → ∃ u, exec (.wrap t) s = .next u ∧ endedWith s u t 0x42 ∧ (s.dev.plumb.recs = [] → reported u 442 t) ∧
        u.dev.mem = s.dev.mem) ∧
      (x.func = w.func → (x.imported = true ∨ keyDsk s.fuses s.dev = false ∨ tfind (woField w 65 1) s.dev.ks.recips = none) →
        ∃ u, exec (.wrap t) s = .next u ∧ endedWith s u t 0x71 ∧ u.dev.mem = s.dev.mem) ∧
      (∀ r, x.func = w.func → x.imported = false → keyDsk s.fuses s.dev = true → tfind (woField w 65 1) s.dev.ks.recips = some r →
        (r.notAfter ≤ s.dev.time → ∃ u, exec (.wrap t) s = .next u ∧ endedWith s u t 0x71) ∧
        (s.dev.time < r.notAfter → r.id.length = 16 → x.clipId.length = 16 → s.dev.ks.devFpr.length = 48 →
          storable s.dev 32 (woField w 96 4) (woField w 100 4) 5288 = true → ∃ u, exec (.wrap t) s = .next u ∧ endedWith s u t 0 ∧
            cells u (out (woField w 96 4) (woField w 100 4)) (leBytes 4 0x594B5257 ++ leBytes 2 1 ++ leBytes 2 0 ++ r.id ++ x.clipId ++
              leBytes 4 x.keyId ++ leBytes 4 0 ++ s.dev.ks.devFpr) ∧
            (∀ a, a < out (woField w 96 4) (woField w 100 4) ∨ out (woField w 96 4) (woField w 100 4) + 5288 ≤ a →
              cellAt a u.dev.mem.cells = cellAt a s.dev.mem.cells)))) ∧
    (∀ w, ksNext s.dev t .keyop 2 = some w → funcBusy s.dev w.func = false → slotAt s.dev (keySlotOf w) = none →
      ∃ u, exec (.wrap t) s = .next u ∧ endedWith s u t 0x71 ∧ u.dev.mem = s.dev.mem) ∧
    (∀ w good, ksNext s.dev t .keyop 3 = some w → funcBusy s.dev w.func = false → keyClip s.fuses s.dev = true →
      loadable s.dev 32 (woField w 88 4) (woField w 92 4) 5160 = true →
      let b := bytesAt s.dev (out (woField w 88 4) (woField w 92 4)) 5160
      let verified := (hybridOk s.dev (signerKey s.fuses (fieldAt b 6 1)) (b.take 1704) (b.drop 1704) good).2
      let ends := fun st => ∃ u, exec (.enrol t good) s = .next u ∧ endedWith s u t st ∧ u.dev.ks = s.dev.ks
      (recipOk b = false → ends 0x31) ∧
      (recipOk b = true → (fieldAt b 6 1 ≠ 1 ∧ fieldAt b 6 1 ≠ 2) → ends 0x70) ∧
      (recipOk b = true → (fieldAt b 6 1 = 1 ∨ fieldAt b 6 1 = 2) → keySigner s.fuses (fieldAt b 6 1) = false → ends 0x71) ∧
      (recipOk b = true → (fieldAt b 6 1 = 1 ∨ fieldAt b 6 1 = 2) → keySigner s.fuses (fieldAt b 6 1) = true → verified = false → ends 0x70) ∧
      (recipOk b = true → (fieldAt b 6 1 = 1 ∨ fieldAt b 6 1 = 2) → keySigner s.fuses (fieldAt b 6 1) = true → verified = true →
        s.dev.time < fieldAt b 24 8 → ∃ u r, exec (.enrol t good) s = .next u ∧ endedWith s u t 0 ∧
          tfind (woField w 65 1) u.dev.ks.recips = some r ∧ r.id = (b.drop 8).take 16 ∧ r.notAfter = fieldAt b 24 8 ∧
          r.ec = (b.drop 32).take 97 ∧ r.kem = (b.drop 136).take 1568 ∧
          (∀ j, j ≠ woField w 65 1 → tfind j u.dev.ks.recips = tfind j s.dev.ks.recips))) ∧
    (∀ w, ksNext s.dev t .keyop 4 = some w → funcBusy s.dev w.func = false →
      let k := keySlotOf w
      (slotAt s.dev k = none → ∃ u, exec (.destroy t) s = .next u ∧ endedWith s u t 0x71) ∧
      (∀ x, slotAt s.dev k = some x → x.func ≠ w.func → ∃ u, exec (.destroy t) s = .next u ∧ endedWith s u t 0x42 ∧
        slotAt u.dev k = some x) ∧
      (∀ x, slotAt s.dev k = some x → x.func = w.func → ∃ u, exec (.destroy t) s = .next u ∧ endedWith s u t 0 ∧
        (s.dev.mag.clips.any (fun e => e.2.keySlot = k) = false → slotAt u.dev k = none) ∧
        (s.dev.mag.clips.any (fun e => e.2.keySlot = k) = true → slotAt u.dev k = some { x with destroy := true }) ∧
        (∀ j, j ≠ k → slotAt u.dev j = slotAt s.dev j))) ∧
    (∀ w good, ksNext s.dev t .keyop 5 = some w → funcBusy s.dev w.func = false →
      let b := bytesAt s.dev (out (woField w 88 4) (woField w 92 4)) 12496
      let verified := (importVerified s.fuses s.dev b good).2
      let ends := fun st => ∃ u, exec (.keyImport t good) s = .next u ∧ endedWith s u t st ∧ u.dev.ks = s.dev.ks
      (keyDsk s.fuses s.dev = false → ends 0x71) ∧
      (keyDsk s.fuses s.dev = true → loadable s.dev 32 (woField w 88 4) (woField w 92 4) 12496 = true →
        (importOk b = false → ends 0x31) ∧ (importOk b = true → verified = false → ends 0x70) ∧
        (importOk b = true → verified = true → freeKeySlot s.dev = none → ends 0x71) ∧
        (∀ k, importOk b = true → verified = true → freeKeySlot s.dev = some k → ∃ u x, exec (.keyImport t good) s = .next u ∧
          endedWith s u t 0 ∧ slotAt u.dev k = some x ∧ x.imported = true ∧ x.func = w.func ∧ x.keyId = fieldAt b 40 4 ∧
          x.key = Config.unwrapKey (Config.fused 4) (b.take 1832) ∧ x.clipId = (b.drop 24).take 16 ∧ (∀ j, j ≠ k → slotAt u.dev j = slotAt s.dev j)))) ∧
    (∀ w, ksNext s.dev t .keyop 6 = some w → funcBusy s.dev w.func = false →
      let n := woField w 66 1
      let mode := woField w 67 1
      let base := woField w 104 4 % 2 ^ 18 + (if mode = 0xFF then 0 else 2 ^ 31) + (if mode = 1 then 2 ^ 30 else 0)
      let limit := woField w 108 4 % 2 ^ 18 + n * 2 ^ 24
      ((regionWrite s.dev n base limit).2 = false → ∃ u, exec (.region t) s = .next u ∧ endedWith s u t 0x31 ∧
        u.dev.mem = s.dev.mem) ∧
      ((regionWrite s.dev n base limit).2 = true → ∃ u, exec (.region t) s = .next u ∧ endedWith s u t 0 ∧
        (regionRegs u.dev n).1 = base ∧ (∀ m, m ≠ n → tget 0 m u.dev.mem.keys = tget 0 m s.dev.mem.keys) ∧
        (mode ≠ 0xFF → ∀ a, woField w 104 4 % 2 ^ 18 * 2 ^ 20 ≤ a → a < (woField w 108 4 % 2 ^ 18 + 1) * 2 ^ 20 →
          cellAt a u.dev.mem.cells = unlisted a))) ∧
    (∀ w, ksNext s.dev t .seal 1 = some w → funcBusy s.dev w.func = false →
      (keyDsk s.fuses s.dev = false → ∃ u, exec (.sign t) s = .next u ∧ endedWith s u t 0x71 ∧ u.dev.mem = s.dev.mem) ∧
      (keyDsk s.fuses s.dev = true → loadable s.dev 32 (woField w 72 4) (woField w 76 4) (woField w 80 4) = true →
        storable s.dev 32 (woField w 84 4) (woField w 88 4) 3656 = true → s.dev.ks.devFpr.length = 48 → w.raw.length = 256 →
          ∃ u, exec (.sign t) s = .next u ∧ endedWith s u t 0 ∧
            cells u (out (woField w 84 4) (woField w 88 4)) (leBytes 4 0x54534753 ++ leBytes 2 1 ++ leBytes 1 ((lcState s.fuses).getD 7) ++
              leBytes 1 0 ++ leBytes 8 s.dev.time ++
              leBytes 48 (Config.sha384 (bytesAt s.dev (out (woField w 72 4) (woField w 76 4)) (woField w 80 4))) ++
              (w.raw.drop 96).take 32 ++ leBytes 48 s.dev.ks.fwMeas ++ s.dev.ks.devFpr ++ leBytes 2 w.ctx ++ leBytes 1 w.func) ∧
            (∀ a, a < out (woField w 84 4) (woField w 88 4) ∨ out (woField w 84 4) (woField w 88 4) + 3656 ≤ a →
              cellAt a u.dev.mem.cells = cellAt a s.dev.mem.cells))) ∧
    (∀ w x, ksNext s.dev t .seal 2 = some w → funcBusy s.dev w.func = false → slotAt s.dev (keySlotOf w) = some x → x.func = w.func →
      keyClip s.fuses s.dev = true → loadable s.dev 32 (woField w 72 4) (woField w 76 4) 256 = true →
      let h := bytesAt s.dev (out (woField w 72 4) (woField w 76 4)) 256
      let n := fieldAt h 56 8
      let blocks := fieldAt h 40 4
      let ends := fun st => ∃ u, exec (.openRecord t) s = .next u ∧ endedWith s u t st ∧ u.dev.mem = s.dev.mem
      (fieldAt h 0 4 ≠ 0x44435246 ∨ fieldAt h 76 4 ≠ x.keyId ∨ blocks ≠ recBlocks n → ends 0x70) ∧
      (fieldAt h 0 4 = 0x44435246 → fieldAt h 76 4 = x.keyId → blocks = recBlocks n →
        loadable s.dev 32 (woField w 72 4) (woField w 76 4) (blocks * 4096) = true →
        let r := bytesAt s.dev (out (woField w 72 4) (woField w 76 4)) (blocks * 4096)
        let ct := (r.drop 256).take n
        let tag := fieldAt r (blocks * 4096 - 64) 16
        (tag = 0 ∨ Config.gcmTag x.key (fieldAt h 64 12) h ct ≠ tag → ends 0x70) ∧
        (tag ≠ 0 → Config.gcmTag x.key (fieldAt h 64 12) h ct = tag → storable s.dev 32 (woField w 84 4) (woField w 88 4) n = true →
          ∃ u, exec (.openRecord t) s = .next u ∧ endedWith s u t 0 ∧
            cells u (out (woField w 84 4) (woField w 88 4)) (padTo n (Config.aes256 x.key (fieldAt h 64 12) ct)) ∧
            (∀ a, a < out (woField w 84 4) (woField w 88 4) ∨ out (woField w 84 4) (woField w 88 4) + n ≤ a →
              cellAt a u.dev.mem.cells = cellAt a s.dev.mem.cells))))

/-- R430, R433, R450–R456. -/
def Obligations.FusesAndTamper : Prop :=
  (∀ (s : State) (who : Who) (n : Nat) (good : Bool),
    let k := n % 4
    let run := min 63 (tget 0 k s.dev.ks.run)
    (ctlGrant s.dev who 0x100050 4 true = true → isPf s.dev who = true →
      (run ≤ arbCount s.fuses k → exec (.ksArbCommit who n good) s = .next (after s s.dev)) ∧
      (arbCount s.fuses k < run → good = true → ∃ u, exec (.ksArbCommit who n good) s = .next u ∧ arbCount u.fuses k = run ∧
        (∀ m, m < 4 → m ≠ k → arbCount u.fuses m = arbCount s.fuses m) ∧ u.fuses.lcA = s.fuses.lcA ∧ u.fuses.lcB = s.fuses.lcB ∧
        u.dev.plumb = s.dev.plumb ∧ u.dev.mem = s.dev.mem) ∧
      (arbCount s.fuses k < run → good = false → ∃ u, exec (.ksArbCommit who n good) s = .next u ∧
        arbCount s.fuses k ≤ arbCount u.fuses k ∧ arbCount u.fuses k < run ∧ (s.dev.plumb.recs = [] → reported u 437 k))) ∧
    (ctlGrant s.dev who 0x100050 4 true = false ∨ isPf s.dev who = false →
      exec (.ksArbCommit who n good) s = .next (after s s.dev))) ∧
  (∀ (s : State) (who : Who) (sigOk : SigOk), ctlGrant s.dev who 0x100024 4 true = true → isPf s.dev who = true →
    let h := reg s.dev 0x100020 0
    let b := bytesAt s.dev (bufBase s.dev (handleIdx h)) 3584
    let ends := fun st => ∃ u, exec (.lcRequestGo who sigOk) s = .next u ∧ u.dev.ks.req = none ∧ u.dev.ks.lcStatus = st ∧
      u.fuses = s.fuses ∧ u.dev.mem = s.dev.mem
    (s.dev.ks.req.isSome = true → exec (.lcRequestGo who sigOk) s = .next (after s s.dev)) ∧
    (s.dev.ks.req = none →
      (∀ st, st ≠ 0 → handleStatus s.dev (funcOwner 0) h = st → ends st) ∧
      (handleStatus s.dev (funcOwner 0) h = 0 → loadable s.dev 32 h 0 3584 = true →
        let verified := (hybridOk s.dev (signerKey s.fuses (fieldAt b 7 1)) (b.take 128) (b.drop 128) sigOk).2
        let good := verified = true ∧ fieldAt b 8 16 = s.dev.ks.nonce % 2 ^ 128 ∧
          (b.drop 24).take 48 = (if lcState s.fuses = some 0 then leBytes 48 0 else s.dev.ks.devFpr)
        (lcImageOk b = false → ends 0x31) ∧
        (lcImageOk b = true → lcPermitted s.fuses (fieldAt b 6 1) (fieldAt b 7 1) = false → ends 0x71) ∧
        (lcImageOk b = true → lcPermitted s.fuses (fieldAt b 6 1) (fieldAt b 7 1) = true → ¬ good → ends 0x70) ∧
        (lcImageOk b = true → lcPermitted s.fuses (fieldAt b 6 1) (fieldAt b 7 1) = true → good →
          ∃ u r, exec (.lcRequestGo who sigOk) s = .next u ∧ u.dev.ks.req = some r ∧ r.target = fieldAt b 6 1 ∧
            r.maker = fieldAt b 72 48 ∧ r.blowing = (fieldAt b 6 1 == 0x10) ∧ r.wiped = (fieldAt b 6 1 != 0x10) ∧ u.fuses = s.fuses)))) ∧
  (∀ (s : State),
    (s.dev.ks.req = none → exec .lcRequestDone s = .next (after s s.dev)) ∧
    (∀ r, s.dev.ks.req = some r →
      (r.blowing = false → s.dev.mag.emerg ≠ [] → exec .lcRequestDone s = .next (after s s.dev)) ∧
      (r.blowing = false → s.dev.mag.emerg = [] → ∃ u, exec .lcRequestDone s = .next u ∧ u.fuses = s.fuses ∧
        u.dev.ks.req = some { r with blowing := true } ∧ u.dev.mem.cells = [] ∧ u.dev.ctxs = [] ∧ u.dev.wos = [] ∧ u.dev.tickets = [] ∧
        u.dev.mag.clips = []) ∧
      (r.blowing = true → ∃ u, exec .lcRequestDone s = .next u ∧ u.fuses.lcA = s.fuses.lcA ||| lcCode r.target ∧
        u.fuses.lcB = s.fuses.lcB ||| lcCode r.target ∧ u.dev.ks.req = none ∧ (∀ m, arbCount u.fuses m = arbCount s.fuses m) ∧
        (r.target = 0x10 → u.fuses.makerSet = true ∧ u.fuses.makerHash = r.maker) ∧
        (r.wiped = true → u.dev.crp.stage = 0 ∧ u.dev.crp.cause = s.dev.crp.cause ||| 2 ^ 29 ∧ u.dev.time = 0) ∧
        (r.wiped = false → u.dev.ks.lcStatus = 0 ∧ u.dev.time = s.dev.time ∧ u.dev.mem = s.dev.mem)))) ∧
  (∀ (s : State) (src : Nat),
    (7 ≤ src ∨ (src < 4 ∧ bitOf (tamperEn s.fuses s.dev) src = false) → exec (.tamperEvent src) s = .next (after s s.dev)) ∧
    (src < 7 → (src < 4 → bitOf (tamperEn s.fuses s.dev) src = true) → ∃ u, exec (.tamperEvent src) s = .next u ∧ u.fuses = s.fuses ∧
      u.dev.ks.tamper = s.dev.ks.tamper ||| 2 ^ src ∧ u.dev.ks.latched = true ∧ u.dev.mem.absWiping = true ∧ u.dev.mem.keys = [] ∧
      (s.dev.mem.absWiping = false → u.dev.ks.slots = [] ∧ u.dev.ks.recips = []) ∧
      (∀ a, a < 0x080000000000 → cellAt a u.dev.mem.cells = none) ∧
      (s.dev.mem.absWiping = false → ∀ a, 0x080010000000 ≤ a → a < 0x080010200000 → cellAt a u.dev.mem.cells = some 0) ∧
      (∀ a, (0x080000000000 ≤ a ∧ a < 0x080010000000) ∨ 0x080010200000 ≤ a → cellAt a u.dev.mem.cells = cellAt a s.dev.mem.cells) ∧
      (s.dev.mag.emerg = [] → ∃ e, u.dev.mag.emerg = [e] ∧ e.reason = 6) ∧
      (s.dev.plumb.recs = [] → reported u 438 ((s.dev.ks.tamper ||| 2 ^ src) + 2 ^ 31)) ∧
      (s.dev.plumb.recs = [] → bitsOf (plumbCfg s.dev 438) 31 29 = 4 → keyClip u.fuses u.dev = false ∧ keyDsk u.fuses u.dev = false) ∧
      (∀ r, s.dev.ks.req = some r → u.dev.ks.req = if r.blowing then some r else none)))

/-- R2, R457–R465, R509, R510. -/
def Obligations.FaultReports : Prop :=
  (∀ (s : State) (n detail : Nat), (n < 144 ∨ 240 ≤ n) → n ≠ 433 → n ≠ 443 →
    let cfg := plumbCfg s.dev n
    let e := escAt s.dev n
    let escN := bitsOf cfg 23 16
    let open_ := max 1 (bitsOf cfg 15 0) * 1000000
    (448 ≤ n → exec (.plumbEvent n detail) s = .next (after s s.dev)) ∧
    (n < 448 → escN = 0 → e.raise = 0 → bitsOf cfg 31 29 ≤ 4 →
      let cls := bitsOf cfg 31 29
      let bound := if cls < 3 then 56 else 64
      (∀ i, openSlot s.dev n = none → freeSlot s.dev.plumb.recs bound = some i → ∃ u, exec (.plumbEvent n detail) s = .next u ∧
        tfind i u.dev.plumb.recs = some { firstTime := s.dev.time, lastTime := s.dev.time, source := n, cls := cls, merged := false
                                          raised := false, count := 1, detail := detail, int := bitOf cfg 28
                                          nmi := bitOf cfg 27 || decide (3 ≤ cls), fault := bitOf cfg 24 || decide (3 ≤ cls) } ∧
        (∀ j, j ≠ i → tfind j u.dev.plumb.recs = tfind j s.dev.plumb.recs) ∧ u.dev.plumb.ovf = s.dev.plumb.ovf) ∧
      (∀ i r, openSlot s.dev n = some i → tfind i s.dev.plumb.recs = some r → ∃ u x, exec (.plumbEvent n detail) s = .next u ∧
        tfind i u.dev.plumb.recs = some x ∧ x.firstTime = r.firstTime ∧ x.lastTime = s.dev.time ∧ x.source = r.source ∧
        x.cls = max r.cls cls ∧ x.merged = true ∧ x.count = min 0xFFFFFFFF (r.count + 1) ∧ x.detail = detail ∧
        (∀ j, j ≠ i → tfind j u.dev.plumb.recs = tfind j s.dev.plumb.recs)) ∧
      (openSlot s.dev n = none → freeSlot s.dev.plumb.recs bound = none → ∃ u, exec (.plumbEvent n detail) s = .next u ∧
        u.dev.plumb.recs = s.dev.plumb.recs ∧ u.dev.plumb.ovf = true) ∧
      (∃ u, exec (.plumbEvent n detail) s = .next u ∧
        ((bitOf cfg 25 = true ∨ cls = 3) → u.dev.plumb.chip = some (s.dev.plumb.chip.getD n)) ∧
        (bitOf cfg 25 = false → cls ≠ 3 → u.dev.plumb.chip = s.dev.plumb.chip))) ∧
    (n < 448 → escN ≠ 0 → ∃ u, exec (.plumbEvent n detail) s = .next u ∧
      (e.count ≠ 0 → s.dev.up ≤ e.start + open_ → e.count + 1 < escN → escAt u.dev n = { e with count := e.count + 1 }) ∧
      (e.count ≠ 0 → s.dev.up ≤ e.start + open_ → escN ≤ e.count + 1 →
        escAt u.dev n = { e with count := 0, raise := min 3 (e.raise + 1) }) ∧
      (e.count = 0 ∨ e.start + open_ < s.dev.up → 1 < escN → escAt u.dev n = { e with count := 1, start := s.dev.up }) ∧
      (∀ m, m ≠ n → escAt u.dev m = escAt s.dev m))) ∧
  (∀ (s : State) (r : Nat), ∃ u, exec (.fabricTimeout r) s = .next u ∧ exec (.plumbEvent 444 r) s = .next u) ∧
  (∀ (s : State) (who : Who) (n : Nat),
    (ctlGrant s.dev who 0x200008 4 true = true →
      (∀ r, tfind (n % 64) s.dev.plumb.recs = some r → r.cls ≠ 4 → ∃ u, exec (.plumbRecClose who n) s = .next u ∧
        tfind (n % 64) u.dev.plumb.recs = none ∧ (∀ j, j ≠ n % 64 → tfind j u.dev.plumb.recs = tfind j s.dev.plumb.recs)) ∧
      (∀ r, tfind (n % 64) s.dev.plumb.recs = some r → r.cls = 4 → exec (.plumbRecClose who n) s = .next (after s s.dev)) ∧
      (tfind (n % 64) s.dev.plumb.recs = none → exec (.plumbRecClose who n) s = .next (after s s.dev))) ∧
    (n < 512 → ctlGrant s.dev who (0x202000 + 4 * n) 4 true = true → ∃ u, exec (.plumbSrcClear who n) s = .next u ∧
      escAt u.dev n = { count := 0, start := 0, raise := 0 } ∧ (∀ m, m ≠ n → escAt u.dev m = escAt s.dev m) ∧
      u.dev.plumb.recs = s.dev.plumb.recs)) ∧
  (∀ (s : State) (who : Who) (v : Word32), ctlGrant s.dev who 0x200014 4 true = true →
    (v = 0x4B1C → s.dev.plumb.wdEn = true → s.dev.plumb.wdStopped = false → ∃ u, exec (.wdogKick who v) s = .next u ∧
      u.dev.plumb = { s.dev.plumb with wdAt := s.dev.up + max 1 s.dev.plumb.wdMs * 1000000, wdSecond := false }) ∧
    (v = 0x4B1C → s.dev.plumb.wdEn = false ∨ s.dev.plumb.wdStopped = true → exec (.wdogKick who v) s = .next (after s s.dev)) ∧
    (v ≠ 0x4B1C → ∃ u, exec (.wdogKick who v) s = .next u ∧
      u.dev.plumb = { s.dev.plumb with wdBad := (s.dev.plumb.wdBad + 1) % 128 })) ∧
  (∀ (s : State),
    (s.dev.plumb.wdEn = false ∨ s.dev.plumb.wdStopped = true ∨ s.dev.up < s.dev.plumb.wdAt →
      exec .wdogExpire s = .next (after s s.dev)) ∧
    (s.dev.plumb.wdEn = true → s.dev.plumb.wdStopped = false → s.dev.plumb.wdAt ≤ s.dev.up → ∃ u, exec .wdogExpire s = .next u ∧
      (s.dev.plumb.wdSecond = false → u.dev.plumb.wdSecond = true ∧ u.dev.plumb.wdStopped = false ∧
        u.dev.plumb.wdAt = s.dev.up + max 1 s.dev.plumb.wdMs * 1000000 ∧ (s.dev.plumb.recs = [] → reported u 445 0)) ∧
      (s.dev.plumb.wdSecond = true → u.dev.plumb.wdStopped = true ∧ (s.dev.plumb.recs = [] → reported u 446 0)))) ∧
  (∀ (s : State) (v : BitVec 16), ∃ u, exec (.tempUpdate v) s = .next u ∧ u.dev.temp = v.toNat ∧ u.dev.tempValid = true ∧
    u.dev.regs = s.dev.regs ∧ u.dev.mem = s.dev.mem) ∧
  (∀ (s : State),
    (∃ u, exec (.tapInstruction .idcode) s = .next u ∧ sends s u (.tap 0x14960557) ∧ u.dev.mem = s.dev.mem) ∧
    (∀ op, op = .extest ∨ op = .extestPulse ∨ op = .extestTrain → ∃ u, exec (.tapInstruction op) s = .next u ∧
      u.dev.tap.bypass = !s.dev.crp.resetHeld ∧ u.dev.tap.ir = if s.dev.crp.resetHeld then tapCode op else 0) ∧
    (∃ u, exec (.tapInstruction .debug) s = .next u ∧ u.dev.tap.bypass = debugLocked s.fuses) ∧
    (∃ u, exec (.tapInstruction .sample) s = .next u ∧ u.dev.tap.bypass = false) ∧
    (∃ u, exec (.tapInstruction .bypass) s = .next u ∧ u.dev.tap.bypass = true)) ∧
  (∀ (s : State) (f : Nat), ctlGrant s.dev (.host f) 8 4 false = true → ∃ u, exec (.topTimeReadLo (.host f)) s = .next u ∧
    sends s u (.hostData f (leBytes 4 (s.dev.time % 2 ^ 32)) false) ∧ tget 0 f u.dev.timeLatch = s.dev.time / 2 ^ 32 ∧
    u.dev.time = s.dev.time)

/-- R485–R491. -/
def Obligations.PerformanceMonitor : Prop :=
  (∀ (s : State) (who : Who), ctlGrant s.dev who 0x500000 4 true = true → bitOf (reg s.dev 0x500000 0) 29 = false →
    (∀ on, ∃ u, exec (.perfFreeze who on) s = .next u ∧ bitOf (reg u.dev 0x500000 0) 30 = on ∧
      bitOf (reg u.dev 0x500000 0) 31 = bitOf (reg s.dev 0x500000 0) 31 ∧ u.dev.perf = s.dev.perf ∧
      (∀ o x, o ≠ 0x500000 → reg u.dev o x = reg s.dev o x)) ∧
    (∃ u, exec (.perfClear who) s = .next u ∧ (∀ k, tget 0 k u.dev.perf.cnt = 0) ∧
      bitOf (reg u.dev 0x500000 0) 30 = bitOf (reg s.dev 0x500000 0) 30 ∧ u.dev.perf = { s.dev.perf with cnt := [] })) ∧
  (∀ (s : State),
    let cfg := reg s.dev 0x500004 1000
    let ring := bitsOf cfg 28 16
    let r := ringAt s.dev ring
    (bitOf cfg 31 = false ∨ s.dev.time < s.dev.perf.dumpAt → exec .perfDump s = .next (after s s.dev)) ∧
    (bitOf cfg 31 = true → s.dev.perf.dumpAt ≤ s.dev.time → r.sound = true →
      (unitRing s.dev ring = true → 129 ≤ r.room → r.hostWait = [] → ∃ u l, exec .perfDump s = .next u ∧
        (ringAt u.dev ring).entries = r.entries ++ l ∧ l.length = 129 ∧ (∀ h, l.head? = some h → fieldAt h.data 0 4 = 0xFFFFFC00 ∧ h.sop = true) ∧
        (∀ i, i < 128 → ∃ e, l[i + 1]? = some e ∧ e.eop = (i == 127) ∧
          e.data = (upto (4 * i) 4).flatMap (fun k => leBytes 8 (tget 0 k s.dev.perf.cnt))) ∧
        u.dev.perf.dumps = (s.dev.perf.dumps + 1) % 2 ^ 32 ∧ u.dev.perf.dumpLost = s.dev.perf.dumpLost) ∧
      (unitRing s.dev ring = false ∨ r.room < 129 → ∃ u, exec .perfDump s = .next u ∧ u.dev.rings = s.dev.rings ∧
        u.dev.perf.dumpLost = (s.dev.perf.dumpLost + 1) % 65536 ∧ s.dev.time < u.dev.perf.dumpAt))) ∧
  (∀ (s : State),
    (s.dev.perf.samples = [] → exec .perfSample s = .next (after s s.dev)) ∧
    (∀ x rest, s.dev.perf.samples = x :: rest →
      let cfg := reg s.dev 0x500008 0
      let ring := bitsOf cfg 12 0
      let r := ringAt s.dev ring
      (bitOf cfg 31 = true → unitRing s.dev ring = true → r.sound = true → 1 ≤ r.room → r.tail < 8 → r.hostWait = [] →
        ∃ u e, exec .perfSample s = .next u ∧ (ringAt u.dev ring).entries = r.entries ++ [e] ∧ fieldAt e.data 0 4 = 0xFFFFFC01 ∧
          fieldAt e.data 4 2 = x.counter % 2 ^ 16 ∧ fieldAt e.data 6 1 = x.flags % 256 ∧ fieldAt e.data 8 8 = x.time % 2 ^ 64 ∧
          fieldAt e.data 16 8 = x.where0 % 2 ^ 64 ∧ u.dev.perf.samples = rest ∧ u.dev.perf.sampleLost = s.dev.perf.sampleLost) ∧
      (bitOf cfg 31 = false ∨ unitRing s.dev ring = false → ∃ u, exec .perfSample s = .next u ∧ u.dev.perf.samples = rest ∧
        u.dev.perf.sampleLost = (s.dev.perf.sampleLost + 1) % 65536 ∧ u.dev.rings = s.dev.rings))) ∧
  (∀ (s : State),
    (bitOf (reg s.dev 0x500018 1000) 31 = true → s.dev.perf.winAt ≤ s.dev.time → ∃ u, exec .perfBwWindow s = .next u ∧
      u.dev.perf.lastRd = s.dev.perf.rd ∧ u.dev.perf.lastWr = s.dev.perf.wr ∧ u.dev.perf.rd = [] ∧ u.dev.perf.wr = [] ∧
      u.dev.perf.short = false ∧ s.dev.time < u.dev.perf.winAt) ∧
    (bitOf (reg s.dev 0x500018 1000) 31 = false ∨ s.dev.time < s.dev.perf.winAt → exec .perfBwWindow s = .next (after s s.dev)))

/-- R432, R473–R475, R479, R501. -/
def Obligations.ResetAndBoot : Prop :=
  let cleared := fun (u : State) => u.dev.ctxs = [] ∧ u.dev.wos = [] ∧ u.dev.tickets = [] ∧ u.dev.rings = [] ∧ u.dev.recs = [] ∧
    u.dev.yard.en = false ∧ u.dev.mem.cells = [] ∧ u.dev.dma = [] ∧ u.dev.crp.stage = 0 ∧ u.dev.crp.zeroDone = false ∧
    u.dev.crp.pwr = .active ∧ u.dev.perf.cnt = [] ∧ u.dev.host.vfEnable = false ∧ u.dev.host.link = .down
  (∀ (s : State),
    exec (.por false) s = .fault .aonUndefined ∧
    ∃ u, exec (.por true) s = .next u ∧ cleared u ∧ u.dev.plumb = Plumb.reset ∧ u.dev.time = 0 ∧ u.dev.regs = [] ∧
      u.dev.crp.resetHeld = true ∧ u.dev.crp.cause = 0x80000000 ∧ u.dev.ks.latched = false ∧ u.dev.ks.slots = [] ∧
      (lcBlowing s.dev = none → u.fuses = s.fuses)) ∧
  (∀ (s : State),
    (∃ u, exec (.coldReset true) s = .next u ∧ cleared u ∧ .pin "XSPI_RESET_N" false ∈ u.dev.out ∧ u.dev.crp.xspiLow.isSome = true ∧ u.dev.time = 0 ∧ u.dev.regs = [] ∧ u.dev.crp.resetHeld = true ∧
      u.dev.crp.cause = s.dev.crp.cause ||| 2 ^ 30 ∧ u.dev.plumb.recs = s.dev.plumb.recs.filter (fun r => r.2.cls == 4) ∧
      u.dev.plumb.cfg = s.dev.plumb.cfg ∧ u.dev.plumb.wdEn = false ∧ u.dev.ks.latched = s.dev.ks.latched ∧ u.dev.ks.slots = [] ∧
      u.dev.mag.emerg = [] ∧ (lcBlowing s.dev = none → u.fuses = s.fuses) ∧ (∀ r, lcBlowing s.dev = some r → u.fuses = blowFuses s.fuses r)) ∧
    (s.dev.crp.resetHeld = true → ∃ u, exec (.coldReset false) s = .next u ∧ u.dev.crp.resetHeld = false ∧ u.dev.time = 0 ∧
      u.dev.crp.xspiLow = some (s.dev.up + 10000) ∧ u.dev.crp.upAt = s.dev.up ∧ u.fuses = s.fuses ∧ u.dev.plumb = s.dev.plumb) ∧
    (s.dev.crp.resetHeld = false → exec (.coldReset false) s = .next (after s s.dev))) ∧
  (∀ (s : State), s.dev.crp.resetHeld = false →
    let warm := fun (u : State) (cause : Nat) => cleared u ∧ u.dev.time = s.dev.time ∧ u.dev.crp.cause = s.dev.crp.cause ||| 2 ^ cause ∧
      u.dev.plumb.recs = s.dev.plumb.recs ∧ u.dev.plumb.cfg = s.dev.plumb.cfg ∧ u.dev.plumb.chip = none ∧ u.dev.plumb.wdEn = false ∧
      u.dev.crp.pending = false ∧ u.dev.mag.clips = [] ∧ u.fuses = s.fuses ∧
      (∀ k, k < 256 → reg u.dev (0x1001000 + 4 * k) 0 = reg s.dev (0x1001000 + 4 * k) 0) ∧
      (∀ o x, o < 0x1001000 ∨ 0x1001400 ≤ o → reg u.dev o x = x)
    (s.dev.plumb.chip = none → s.dev.crp.pending = false → exec .warmReset s = .next (after s s.dev)) ∧
    (lcBlowing s.dev = none →
      (s.dev.plumb.chip = none → s.dev.crp.pending = true → ∃ u, exec .warmReset s = .next u ∧ warm u 28) ∧
      (∀ n, s.dev.plumb.chip = some n → s.dev.mag.emerg = [] → ∃ u, exec .warmReset s = .next u ∧ warm u 27 ∧
        u.dev.plumb.causeChip = true ∧ u.dev.plumb.causeSource = n)) ∧
    (∀ n, s.dev.plumb.chip = some n → s.dev.mag.emerg ≠ [] → exec .warmReset s = .next (after s s.dev))) ∧
  (∀ (s : State) (who : Who) (v : Word32), isAdmin s.dev who = true → ctlGrant s.dev who 0x6000010 4 true = true →
    (v.toNat / 2 ^ 16 = 0x5752 → v.getLsbD 0 = true → ∃ u, exec (.crpResetCtrlWarm who v) s = .next u ∧
      u.dev.crp = { s.dev.crp with pending := true } ∧ u.dev.mem = s.dev.mem ∧ u.dev.ctxs = s.dev.ctxs) ∧
    (v.toNat / 2 ^ 16 ≠ 0x5752 ∨ v.getLsbD 0 = false → exec (.crpResetCtrlWarm who v) s = .next (after s s.dev))) ∧
  (∀ (s : State) (xtal : Bool),
    (s.dev.crp.resetHeld = true → exec (.zeroDone xtal) s = .next (after s s.dev)) ∧
    (s.dev.crp.resetHeld = false → ∃ u, exec (.zeroDone xtal) s = .next u ∧
      u.dev.crp = { s.dev.crp with zeroDone := true, rootLock := true, xtalOk := xtal })) ∧
  (∀ (s : State), s.dev.crp.resetHeld = false →
    (∀ flash a b record, s.dev.crp.stage = 0 → s.dev.crp.xspiLow = none →
      ∃ u, exec (.bootStageAdvance (.firmware flash a b record)) s = .next u ∧ u.fuses = s.fuses ∧
      let okA := (copyRuns s.fuses s.dev a).2
      let okB := (copyRuns s.fuses (copyRuns s.fuses s.dev a).1 b).2
      (lcState s.fuses = none → u.dev.crp.stage = 15 ∧ u.dev.ks.stopped = true ∧ u.dev.ks.bootOk = s.dev.ks.bootOk) ∧
      (lcState s.fuses ≠ none → okA = true → u.dev.crp.stage = 1 ∧ u.dev.crp.fail = 0 ∧ u.dev.ks.copy = 0 ∧
        u.dev.ks.bootOk = true ∧ u.dev.ks.fwMeas = copyMeas a ∧ copyVersion a ≤ tget 0 0 u.dev.ks.run ∧ u.dev.plumb = s.dev.plumb) ∧
      (lcState s.fuses ≠ none → okA = false → okB = true → u.dev.crp.stage = 1 ∧ u.dev.ks.copy = 1 ∧
        u.dev.ks.fwMeas = copyMeas b ∧ (s.dev.plumb.recs = [] → reported u 435 0)) ∧
      (lcState s.fuses ≠ none → okA = false → okB = false → u.dev.crp.stage = 15 ∧ u.dev.crp.fail = 1) ∧
      (lcState s.fuses ≠ none → u.dev.crp.header = flash.header ∧ (flash.octal = none → u.dev.crp.xspi = .single 25) ∧
        (∀ n, flash.octal = some n → fieldAt flash.header 0 4 = 0x48445142 → 25 ≤ fieldAt flash.header 5 2 → fieldAt flash.header 5 2 ≤ 200 →
          u.dev.crp.xspi = if fieldAt flash.header 4 1 = 1 then .octal (fieldAt flash.header 5 2) n else .single (fieldAt flash.header 5 2)))) ∧
    (∀ flash a b record t, s.dev.crp.xspiLow = some t → exec (.bootStageAdvance (.firmware flash a b record)) s = .next (after s s.dev)) ∧
    (∀ failed, s.dev.crp.stage = 1 → ∃ u, exec (.bootStageAdvance (.dram failed)) s = .next u ∧
      ((∃ c, c < 32 ∧ c ∈ failed) → u.dev.crp.stage = 15 ∧ u.dev.crp.fail = 2) ∧
      ((∀ c, c < 32 → c ∉ failed) → memCfgOk (setBits (memCfg s.dev) 27 16 (fieldAt s.dev.crp.header 8 2 &&& 0xF87)) = true → u.dev.crp.stage = 2 ∧
        bitOf (memCfg u.dev) 31 = true ∧ ∀ n, n < 16 → (dmcAt u.dev n).ready = true)) ∧
    (s.dev.crp.stage = 2 → s.dev.crp.zeroDone = true → ∃ u, exec (.bootStageAdvance .hostReady) s = .next u ∧ u.dev.crp.stage = 3 ∧
      u.dev.mem = s.dev.mem) ∧
    (s.dev.crp.stage ≠ 2 ∨ s.dev.crp.zeroDone = false → exec (.bootStageAdvance .hostReady) s = .next (after s s.dev)) ∧
    (∀ b sigOk, s.dev.crp.stage = 3 → s.dev.yard.en = false →
      (bootBlockOk b = false ∨ keySigner s.fuses (fieldAt b 16 1) = false ∨
        (hybridOk s.dev (signerKey s.fuses (fieldAt b 16 1)) (b.take 320) ((b.drop 320).take 3456) sigOk).2 = false) →
      ∃ u, exec (.bootStageAdvance (.config b sigOk)) s = .next u ∧ u.dev.crp.stage = 3 ∧ u.dev.crp.fail = 3 ∧ u.dev.yard = s.dev.yard) ∧
    (∀ image sigOk, s.dev.crp.stage = 4 → bitOf (fieldAt s.dev.ks.boot 6 1) 0 = false →
      exec (.bootStageAdvance (.program image sigOk)) s = .next (after s s.dev)))

/-- R480–R483, R502. -/
def Obligations.PowerStates : Prop :=
  (∀ (s : State) (who : Who), ctlGrant s.dev who 0x6000030 4 true = true → isPf s.dev who = true →
    (∃ u, exec (.pwrReqStandby who) s = .next u ∧ u.dev.crp.req = 1 ∧
      u.dev.crp.pwr = (if s.dev.crp.pwr = .active then .enterStandby else s.dev.crp.pwr) ∧ u.dev.mem = s.dev.mem ∧ u.dev.ctxs = s.dev.ctxs) ∧
    (∃ u, exec (.pwrReqActive who) s = .next u ∧ u.dev.crp.req = 0 ∧
      (s.dev.crp.pwr = .active ∨ s.dev.crp.pwr = .enterStandby ∨ s.dev.crp.pwr = .standby ∨ s.dev.crp.pwr = .saving → u.dev.crp.pwr = .active) ∧
      (s.dev.crp.pwr = .sleep → u.dev.crp.pwr = .sleep)) ∧
    (s.dev.crp.pwr = .active ∨ s.dev.crp.pwr = .standby →
      (∀ why, why ≠ 0 → sleepRefusal s.dev = why → ∃ u, exec (.pwrReqSleep who) s = .next u ∧ u.dev.crp.pwr = s.dev.crp.pwr ∧
        u.dev.crp.refuse = why ∧ u.dev.yard = s.dev.yard) ∧
      ((∃ e ∈ s.dev.tickets, tkOpen e = true) → sleepRefusal s.dev = 1) ∧
      (s.dev.tickets = [] → s.dev.mag.clips ≠ [] → sleepRefusal s.dev = 2) ∧
      (s.dev.tickets = [] → s.dev.mag.clips = [] → ((funcAt s.dev 0).d = .d0 ∨ s.dev.host.pmeOff = false) → sleepRefusal s.dev = 3) ∧
      (sleepRefusal s.dev = 0 → ∃ u, exec (.pwrReqSleep who) s = .next u ∧ u.dev.crp.pwr = .saving ∧ u.dev.crp.req = 2 ∧
        (bufAt u.dev (handleIdx (saveHandle s.dev))).holds = (bufAt s.dev (handleIdx (saveHandle s.dev))).holds + 1))) ∧
  (∀ (s : State),
    let b := bufBase s.dev (handleIdx (saveHandle s.dev))
    (s.dev.crp.pwr = .enterStandby → trussBusy s.dev = false → ∃ u, exec .standbyEnter s = .next u ∧ u.dev.crp.pwr = .standby ∧
      u.dev.regs = s.dev.regs) ∧
    (s.dev.crp.pwr ≠ .enterStandby ∨ trussBusy s.dev = true → exec .standbyEnter s = .next (after s s.dev)) ∧
    (s.dev.crp.pwr = .saving → ∃ u, exec .sleepEnter s = .next u ∧ u.dev.crp.pwr = .sleep ∧ u.dev.crp.sleepAt = s.dev.up ∧
      (b, b + saveBytes) ∈ u.dev.mem.saved ∧
      .pin "SLEEP_N" false ∈ u.dev.out ∧ u.dev.ctxs = s.dev.ctxs ∧ u.dev.rings = s.dev.rings ∧ u.dev.time = s.dev.time ∧
      (∀ a, 0x081000000000 ≤ a → a < 0x081006000000 → cellAt a u.dev.mem.cells = some 0) ∧
      (∀ a, b ≤ a → a < b + saveBytes → a < 0x080000000000 → cellAt a u.dev.mem.cells = none) ∧
      (∀ a, a < 0x081000000000 → (a < b ∨ b + saveBytes ≤ a) → cellAt a u.dev.mem.cells = cellAt a s.dev.mem.cells)) ∧
    (s.dev.crp.pwr ≠ .saving → exec .sleepEnter s = .next (after s s.dev))) ∧
  (∀ (s : State) (src : Nat),
    (wakeOn s.dev src = false → exec (.sleepWake src) s = .next (after s s.dev)) ∧
    (wakeOn s.dev src = true → s.dev.crp.pwr = .saving → ∃ u, exec (.sleepWake src) s = .next u ∧ u.dev.crp.pwr = .active ∧
      u.dev.crp.refuse = 6) ∧
    (wakeOn s.dev src = true → s.dev.crp.pwr = .sleep → ∃ u, exec (.sleepWake src) s = .next u ∧ u.dev.crp.pwr = .waking ∧
      sends s u (.pin "SLEEP_N" true)) ∧
    (s.dev.crp.pwr = .active → exec (.sleepWake src) s = .next (after s s.dev))) ∧
  (∀ (s : State) (ok : Bool),
    (s.dev.crp.pwr ≠ .waking → exec (.sleepExitDone ok) s = .next (after s s.dev)) ∧
    (s.dev.crp.pwr = .waking → (ok = false ∨ s.dev.crp.saveOk = false) → ∃ u, exec (.sleepExitDone ok) s = .next u ∧
      u.dev.crp.cause = s.dev.crp.cause ||| 2 ^ 26 ∧ u.dev.crp.stage = 0 ∧ u.dev.time = 0 ∧ u.dev.ctxs = []) ∧
    (s.dev.crp.pwr = .waking → ok = true → s.dev.crp.saveOk = true → coarseBound s.dev ≤ s.dev.time →
      s.dev.time + coarseBound s.dev < 2 ^ 64 → ∃ u, exec (.sleepExitDone ok) s = .next u ∧ u.dev.crp.pwr = .active ∧
        u.dev.crp.coarse = true ∧ s.dev.time ≤ u.dev.time + coarseBound s.dev ∧ u.dev.time ≤ s.dev.time + coarseBound s.dev ∧
        u.dev.ctxs = s.dev.ctxs ∧ u.dev.rings = s.dev.rings)) ∧
  (∀ (s : State),
    (s.dev.crp.aonDown = true → exec .aonSupplyLoss s = .next (after s s.dev)) ∧
    (s.dev.crp.aonDown = false → ∃ u, exec .aonSupplyLoss s = .next u ∧ u.dev.crp.aonDown = true ∧ u.dev.plumb = Plumb.reset ∧
      u.dev.ks.slots = [] ∧ u.dev.ks.recips = [] ∧ u.dev.ks.latched = s.dev.ks.latched ∧ u.dev.crp.glitch = (s.dev.crp.glitch || !s.dev.crp.resetHeld) ∧
      u.dev.crp.latchF4 = s.dev.plumb.recs.filter (fun r => r.2.cls == 4) ∧
      (∀ a, 0x080010000000 ≤ a → a < 0x080010200000 → cellAt a u.dev.mem.cells = some 0)) ∧
    (s.dev.crp.aonDown = false → exec .aonSupplyReturn s = .next (after s s.dev)) ∧
    (s.dev.crp.aonDown = true → s.dev.crp.glitch = false → ∃ u, exec .aonSupplyReturn s = .next u ∧ u.dev.crp.aonDown = false ∧
      u.dev.plumb.recs = s.dev.crp.latchF4 ∧ u.dev.ks = s.dev.ks) ∧
    (s.dev.crp.aonDown = true → s.dev.crp.glitch = true → ∃ u, exec .aonSupplyReturn s = .next u ∧ u.dev.crp.aonDown = false ∧
      u.dev.ks.tamper = s.dev.ks.tamper ||| 2 ^ 4 ∧ u.dev.ks.latched = true ∧ u.dev.mem.absWiping = true))

/-- R2, R12, R61, R62, R398, R400. -/
def Obligations.RegisterAccess : Prop :=
  (∀ (s : State) (who : Who) (off n : Nat) (v : Word), (∀ f, who ≠ .config f) →
    let o := canonOff (whoPage s.dev who) off
    let shut := decide (0x400400 ≤ off) && decide (off < 0x400800) && !secureOk s.dev who
    (ctlGrant s.dev who off n true = false → off ≠ 0x204 ∨ n ≠ 4 ∨ isPf s.dev who = true → shut = false →
      exec (.registerWrite who off n v) s = .next (after s s.dev)) ∧
    (∀ mask rst, ctlGrant s.dev who off 4 true = true → plainReg o = some (mask, rst) → mtReg o = none → isPatchHandle o = true →
      isPf s.dev who = false → shut = false → exec (.registerWrite who off 4 v) s = .next (after s s.dev)) ∧
    (∀ mask rst, ctlGrant s.dev who off 4 true = true → plainReg o = some (mask, rst) → mtReg o = none →
      isPatchHandle o = false ∨ isPf s.dev who = true → shut = false →
      ∃ u, exec (.registerWrite who off 4 v) s = .next u ∧ reg u.dev o rst = maskMerge mask (reg s.dev o rst) (v.toNat % 2 ^ 32) ∧
        (∀ q x, q ≠ o → reg u.dev q x = reg s.dev q x) ∧ u.dev.mem = s.dev.mem ∧ u.dev.rings = s.dev.rings ∧ u.dev.wos = s.dev.wos ∧
        u.dev.ctxs = s.dev.ctxs ∧ u.dev.time = s.dev.time ∧ u.fuses = s.fuses) ∧
    (∀ c, c < 512 → mtReg o = some (c, 0) → ctlGrant s.dev who off 4 true = true →
      (isAdmin s.dev who = true → (ctxAt s.dev c).st = .empty → ∃ u, exec (.registerWrite who off 4 v) s = .next u ∧
        reg u.dev o 7 = maskMerge 0xF0007 (reg s.dev o 7) (v.toNat % 2 ^ 32)) ∧
      (isAdmin s.dev who = false ∨ (ctxAt s.dev c).st ≠ .empty → exec (.registerWrite who off 4 v) s = .next (after s s.dev)))) ∧
  (∀ (s : State) (who : Who) (v : Word), (∀ f, who ≠ .config f) → exec (.registerWrite who 8 4 v) s = .next (after s s.dev)) ∧
  (∀ (s : State) (f off : Nat) (v : Word), f ≠ 0 → (off < 0x400400 ∨ 0x400800 ≤ off) → (vfGrant s.dev f off true = false ∨ vfGrant s.dev f (off + 4) true = false) →
    exec (.registerWrite (.host f) off 8 v) s = .next (after s s.dev)) ∧
  (∀ (s : State) (f : Nat) (v : Word),
    (cfgServed s.dev 0 = true → s.dev.host.vfEnable = false → v.toNat ≤ 15 → ∃ u, exec (.registerWrite (.config 0) 0 4 v) s = .next u ∧
      u.dev.host.numVfs = v.toNat ∧ u.dev.host.vfEnable = false) ∧
    (s.dev.host.vfEnable = true → exec (.registerWrite (.config 0) 0 4 v) s = .next (after s s.dev)) ∧
    (cfgServed s.dev f = true → ∃ u, exec (.registerWrite (.config f) 1 4 v) s = .next u ∧ (funcAt u.dev f).msixEn = v.getLsbD 0 ∧
      (funcAt u.dev f).d = (funcAt s.dev f).d)) ∧
  (∀ (s : State) (who : Who) (k : Nat) (v : Word32) (off : Nat) (i : Instr),
    (off, i) ∈ (if isPf s.dev who || !whoLive s.dev who then [(0x204, Instr.woCancel who k)] else []) ++
      (if k < 32 ∨ 64 ≤ k then [(0x400004 + 32 * k, Instr.mbxSendWrite who k v), (0x400010 + 32 * k, .mbxDbSet who k v),
        (0x400014 + 32 * k, .mbxDbClr who k v)] else []) ++
      [(0x600000, Instr.yardCtrlEn who), (0x600048, .yardFree who v), (0x60004C, .yardXfer who v),
      (0x710004 + 32 * k, .ringEnable who k v), (0x710004 + 32 * k, .ringDisable who k v), (0x710004 + 32 * k, .ringReset who k v),
      (0x800108 + 16 * k, .dmaDbell who k), (0xA00108, .ethTimeRate who v), (0xB00090, .bondSchedGo who v), (0x300000 + 4 * k, .intcPendSet who k v),
      (0x300180 + 4 * k, .intcEnClr who k v),
      (0x200008, .plumbRecClose who k), (0x200014, .wdogKick who v), (0x6000010, .crpResetCtrlWarm who v), (0x6000030, .pwrReqSleep who),
      (0x500000, .perfClear who), (0x100050, .ksArbCommit who k true), (0xF00020, .magEmergSwTrig who), (0x5000000 + 4 * k, .ashlarOwnerWrite who k v)] →
    ctlGrant s.dev who off 4 true = false → exec i s = .next (after s s.dev)) ∧
  (∀ (s : State) (f k n : Nat) (off : Nat) (i : Instr),
    (off, n, i) ∈ [(8, 4, Instr.topTimeReadLo (.host f)), (0x20C, 4, .woLastPfFlrRead (.host f)), (0x600044, 4, .yardAlloc (.host f))] ++
      (if claimReg k then [(claimOff s.dev (.host f) k, 4, Instr.intcClaim (.host f) k)] else []) ++
      (if k < 32 then [(0x400008 + 32 * k, 8, Instr.mbxRecvRead (.host f) k)] else []) →
    ctlGrant s.dev (.host f) off n false = false → exec i s = .next (after s (emit s.dev (.hostData f (leBytes n 0) false))))

/-- The step of the block. What it does on an empty queue is the model's choice (entries 2 and 105). -/
def Obligations.StepTakesFront : Prop :=
  (∀ (s : State) (c : Instr) (r : List Instr), step { s with pending := c :: r } = exec c { s with pending := r }) ∧
  (∀ (s : State) (f off v : Nat) (rest : List (Nat × Nat × Nat)), s.pending = [] → s.dev.posted = (f, off, v) :: rest →
    let d := { s.dev with posted := rest }
    let x := ctlWrite s.fuses d (.host f) off 8 v
    step s = .next (after { s with fuses := x.1 } x.2) ∧
    (ctlGrant d (.host f) off 8 true = false → secureShut d (.host f) off = false → step s = .next (after s d))) ∧
  (∀ (s : State), s.pending = [] → s.dev.posted = [] → ∃ u, step s = .next u ∧ u.pending = [] ∧ u.fuses = s.fuses ∧ u.dev.up = s.dev.up + 1 ∧
    (s.dev.crp.xspiLow = none → u.dev = { s.dev with up := u.dev.up, time := u.dev.time, frac := u.dev.frac }) ∧
    (∀ t, s.dev.crp.xspiLow = some t →
      (s.dev.up + 1 < t → u.dev = { s.dev with up := u.dev.up, time := u.dev.time, frac := u.dev.frac }) ∧
      (t ≤ s.dev.up + 1 → u.dev.crp = { s.dev.crp with xspiLow := none } ∧ u.dev.out = s.dev.out ++ [.pin "XSPI_RESET_N" true])) ∧
    (timeRate s.dev = 0 → 0 ≤ s.dev.frac → s.dev.frac < 2 ^ 40 → u.dev.time = (s.dev.time + 1) % 2 ^ 64 ∧ u.dev.frac = s.dev.frac))

/-- No command ends a run: R501 is the one exception. -/
def Obligations.EveryCommandCompletes : Prop :=
  (∀ (c : Instr) (s : State), stops c = false → ∃ u, exec c s = .next u ∧ u.pending = s.pending) ∧
  (∀ (s : State), exec (.por false) s = .fault .aonUndefined)

/-- R2, R26, R55, R56, R291, R312, R332, R414, R415, R426, R452, R466, R474, R479, R483: the reset values of the tables. That the fuses are unprogrammed is the
model's choice (assumption 4). -/
def Obligations.ResetState : Prop :=
  let d := State.reset.dev
  State.reset.pending = [] ∧ d.time = 0 ∧ (∀ c, (ctxAt d c).st = .empty ∧ (ctxAt d c).tkLimit = 64) ∧ d.tickets = [] ∧ d.wos = [] ∧
  (∀ r, (ringAt d r).en = false ∧ (ringAt d r).entries = []) ∧ d.plumb.recs = [] ∧ d.yard.en = false ∧
  (∀ n, n < 1024 → (n ∈ d.intc.en ↔ n = 517)) ∧ (∀ n, intcValid n = true → intcTarget d n = 15) ∧ intcPrio d 517 = 15 ∧
  memCfg d = 0x03014018 ∧ reg d 0x400804 100 = 100 ∧ reg d 0x700000 2000 = 2000 ∧ reg d 0x6000038 5 = 5 ∧ d.plumb.wdEn = false ∧
  d.crp.cause = 0x80000000 ∧ d.crp.stage = 0 ∧ d.crp.pwr = .active ∧ d.mem.wf = true ∧ (∀ a, 0x080000000000 ≤ a → cellAt a d.mem.cells = some 0) ∧
  lcState State.reset.fuses = some 0 ∧ (∀ n, arbCount State.reset.fuses n = 0) ∧ frameIdsOk d = true ∧ goesOn (step State.reset) = true

/-- R18, R20: no bit of a word is dropped and no word has two meanings. -/
def Obligations.HoltWordRoundTrip : Prop :=
  (∀ (i : Instr) (word : Word), i.wf = true → holtEncode i = some word → ∃ c, c < 512 ∧ holtDecode c word = i ∧
    ∀ k, holtDecode k word = i → k = c) ∧
  (∀ (word : Word) (c : Nat), c < 512 → (holtDecode c word).wf = true ∧ holtEncode (holtDecode c word) = some word)

/-- R428, R433, R473: fuses only gain bits. -/
def Obligations.FusesNeverUnblown : Prop :=
  ∀ (s u : State), step s = .next u →
    (∀ n, arbCount s.fuses n ≤ arbCount u.fuses n) ∧
    (∀ b, bitOf s.fuses.lcA b = true → bitOf u.fuses.lcA b = true) ∧ (∀ b, bitOf s.fuses.lcB b = true → bitOf u.fuses.lcB b = true) ∧
    (s.fuses.makerSet = true → u.fuses.makerSet = true) ∧ (s.fuses.dusSet = true → u.fuses.dusSet = true) ∧
    (s.fuses.dusKill = true → u.fuses.dusKill = true)
end

