-- ==== Sys2Proof/Laws/Table.lean ====
section
/-! SUPPORT. Sparse tables: reading after writing. -/

namespace Sys2Proof.Machine

theorem tget_tput {α : Type} (x : α) (k : Nat) (v : α) (t : Table α) : tget x k (tput k v t) = v := by
  induction t with
  | nil => simp [tput, tget]
  | cons e r ih =>
    obtain ⟨a, w⟩ := e
    by_cases h1 : k < a
    · simp [tput, tget, h1]
    · by_cases h2 : a = k <;> simp [tput, tget, h1, h2, ih]

theorem tget_tput_ne {α : Type} (x : α) {j k : Nat} (h : j ≠ k) (v : α) (t : Table α) : tget x j (tput k v t) = tget x j t := by
  induction t with
  | nil => simp [tput, tget, Ne.symm h]
  | cons e r ih =>
    obtain ⟨a, w⟩ := e
    by_cases h1 : k < a
    · simp [tput, tget, h1, Ne.symm h]
    · by_cases h2 : a = k
      · subst h2; simp [tput, tget, Ne.symm h]
      · simp [tput, tget, h1, h2, ih]

theorem tget_tdel {α : Type} (x : α) (k : Nat) (t : Table α) : tget x k (tdel k t) = x := by
  induction t with
  | nil => simp [tdel, tget]
  | cons e r ih =>
    obtain ⟨a, w⟩ := e
    by_cases h : a = k <;> simp [tdel, tget, h, ih]

theorem tget_tdel_ne {α : Type} (x : α) {j k : Nat} (h : j ≠ k) (t : Table α) : tget x j (tdel k t) = tget x j t := by
  induction t with
  | nil => simp [tdel]
  | cons e r ih =>
    obtain ⟨a, w⟩ := e
    by_cases h2 : a = k
    · subst h2; simp [tdel, tget, Ne.symm h, ih]
    · simp [tdel, tget, h2, ih]

/-- An entry reads as it was written. -/
@[simp] theorem tget_tset {α : Type} [DecidableEq α] (x : α) (k : Nat) (v : α) (t : Table α) : tget x k (tset x k v t) = v := by
  unfold tset
  split
  · next h => rw [tget_tdel, h]
  · exact tget_tput x k v t

/-- Writing one entry leaves every other as it was. -/
theorem tget_tset_ne {α : Type} [DecidableEq α] (x : α) {j k : Nat} (h : j ≠ k) (v : α) (t : Table α) :
    tget x j (tset x k v t) = tget x j t := by
  unfold tset
  split
  · exact tget_tdel_ne x h t
  · exact tget_tput_ne x h v t

@[simp] theorem tfind_tput {α : Type} (k : Nat) (v : α) (t : Table α) : tfind k (tput k v t) = some v := by
  induction t with
  | nil => simp [tput, tfind]
  | cons e r ih =>
    obtain ⟨a, w⟩ := e
    by_cases h1 : k < a
    · simp [tput, tfind, h1]
    · by_cases h2 : a = k <;> simp [tput, tfind, h1, h2, ih]

theorem tfind_tput_ne {α : Type} {j k : Nat} (h : j ≠ k) (v : α) (t : Table α) : tfind j (tput k v t) = tfind j t := by
  induction t with
  | nil => simp [tput, tfind, Ne.symm h]
  | cons e r ih =>
    obtain ⟨a, w⟩ := e
    by_cases h1 : k < a
    · simp [tput, tfind, h1, Ne.symm h]
    · by_cases h2 : a = k
      · subst h2; simp [tput, tfind, Ne.symm h]
      · simp [tput, tfind, h1, h2, ih]

@[simp] theorem tfind_tdel {α : Type} (k : Nat) (t : Table α) : tfind k (tdel k t) = none := by
  induction t with
  | nil => simp [tdel, tfind]
  | cons e r ih =>
    obtain ⟨a, w⟩ := e
    by_cases h : a = k <;> simp [tdel, tfind, h, ih]

theorem tfind_tdel_ne {α : Type} {j k : Nat} (h : j ≠ k) (t : Table α) : tfind j (tdel k t) = tfind j t := by
  induction t with
  | nil => simp [tdel]
  | cons e r ih =>
    obtain ⟨a, w⟩ := e
    by_cases h2 : a = k
    · subst h2; simp [tdel, tfind, Ne.symm h, ih]
    · simp [tdel, tfind, h2, ih]

/-- The members of a rising list after one is added. -/
@[simp] theorem mem_sadd (j k : Nat) (l : List Nat) : j ∈ sadd k l ↔ j = k ∨ j ∈ l := by
  induction l with
  | nil => simp [sadd]
  | cons a r ih =>
    by_cases h1 : k < a
    · simp [sadd, h1]
    · by_cases h2 : a = k
      · subst h2; simp [sadd]
      · simp [sadd, h1, h2, ih, or_left_comm]

/-- The members of a list after one is removed. -/
@[simp] theorem mem_sdel (j k : Nat) (l : List Nat) : j ∈ sdel k l ↔ j ∈ l ∧ j ≠ k := by simp [sdel]

/-- The numbers of a range. -/
@[simp] theorem mem_upto (j lo n : Nat) : j ∈ upto lo n ↔ lo ≤ j ∧ j < lo + n := by
  induction n generalizing lo with
  | zero => simp [upto]
  | succ n ih => simp only [upto, List.mem_cons, ih]; omega

end Sys2Proof.Machine
end

