-- ==== Sys2Proof/Laws/State.lean ====
section
/-! SUPPORT. The fields of the device under each update, the delivery of interrupts that ends every command, and the entries that the named
updates write. -/

namespace Sys2Proof.Machine

@[simp] theorem setReg_draw (d : Device) (off rst v : Nat) : (setReg d off rst v).draw = d.draw := rfl
@[simp] theorem setReg_time (d : Device) (off rst v : Nat) : (setReg d off rst v).time = d.time := rfl
@[simp] theorem setReg_frac (d : Device) (off rst v : Nat) : (setReg d off rst v).frac = d.frac := rfl
@[simp] theorem setReg_up (d : Device) (off rst v : Nat) : (setReg d off rst v).up = d.up := rfl
@[simp] theorem setReg_timeLatch (d : Device) (off rst v : Nat) : (setReg d off rst v).timeLatch = d.timeLatch := rfl
@[simp] theorem setReg_qpLatch (d : Device) (off rst v : Nat) : (setReg d off rst v).qpLatch = d.qpLatch := rfl
@[simp] theorem setReg_ctxs (d : Device) (off rst v : Nat) : (setReg d off rst v).ctxs = d.ctxs := rfl
@[simp] theorem setReg_threadRecs (d : Device) (off rst v : Nat) : (setReg d off rst v).threadRecs = d.threadRecs := rfl
@[simp] theorem setReg_rotation (d : Device) (off rst v : Nat) : (setReg d off rst v).rotation = d.rotation := rfl
@[simp] theorem setReg_lastIssue (d : Device) (off rst v : Nat) : (setReg d off rst v).lastIssue = d.lastIssue := rfl
@[simp] theorem setReg_issues (d : Device) (off rst v : Nat) : (setReg d off rst v).issues = d.issues := rfl
@[simp] theorem setReg_tickets (d : Device) (off rst v : Nat) : (setReg d off rst v).tickets = d.tickets := rfl
@[simp] theorem setReg_wos (d : Device) (off rst v : Nat) : (setReg d off rst v).wos = d.wos := rfl
@[simp] theorem setReg_woSeq (d : Device) (off rst v : Nat) : (setReg d off rst v).woSeq = d.woSeq := rfl
@[simp] theorem setReg_recs (d : Device) (off rst v : Nat) : (setReg d off rst v).recs = d.recs := rfl
@[simp] theorem setReg_cancelMiss (d : Device) (off rst v : Nat) : (setReg d off rst v).cancelMiss = d.cancelMiss := rfl
@[simp] theorem setReg_cancelDone (d : Device) (off rst v : Nat) : (setReg d off rst v).cancelDone = d.cancelDone := rfl
@[simp] theorem setReg_pfLost (d : Device) (off rst v : Nat) : (setReg d off rst v).pfLost = d.pfLost := rfl
@[simp] theorem setReg_pfCancelled (d : Device) (off rst v : Nat) : (setReg d off rst v).pfCancelled = d.pfCancelled := rfl
@[simp] theorem setReg_yard (d : Device) (off rst v : Nat) : (setReg d off rst v).yard = d.yard := rfl
@[simp] theorem setReg_rings (d : Device) (off rst v : Nat) : (setReg d off rst v).rings = d.rings := rfl
@[simp] theorem setReg_ringResets (d : Device) (off rst v : Nat) : (setReg d off rst v).ringResets = d.ringResets := rfl
@[simp] theorem setReg_ringLast (d : Device) (off rst v : Nat) : (setReg d off rst v).ringLast = d.ringLast := rfl
@[simp] theorem setReg_ringLost (d : Device) (off rst v : Nat) : (setReg d off rst v).ringLost = d.ringLost := rfl
@[simp] theorem setReg_mem (d : Device) (off rst v : Nat) : (setReg d off rst v).mem = d.mem := rfl
@[simp] theorem setReg_dma (d : Device) (off rst v : Nat) : (setReg d off rst v).dma = d.dma := rfl
@[simp] theorem setReg_intc (d : Device) (off rst v : Nat) : (setReg d off rst v).intc = d.intc := rfl
@[simp] theorem setReg_mbox (d : Device) (off rst v : Nat) : (setReg d off rst v).mbox = d.mbox := rfl
@[simp] theorem setReg_plumb (d : Device) (off rst v : Nat) : (setReg d off rst v).plumb = d.plumb := rfl
@[simp] theorem setReg_host (d : Device) (off rst v : Nat) : (setReg d off rst v).host = d.host := rfl
@[simp] theorem setReg_qpSecure (d : Device) (off rst v : Nat) : (setReg d off rst v).qpSecure = d.qpSecure := rfl
@[simp] theorem setReg_qpRefused (d : Device) (off rst v : Nat) : (setReg d off rst v).qpRefused = d.qpRefused := rfl
@[simp] theorem setReg_qpTrig (d : Device) (off rst v : Nat) : (setReg d off rst v).qpTrig = d.qpTrig := rfl
@[simp] theorem setReg_sw (d : Device) (off rst v : Nat) : (setReg d off rst v).sw = d.sw := rfl
@[simp] theorem setReg_eth (d : Device) (off rst v : Nat) : (setReg d off rst v).eth = d.eth := rfl
@[simp] theorem setReg_bond (d : Device) (off rst v : Nat) : (setReg d off rst v).bond = d.bond := rfl
@[simp] theorem setReg_ks (d : Device) (off rst v : Nat) : (setReg d off rst v).ks = d.ks := rfl
@[simp] theorem setReg_crp (d : Device) (off rst v : Nat) : (setReg d off rst v).crp = d.crp := rfl
@[simp] theorem setReg_perf (d : Device) (off rst v : Nat) : (setReg d off rst v).perf = d.perf := rfl
@[simp] theorem setReg_gpioIn (d : Device) (off rst v : Nat) : (setReg d off rst v).gpioIn = d.gpioIn := rfl
@[simp] theorem setReg_temp (d : Device) (off rst v : Nat) : (setReg d off rst v).temp = d.temp := rfl
@[simp] theorem setReg_tempValid (d : Device) (off rst v : Nat) : (setReg d off rst v).tempValid = d.tempValid := rfl
@[simp] theorem setReg_tap (d : Device) (off rst v : Nat) : (setReg d off rst v).tap = d.tap := rfl
@[simp] theorem setReg_ingest (d : Device) (off rst v : Nat) : (setReg d off rst v).ingest = d.ingest := rfl
@[simp] theorem setReg_mag (d : Device) (off rst v : Nat) : (setReg d off rst v).mag = d.mag := rfl
@[simp] theorem setReg_mortar (d : Device) (off rst v : Nat) : (setReg d off rst v).mortar = d.mortar := rfl
@[simp] theorem setReg_sdi (d : Device) (off rst v : Nat) : (setReg d off rst v).sdi = d.sdi := rfl
@[simp] theorem setReg_pins (d : Device) (off rst v : Nat) : (setReg d off rst v).pins = d.pins := rfl
@[simp] theorem setReg_codec (d : Device) (off rst v : Nat) : (setReg d off rst v).codec = d.codec := rfl
@[simp] theorem setReg_engines (d : Device) (off rst v : Nat) : (setReg d off rst v).engines = d.engines := rfl
@[simp] theorem setReg_out (d : Device) (off rst v : Nat) : (setReg d off rst v).out = d.out := rfl
@[simp] theorem setReg_verdicts (d : Device) (off rst v : Nat) : (setReg d off rst v).verdicts = d.verdicts := rfl
@[simp] theorem setReg_posted (d : Device) (off rst v : Nat) : (setReg d off rst v).posted = d.posted := rfl

@[simp] theorem emit_draw (d : Device) (o : Out) : (emit d o).draw = d.draw := rfl
@[simp] theorem emit_regs (d : Device) (o : Out) : (emit d o).regs = d.regs := rfl
@[simp] theorem emit_time (d : Device) (o : Out) : (emit d o).time = d.time := rfl
@[simp] theorem emit_frac (d : Device) (o : Out) : (emit d o).frac = d.frac := rfl
@[simp] theorem emit_up (d : Device) (o : Out) : (emit d o).up = d.up := rfl
@[simp] theorem emit_timeLatch (d : Device) (o : Out) : (emit d o).timeLatch = d.timeLatch := rfl
@[simp] theorem emit_qpLatch (d : Device) (o : Out) : (emit d o).qpLatch = d.qpLatch := rfl
@[simp] theorem emit_ctxs (d : Device) (o : Out) : (emit d o).ctxs = d.ctxs := rfl
@[simp] theorem emit_threadRecs (d : Device) (o : Out) : (emit d o).threadRecs = d.threadRecs := rfl
@[simp] theorem emit_rotation (d : Device) (o : Out) : (emit d o).rotation = d.rotation := rfl
@[simp] theorem emit_lastIssue (d : Device) (o : Out) : (emit d o).lastIssue = d.lastIssue := rfl
@[simp] theorem emit_issues (d : Device) (o : Out) : (emit d o).issues = d.issues := rfl
@[simp] theorem emit_tickets (d : Device) (o : Out) : (emit d o).tickets = d.tickets := rfl
@[simp] theorem emit_wos (d : Device) (o : Out) : (emit d o).wos = d.wos := rfl
@[simp] theorem emit_woSeq (d : Device) (o : Out) : (emit d o).woSeq = d.woSeq := rfl
@[simp] theorem emit_recs (d : Device) (o : Out) : (emit d o).recs = d.recs := rfl
@[simp] theorem emit_cancelMiss (d : Device) (o : Out) : (emit d o).cancelMiss = d.cancelMiss := rfl
@[simp] theorem emit_cancelDone (d : Device) (o : Out) : (emit d o).cancelDone = d.cancelDone := rfl
@[simp] theorem emit_pfLost (d : Device) (o : Out) : (emit d o).pfLost = d.pfLost := rfl
@[simp] theorem emit_pfCancelled (d : Device) (o : Out) : (emit d o).pfCancelled = d.pfCancelled := rfl
@[simp] theorem emit_yard (d : Device) (o : Out) : (emit d o).yard = d.yard := rfl
@[simp] theorem emit_rings (d : Device) (o : Out) : (emit d o).rings = d.rings := rfl
@[simp] theorem emit_ringResets (d : Device) (o : Out) : (emit d o).ringResets = d.ringResets := rfl
@[simp] theorem emit_ringLast (d : Device) (o : Out) : (emit d o).ringLast = d.ringLast := rfl
@[simp] theorem emit_ringLost (d : Device) (o : Out) : (emit d o).ringLost = d.ringLost := rfl
@[simp] theorem emit_mem (d : Device) (o : Out) : (emit d o).mem = d.mem := rfl
@[simp] theorem emit_dma (d : Device) (o : Out) : (emit d o).dma = d.dma := rfl
@[simp] theorem emit_intc (d : Device) (o : Out) : (emit d o).intc = d.intc := rfl
@[simp] theorem emit_mbox (d : Device) (o : Out) : (emit d o).mbox = d.mbox := rfl
@[simp] theorem emit_plumb (d : Device) (o : Out) : (emit d o).plumb = d.plumb := rfl
@[simp] theorem emit_host (d : Device) (o : Out) : (emit d o).host = d.host := rfl
@[simp] theorem emit_qpSecure (d : Device) (o : Out) : (emit d o).qpSecure = d.qpSecure := rfl
@[simp] theorem emit_qpRefused (d : Device) (o : Out) : (emit d o).qpRefused = d.qpRefused := rfl
@[simp] theorem emit_qpTrig (d : Device) (o : Out) : (emit d o).qpTrig = d.qpTrig := rfl
@[simp] theorem emit_sw (d : Device) (o : Out) : (emit d o).sw = d.sw := rfl
@[simp] theorem emit_eth (d : Device) (o : Out) : (emit d o).eth = d.eth := rfl
@[simp] theorem emit_bond (d : Device) (o : Out) : (emit d o).bond = d.bond := rfl
@[simp] theorem emit_ks (d : Device) (o : Out) : (emit d o).ks = d.ks := rfl
@[simp] theorem emit_crp (d : Device) (o : Out) : (emit d o).crp = d.crp := rfl
@[simp] theorem emit_perf (d : Device) (o : Out) : (emit d o).perf = d.perf := rfl
@[simp] theorem emit_gpioIn (d : Device) (o : Out) : (emit d o).gpioIn = d.gpioIn := rfl
@[simp] theorem emit_temp (d : Device) (o : Out) : (emit d o).temp = d.temp := rfl
@[simp] theorem emit_tempValid (d : Device) (o : Out) : (emit d o).tempValid = d.tempValid := rfl
@[simp] theorem emit_tap (d : Device) (o : Out) : (emit d o).tap = d.tap := rfl
@[simp] theorem emit_ingest (d : Device) (o : Out) : (emit d o).ingest = d.ingest := rfl
@[simp] theorem emit_mag (d : Device) (o : Out) : (emit d o).mag = d.mag := rfl
@[simp] theorem emit_mortar (d : Device) (o : Out) : (emit d o).mortar = d.mortar := rfl
@[simp] theorem emit_sdi (d : Device) (o : Out) : (emit d o).sdi = d.sdi := rfl
@[simp] theorem emit_pins (d : Device) (o : Out) : (emit d o).pins = d.pins := rfl
@[simp] theorem emit_codec (d : Device) (o : Out) : (emit d o).codec = d.codec := rfl
@[simp] theorem emit_engines (d : Device) (o : Out) : (emit d o).engines = d.engines := rfl
@[simp] theorem emit_verdicts (d : Device) (o : Out) : (emit d o).verdicts = d.verdicts := rfl
@[simp] theorem emit_posted (d : Device) (o : Out) : (emit d o).posted = d.posted := rfl

@[simp] theorem setCtx_draw (d : Device) (c : Nat) (x : HoltCtx) : (setCtx d c x).draw = d.draw := rfl
@[simp] theorem setCtx_regs (d : Device) (c : Nat) (x : HoltCtx) : (setCtx d c x).regs = d.regs := rfl
@[simp] theorem setCtx_time (d : Device) (c : Nat) (x : HoltCtx) : (setCtx d c x).time = d.time := rfl
@[simp] theorem setCtx_frac (d : Device) (c : Nat) (x : HoltCtx) : (setCtx d c x).frac = d.frac := rfl
@[simp] theorem setCtx_up (d : Device) (c : Nat) (x : HoltCtx) : (setCtx d c x).up = d.up := rfl
@[simp] theorem setCtx_timeLatch (d : Device) (c : Nat) (x : HoltCtx) : (setCtx d c x).timeLatch = d.timeLatch := rfl
@[simp] theorem setCtx_qpLatch (d : Device) (c : Nat) (x : HoltCtx) : (setCtx d c x).qpLatch = d.qpLatch := rfl
@[simp] theorem setCtx_threadRecs (d : Device) (c : Nat) (x : HoltCtx) : (setCtx d c x).threadRecs = d.threadRecs := rfl
@[simp] theorem setCtx_rotation (d : Device) (c : Nat) (x : HoltCtx) : (setCtx d c x).rotation = d.rotation := rfl
@[simp] theorem setCtx_lastIssue (d : Device) (c : Nat) (x : HoltCtx) : (setCtx d c x).lastIssue = d.lastIssue := rfl
@[simp] theorem setCtx_issues (d : Device) (c : Nat) (x : HoltCtx) : (setCtx d c x).issues = d.issues := rfl
@[simp] theorem setCtx_tickets (d : Device) (c : Nat) (x : HoltCtx) : (setCtx d c x).tickets = d.tickets := rfl
@[simp] theorem setCtx_wos (d : Device) (c : Nat) (x : HoltCtx) : (setCtx d c x).wos = d.wos := rfl
@[simp] theorem setCtx_woSeq (d : Device) (c : Nat) (x : HoltCtx) : (setCtx d c x).woSeq = d.woSeq := rfl
@[simp] theorem setCtx_recs (d : Device) (c : Nat) (x : HoltCtx) : (setCtx d c x).recs = d.recs := rfl
@[simp] theorem setCtx_cancelMiss (d : Device) (c : Nat) (x : HoltCtx) : (setCtx d c x).cancelMiss = d.cancelMiss := rfl
@[simp] theorem setCtx_cancelDone (d : Device) (c : Nat) (x : HoltCtx) : (setCtx d c x).cancelDone = d.cancelDone := rfl
@[simp] theorem setCtx_pfLost (d : Device) (c : Nat) (x : HoltCtx) : (setCtx d c x).pfLost = d.pfLost := rfl
@[simp] theorem setCtx_pfCancelled (d : Device) (c : Nat) (x : HoltCtx) : (setCtx d c x).pfCancelled = d.pfCancelled := rfl
@[simp] theorem setCtx_yard (d : Device) (c : Nat) (x : HoltCtx) : (setCtx d c x).yard = d.yard := rfl
@[simp] theorem setCtx_rings (d : Device) (c : Nat) (x : HoltCtx) : (setCtx d c x).rings = d.rings := rfl
@[simp] theorem setCtx_ringResets (d : Device) (c : Nat) (x : HoltCtx) : (setCtx d c x).ringResets = d.ringResets := rfl
@[simp] theorem setCtx_ringLast (d : Device) (c : Nat) (x : HoltCtx) : (setCtx d c x).ringLast = d.ringLast := rfl
@[simp] theorem setCtx_ringLost (d : Device) (c : Nat) (x : HoltCtx) : (setCtx d c x).ringLost = d.ringLost := rfl
@[simp] theorem setCtx_mem (d : Device) (c : Nat) (x : HoltCtx) : (setCtx d c x).mem = d.mem := rfl
@[simp] theorem setCtx_dma (d : Device) (c : Nat) (x : HoltCtx) : (setCtx d c x).dma = d.dma := rfl
@[simp] theorem setCtx_intc (d : Device) (c : Nat) (x : HoltCtx) : (setCtx d c x).intc = d.intc := rfl
@[simp] theorem setCtx_mbox (d : Device) (c : Nat) (x : HoltCtx) : (setCtx d c x).mbox = d.mbox := rfl
@[simp] theorem setCtx_plumb (d : Device) (c : Nat) (x : HoltCtx) : (setCtx d c x).plumb = d.plumb := rfl
@[simp] theorem setCtx_host (d : Device) (c : Nat) (x : HoltCtx) : (setCtx d c x).host = d.host := rfl
@[simp] theorem setCtx_qpSecure (d : Device) (c : Nat) (x : HoltCtx) : (setCtx d c x).qpSecure = d.qpSecure := rfl
@[simp] theorem setCtx_qpRefused (d : Device) (c : Nat) (x : HoltCtx) : (setCtx d c x).qpRefused = d.qpRefused := rfl
@[simp] theorem setCtx_qpTrig (d : Device) (c : Nat) (x : HoltCtx) : (setCtx d c x).qpTrig = d.qpTrig := rfl
@[simp] theorem setCtx_sw (d : Device) (c : Nat) (x : HoltCtx) : (setCtx d c x).sw = d.sw := rfl
@[simp] theorem setCtx_eth (d : Device) (c : Nat) (x : HoltCtx) : (setCtx d c x).eth = d.eth := rfl
@[simp] theorem setCtx_bond (d : Device) (c : Nat) (x : HoltCtx) : (setCtx d c x).bond = d.bond := rfl
@[simp] theorem setCtx_ks (d : Device) (c : Nat) (x : HoltCtx) : (setCtx d c x).ks = d.ks := rfl
@[simp] theorem setCtx_crp (d : Device) (c : Nat) (x : HoltCtx) : (setCtx d c x).crp = d.crp := rfl
@[simp] theorem setCtx_perf (d : Device) (c : Nat) (x : HoltCtx) : (setCtx d c x).perf = d.perf := rfl
@[simp] theorem setCtx_gpioIn (d : Device) (c : Nat) (x : HoltCtx) : (setCtx d c x).gpioIn = d.gpioIn := rfl
@[simp] theorem setCtx_temp (d : Device) (c : Nat) (x : HoltCtx) : (setCtx d c x).temp = d.temp := rfl
@[simp] theorem setCtx_tempValid (d : Device) (c : Nat) (x : HoltCtx) : (setCtx d c x).tempValid = d.tempValid := rfl
@[simp] theorem setCtx_tap (d : Device) (c : Nat) (x : HoltCtx) : (setCtx d c x).tap = d.tap := rfl
@[simp] theorem setCtx_ingest (d : Device) (c : Nat) (x : HoltCtx) : (setCtx d c x).ingest = d.ingest := rfl
@[simp] theorem setCtx_mag (d : Device) (c : Nat) (x : HoltCtx) : (setCtx d c x).mag = d.mag := rfl
@[simp] theorem setCtx_mortar (d : Device) (c : Nat) (x : HoltCtx) : (setCtx d c x).mortar = d.mortar := rfl
@[simp] theorem setCtx_sdi (d : Device) (c : Nat) (x : HoltCtx) : (setCtx d c x).sdi = d.sdi := rfl
@[simp] theorem setCtx_pins (d : Device) (c : Nat) (x : HoltCtx) : (setCtx d c x).pins = d.pins := rfl
@[simp] theorem setCtx_codec (d : Device) (c : Nat) (x : HoltCtx) : (setCtx d c x).codec = d.codec := rfl
@[simp] theorem setCtx_engines (d : Device) (c : Nat) (x : HoltCtx) : (setCtx d c x).engines = d.engines := rfl
@[simp] theorem setCtx_out (d : Device) (c : Nat) (x : HoltCtx) : (setCtx d c x).out = d.out := rfl
@[simp] theorem setCtx_verdicts (d : Device) (c : Nat) (x : HoltCtx) : (setCtx d c x).verdicts = d.verdicts := rfl
@[simp] theorem setCtx_posted (d : Device) (c : Nat) (x : HoltCtx) : (setCtx d c x).posted = d.posted := rfl

@[simp] theorem setFunc_draw (d : Device) (f : Nat) (x : Func) : (setFunc d f x).draw = d.draw := rfl
@[simp] theorem setFunc_regs (d : Device) (f : Nat) (x : Func) : (setFunc d f x).regs = d.regs := rfl
@[simp] theorem setFunc_time (d : Device) (f : Nat) (x : Func) : (setFunc d f x).time = d.time := rfl
@[simp] theorem setFunc_frac (d : Device) (f : Nat) (x : Func) : (setFunc d f x).frac = d.frac := rfl
@[simp] theorem setFunc_up (d : Device) (f : Nat) (x : Func) : (setFunc d f x).up = d.up := rfl
@[simp] theorem setFunc_timeLatch (d : Device) (f : Nat) (x : Func) : (setFunc d f x).timeLatch = d.timeLatch := rfl
@[simp] theorem setFunc_qpLatch (d : Device) (f : Nat) (x : Func) : (setFunc d f x).qpLatch = d.qpLatch := rfl
@[simp] theorem setFunc_ctxs (d : Device) (f : Nat) (x : Func) : (setFunc d f x).ctxs = d.ctxs := rfl
@[simp] theorem setFunc_threadRecs (d : Device) (f : Nat) (x : Func) : (setFunc d f x).threadRecs = d.threadRecs := rfl
@[simp] theorem setFunc_rotation (d : Device) (f : Nat) (x : Func) : (setFunc d f x).rotation = d.rotation := rfl
@[simp] theorem setFunc_lastIssue (d : Device) (f : Nat) (x : Func) : (setFunc d f x).lastIssue = d.lastIssue := rfl
@[simp] theorem setFunc_issues (d : Device) (f : Nat) (x : Func) : (setFunc d f x).issues = d.issues := rfl
@[simp] theorem setFunc_tickets (d : Device) (f : Nat) (x : Func) : (setFunc d f x).tickets = d.tickets := rfl
@[simp] theorem setFunc_wos (d : Device) (f : Nat) (x : Func) : (setFunc d f x).wos = d.wos := rfl
@[simp] theorem setFunc_woSeq (d : Device) (f : Nat) (x : Func) : (setFunc d f x).woSeq = d.woSeq := rfl
@[simp] theorem setFunc_recs (d : Device) (f : Nat) (x : Func) : (setFunc d f x).recs = d.recs := rfl
@[simp] theorem setFunc_cancelMiss (d : Device) (f : Nat) (x : Func) : (setFunc d f x).cancelMiss = d.cancelMiss := rfl
@[simp] theorem setFunc_cancelDone (d : Device) (f : Nat) (x : Func) : (setFunc d f x).cancelDone = d.cancelDone := rfl
@[simp] theorem setFunc_pfLost (d : Device) (f : Nat) (x : Func) : (setFunc d f x).pfLost = d.pfLost := rfl
@[simp] theorem setFunc_pfCancelled (d : Device) (f : Nat) (x : Func) : (setFunc d f x).pfCancelled = d.pfCancelled := rfl
@[simp] theorem setFunc_yard (d : Device) (f : Nat) (x : Func) : (setFunc d f x).yard = d.yard := rfl
@[simp] theorem setFunc_rings (d : Device) (f : Nat) (x : Func) : (setFunc d f x).rings = d.rings := rfl
@[simp] theorem setFunc_ringResets (d : Device) (f : Nat) (x : Func) : (setFunc d f x).ringResets = d.ringResets := rfl
@[simp] theorem setFunc_ringLast (d : Device) (f : Nat) (x : Func) : (setFunc d f x).ringLast = d.ringLast := rfl
@[simp] theorem setFunc_ringLost (d : Device) (f : Nat) (x : Func) : (setFunc d f x).ringLost = d.ringLost := rfl
@[simp] theorem setFunc_mem (d : Device) (f : Nat) (x : Func) : (setFunc d f x).mem = d.mem := rfl
@[simp] theorem setFunc_dma (d : Device) (f : Nat) (x : Func) : (setFunc d f x).dma = d.dma := rfl
@[simp] theorem setFunc_intc (d : Device) (f : Nat) (x : Func) : (setFunc d f x).intc = d.intc := rfl
@[simp] theorem setFunc_mbox (d : Device) (f : Nat) (x : Func) : (setFunc d f x).mbox = d.mbox := rfl
@[simp] theorem setFunc_plumb (d : Device) (f : Nat) (x : Func) : (setFunc d f x).plumb = d.plumb := rfl
@[simp] theorem setFunc_qpSecure (d : Device) (f : Nat) (x : Func) : (setFunc d f x).qpSecure = d.qpSecure := rfl
@[simp] theorem setFunc_qpRefused (d : Device) (f : Nat) (x : Func) : (setFunc d f x).qpRefused = d.qpRefused := rfl
@[simp] theorem setFunc_qpTrig (d : Device) (f : Nat) (x : Func) : (setFunc d f x).qpTrig = d.qpTrig := rfl
@[simp] theorem setFunc_sw (d : Device) (f : Nat) (x : Func) : (setFunc d f x).sw = d.sw := rfl
@[simp] theorem setFunc_eth (d : Device) (f : Nat) (x : Func) : (setFunc d f x).eth = d.eth := rfl
@[simp] theorem setFunc_bond (d : Device) (f : Nat) (x : Func) : (setFunc d f x).bond = d.bond := rfl
@[simp] theorem setFunc_ks (d : Device) (f : Nat) (x : Func) : (setFunc d f x).ks = d.ks := rfl
@[simp] theorem setFunc_crp (d : Device) (f : Nat) (x : Func) : (setFunc d f x).crp = d.crp := rfl
@[simp] theorem setFunc_perf (d : Device) (f : Nat) (x : Func) : (setFunc d f x).perf = d.perf := rfl
@[simp] theorem setFunc_gpioIn (d : Device) (f : Nat) (x : Func) : (setFunc d f x).gpioIn = d.gpioIn := rfl
@[simp] theorem setFunc_temp (d : Device) (f : Nat) (x : Func) : (setFunc d f x).temp = d.temp := rfl
@[simp] theorem setFunc_tempValid (d : Device) (f : Nat) (x : Func) : (setFunc d f x).tempValid = d.tempValid := rfl
@[simp] theorem setFunc_tap (d : Device) (f : Nat) (x : Func) : (setFunc d f x).tap = d.tap := rfl
@[simp] theorem setFunc_ingest (d : Device) (f : Nat) (x : Func) : (setFunc d f x).ingest = d.ingest := rfl
@[simp] theorem setFunc_mag (d : Device) (f : Nat) (x : Func) : (setFunc d f x).mag = d.mag := rfl
@[simp] theorem setFunc_mortar (d : Device) (f : Nat) (x : Func) : (setFunc d f x).mortar = d.mortar := rfl
@[simp] theorem setFunc_sdi (d : Device) (f : Nat) (x : Func) : (setFunc d f x).sdi = d.sdi := rfl
@[simp] theorem setFunc_pins (d : Device) (f : Nat) (x : Func) : (setFunc d f x).pins = d.pins := rfl
@[simp] theorem setFunc_codec (d : Device) (f : Nat) (x : Func) : (setFunc d f x).codec = d.codec := rfl
@[simp] theorem setFunc_engines (d : Device) (f : Nat) (x : Func) : (setFunc d f x).engines = d.engines := rfl
@[simp] theorem setFunc_out (d : Device) (f : Nat) (x : Func) : (setFunc d f x).out = d.out := rfl
@[simp] theorem setFunc_verdicts (d : Device) (f : Nat) (x : Func) : (setFunc d f x).verdicts = d.verdicts := rfl
@[simp] theorem setFunc_posted (d : Device) (f : Nat) (x : Func) : (setFunc d f x).posted = d.posted := rfl

@[simp] theorem setVec_draw (d : Device) (f v : Nat) (x : Vec) : (setVec d f v x).draw = d.draw := rfl
@[simp] theorem setVec_regs (d : Device) (f v : Nat) (x : Vec) : (setVec d f v x).regs = d.regs := rfl
@[simp] theorem setVec_time (d : Device) (f v : Nat) (x : Vec) : (setVec d f v x).time = d.time := rfl
@[simp] theorem setVec_frac (d : Device) (f v : Nat) (x : Vec) : (setVec d f v x).frac = d.frac := rfl
@[simp] theorem setVec_up (d : Device) (f v : Nat) (x : Vec) : (setVec d f v x).up = d.up := rfl
@[simp] theorem setVec_timeLatch (d : Device) (f v : Nat) (x : Vec) : (setVec d f v x).timeLatch = d.timeLatch := rfl
@[simp] theorem setVec_qpLatch (d : Device) (f v : Nat) (x : Vec) : (setVec d f v x).qpLatch = d.qpLatch := rfl
@[simp] theorem setVec_ctxs (d : Device) (f v : Nat) (x : Vec) : (setVec d f v x).ctxs = d.ctxs := rfl
@[simp] theorem setVec_threadRecs (d : Device) (f v : Nat) (x : Vec) : (setVec d f v x).threadRecs = d.threadRecs := rfl
@[simp] theorem setVec_rotation (d : Device) (f v : Nat) (x : Vec) : (setVec d f v x).rotation = d.rotation := rfl
@[simp] theorem setVec_lastIssue (d : Device) (f v : Nat) (x : Vec) : (setVec d f v x).lastIssue = d.lastIssue := rfl
@[simp] theorem setVec_issues (d : Device) (f v : Nat) (x : Vec) : (setVec d f v x).issues = d.issues := rfl
@[simp] theorem setVec_tickets (d : Device) (f v : Nat) (x : Vec) : (setVec d f v x).tickets = d.tickets := rfl
@[simp] theorem setVec_wos (d : Device) (f v : Nat) (x : Vec) : (setVec d f v x).wos = d.wos := rfl
@[simp] theorem setVec_woSeq (d : Device) (f v : Nat) (x : Vec) : (setVec d f v x).woSeq = d.woSeq := rfl
@[simp] theorem setVec_recs (d : Device) (f v : Nat) (x : Vec) : (setVec d f v x).recs = d.recs := rfl
@[simp] theorem setVec_cancelMiss (d : Device) (f v : Nat) (x : Vec) : (setVec d f v x).cancelMiss = d.cancelMiss := rfl
@[simp] theorem setVec_cancelDone (d : Device) (f v : Nat) (x : Vec) : (setVec d f v x).cancelDone = d.cancelDone := rfl
@[simp] theorem setVec_pfLost (d : Device) (f v : Nat) (x : Vec) : (setVec d f v x).pfLost = d.pfLost := rfl
@[simp] theorem setVec_pfCancelled (d : Device) (f v : Nat) (x : Vec) : (setVec d f v x).pfCancelled = d.pfCancelled := rfl
@[simp] theorem setVec_yard (d : Device) (f v : Nat) (x : Vec) : (setVec d f v x).yard = d.yard := rfl
@[simp] theorem setVec_rings (d : Device) (f v : Nat) (x : Vec) : (setVec d f v x).rings = d.rings := rfl
@[simp] theorem setVec_ringResets (d : Device) (f v : Nat) (x : Vec) : (setVec d f v x).ringResets = d.ringResets := rfl
@[simp] theorem setVec_ringLast (d : Device) (f v : Nat) (x : Vec) : (setVec d f v x).ringLast = d.ringLast := rfl
@[simp] theorem setVec_ringLost (d : Device) (f v : Nat) (x : Vec) : (setVec d f v x).ringLost = d.ringLost := rfl
@[simp] theorem setVec_mem (d : Device) (f v : Nat) (x : Vec) : (setVec d f v x).mem = d.mem := rfl
@[simp] theorem setVec_dma (d : Device) (f v : Nat) (x : Vec) : (setVec d f v x).dma = d.dma := rfl
@[simp] theorem setVec_intc (d : Device) (f v : Nat) (x : Vec) : (setVec d f v x).intc = d.intc := rfl
@[simp] theorem setVec_mbox (d : Device) (f v : Nat) (x : Vec) : (setVec d f v x).mbox = d.mbox := rfl
@[simp] theorem setVec_plumb (d : Device) (f v : Nat) (x : Vec) : (setVec d f v x).plumb = d.plumb := rfl
@[simp] theorem setVec_qpSecure (d : Device) (f v : Nat) (x : Vec) : (setVec d f v x).qpSecure = d.qpSecure := rfl
@[simp] theorem setVec_qpRefused (d : Device) (f v : Nat) (x : Vec) : (setVec d f v x).qpRefused = d.qpRefused := rfl
@[simp] theorem setVec_qpTrig (d : Device) (f v : Nat) (x : Vec) : (setVec d f v x).qpTrig = d.qpTrig := rfl
@[simp] theorem setVec_sw (d : Device) (f v : Nat) (x : Vec) : (setVec d f v x).sw = d.sw := rfl
@[simp] theorem setVec_eth (d : Device) (f v : Nat) (x : Vec) : (setVec d f v x).eth = d.eth := rfl
@[simp] theorem setVec_bond (d : Device) (f v : Nat) (x : Vec) : (setVec d f v x).bond = d.bond := rfl
@[simp] theorem setVec_ks (d : Device) (f v : Nat) (x : Vec) : (setVec d f v x).ks = d.ks := rfl
@[simp] theorem setVec_crp (d : Device) (f v : Nat) (x : Vec) : (setVec d f v x).crp = d.crp := rfl
@[simp] theorem setVec_perf (d : Device) (f v : Nat) (x : Vec) : (setVec d f v x).perf = d.perf := rfl
@[simp] theorem setVec_gpioIn (d : Device) (f v : Nat) (x : Vec) : (setVec d f v x).gpioIn = d.gpioIn := rfl
@[simp] theorem setVec_temp (d : Device) (f v : Nat) (x : Vec) : (setVec d f v x).temp = d.temp := rfl
@[simp] theorem setVec_tempValid (d : Device) (f v : Nat) (x : Vec) : (setVec d f v x).tempValid = d.tempValid := rfl
@[simp] theorem setVec_tap (d : Device) (f v : Nat) (x : Vec) : (setVec d f v x).tap = d.tap := rfl
@[simp] theorem setVec_ingest (d : Device) (f v : Nat) (x : Vec) : (setVec d f v x).ingest = d.ingest := rfl
@[simp] theorem setVec_mag (d : Device) (f v : Nat) (x : Vec) : (setVec d f v x).mag = d.mag := rfl
@[simp] theorem setVec_mortar (d : Device) (f v : Nat) (x : Vec) : (setVec d f v x).mortar = d.mortar := rfl
@[simp] theorem setVec_sdi (d : Device) (f v : Nat) (x : Vec) : (setVec d f v x).sdi = d.sdi := rfl
@[simp] theorem setVec_pins (d : Device) (f v : Nat) (x : Vec) : (setVec d f v x).pins = d.pins := rfl
@[simp] theorem setVec_codec (d : Device) (f v : Nat) (x : Vec) : (setVec d f v x).codec = d.codec := rfl
@[simp] theorem setVec_engines (d : Device) (f v : Nat) (x : Vec) : (setVec d f v x).engines = d.engines := rfl
@[simp] theorem setVec_out (d : Device) (f v : Nat) (x : Vec) : (setVec d f v x).out = d.out := rfl
@[simp] theorem setVec_verdicts (d : Device) (f v : Nat) (x : Vec) : (setVec d f v x).verdicts = d.verdicts := rfl
@[simp] theorem setVec_posted (d : Device) (f v : Nat) (x : Vec) : (setVec d f v x).posted = d.posted := rfl

@[simp] theorem setMbox_draw (d : Device) (c : Nat) (x : Mbox) : (setMbox d c x).draw = d.draw := rfl
@[simp] theorem setMbox_regs (d : Device) (c : Nat) (x : Mbox) : (setMbox d c x).regs = d.regs := rfl
@[simp] theorem setMbox_time (d : Device) (c : Nat) (x : Mbox) : (setMbox d c x).time = d.time := rfl
@[simp] theorem setMbox_frac (d : Device) (c : Nat) (x : Mbox) : (setMbox d c x).frac = d.frac := rfl
@[simp] theorem setMbox_up (d : Device) (c : Nat) (x : Mbox) : (setMbox d c x).up = d.up := rfl
@[simp] theorem setMbox_timeLatch (d : Device) (c : Nat) (x : Mbox) : (setMbox d c x).timeLatch = d.timeLatch := rfl
@[simp] theorem setMbox_qpLatch (d : Device) (c : Nat) (x : Mbox) : (setMbox d c x).qpLatch = d.qpLatch := rfl
@[simp] theorem setMbox_ctxs (d : Device) (c : Nat) (x : Mbox) : (setMbox d c x).ctxs = d.ctxs := rfl
@[simp] theorem setMbox_threadRecs (d : Device) (c : Nat) (x : Mbox) : (setMbox d c x).threadRecs = d.threadRecs := rfl
@[simp] theorem setMbox_rotation (d : Device) (c : Nat) (x : Mbox) : (setMbox d c x).rotation = d.rotation := rfl
@[simp] theorem setMbox_lastIssue (d : Device) (c : Nat) (x : Mbox) : (setMbox d c x).lastIssue = d.lastIssue := rfl
@[simp] theorem setMbox_issues (d : Device) (c : Nat) (x : Mbox) : (setMbox d c x).issues = d.issues := rfl
@[simp] theorem setMbox_tickets (d : Device) (c : Nat) (x : Mbox) : (setMbox d c x).tickets = d.tickets := rfl
@[simp] theorem setMbox_wos (d : Device) (c : Nat) (x : Mbox) : (setMbox d c x).wos = d.wos := rfl
@[simp] theorem setMbox_woSeq (d : Device) (c : Nat) (x : Mbox) : (setMbox d c x).woSeq = d.woSeq := rfl
@[simp] theorem setMbox_recs (d : Device) (c : Nat) (x : Mbox) : (setMbox d c x).recs = d.recs := rfl
@[simp] theorem setMbox_cancelMiss (d : Device) (c : Nat) (x : Mbox) : (setMbox d c x).cancelMiss = d.cancelMiss := rfl
@[simp] theorem setMbox_cancelDone (d : Device) (c : Nat) (x : Mbox) : (setMbox d c x).cancelDone = d.cancelDone := rfl
@[simp] theorem setMbox_pfLost (d : Device) (c : Nat) (x : Mbox) : (setMbox d c x).pfLost = d.pfLost := rfl
@[simp] theorem setMbox_pfCancelled (d : Device) (c : Nat) (x : Mbox) : (setMbox d c x).pfCancelled = d.pfCancelled := rfl
@[simp] theorem setMbox_yard (d : Device) (c : Nat) (x : Mbox) : (setMbox d c x).yard = d.yard := rfl
@[simp] theorem setMbox_rings (d : Device) (c : Nat) (x : Mbox) : (setMbox d c x).rings = d.rings := rfl
@[simp] theorem setMbox_ringResets (d : Device) (c : Nat) (x : Mbox) : (setMbox d c x).ringResets = d.ringResets := rfl
@[simp] theorem setMbox_ringLast (d : Device) (c : Nat) (x : Mbox) : (setMbox d c x).ringLast = d.ringLast := rfl
@[simp] theorem setMbox_ringLost (d : Device) (c : Nat) (x : Mbox) : (setMbox d c x).ringLost = d.ringLost := rfl
@[simp] theorem setMbox_mem (d : Device) (c : Nat) (x : Mbox) : (setMbox d c x).mem = d.mem := rfl
@[simp] theorem setMbox_dma (d : Device) (c : Nat) (x : Mbox) : (setMbox d c x).dma = d.dma := rfl
@[simp] theorem setMbox_intc (d : Device) (c : Nat) (x : Mbox) : (setMbox d c x).intc = d.intc := rfl
@[simp] theorem setMbox_plumb (d : Device) (c : Nat) (x : Mbox) : (setMbox d c x).plumb = d.plumb := rfl
@[simp] theorem setMbox_host (d : Device) (c : Nat) (x : Mbox) : (setMbox d c x).host = d.host := rfl
@[simp] theorem setMbox_qpSecure (d : Device) (c : Nat) (x : Mbox) : (setMbox d c x).qpSecure = d.qpSecure := rfl
@[simp] theorem setMbox_qpRefused (d : Device) (c : Nat) (x : Mbox) : (setMbox d c x).qpRefused = d.qpRefused := rfl
@[simp] theorem setMbox_qpTrig (d : Device) (c : Nat) (x : Mbox) : (setMbox d c x).qpTrig = d.qpTrig := rfl
@[simp] theorem setMbox_sw (d : Device) (c : Nat) (x : Mbox) : (setMbox d c x).sw = d.sw := rfl
@[simp] theorem setMbox_eth (d : Device) (c : Nat) (x : Mbox) : (setMbox d c x).eth = d.eth := rfl
@[simp] theorem setMbox_bond (d : Device) (c : Nat) (x : Mbox) : (setMbox d c x).bond = d.bond := rfl
@[simp] theorem setMbox_ks (d : Device) (c : Nat) (x : Mbox) : (setMbox d c x).ks = d.ks := rfl
@[simp] theorem setMbox_crp (d : Device) (c : Nat) (x : Mbox) : (setMbox d c x).crp = d.crp := rfl
@[simp] theorem setMbox_perf (d : Device) (c : Nat) (x : Mbox) : (setMbox d c x).perf = d.perf := rfl
@[simp] theorem setMbox_gpioIn (d : Device) (c : Nat) (x : Mbox) : (setMbox d c x).gpioIn = d.gpioIn := rfl
@[simp] theorem setMbox_temp (d : Device) (c : Nat) (x : Mbox) : (setMbox d c x).temp = d.temp := rfl
@[simp] theorem setMbox_tempValid (d : Device) (c : Nat) (x : Mbox) : (setMbox d c x).tempValid = d.tempValid := rfl
@[simp] theorem setMbox_tap (d : Device) (c : Nat) (x : Mbox) : (setMbox d c x).tap = d.tap := rfl
@[simp] theorem setMbox_ingest (d : Device) (c : Nat) (x : Mbox) : (setMbox d c x).ingest = d.ingest := rfl
@[simp] theorem setMbox_mag (d : Device) (c : Nat) (x : Mbox) : (setMbox d c x).mag = d.mag := rfl
@[simp] theorem setMbox_mortar (d : Device) (c : Nat) (x : Mbox) : (setMbox d c x).mortar = d.mortar := rfl
@[simp] theorem setMbox_sdi (d : Device) (c : Nat) (x : Mbox) : (setMbox d c x).sdi = d.sdi := rfl
@[simp] theorem setMbox_pins (d : Device) (c : Nat) (x : Mbox) : (setMbox d c x).pins = d.pins := rfl
@[simp] theorem setMbox_codec (d : Device) (c : Nat) (x : Mbox) : (setMbox d c x).codec = d.codec := rfl
@[simp] theorem setMbox_engines (d : Device) (c : Nat) (x : Mbox) : (setMbox d c x).engines = d.engines := rfl
@[simp] theorem setMbox_out (d : Device) (c : Nat) (x : Mbox) : (setMbox d c x).out = d.out := rfl
@[simp] theorem setMbox_verdicts (d : Device) (c : Nat) (x : Mbox) : (setMbox d c x).verdicts = d.verdicts := rfl
@[simp] theorem setMbox_posted (d : Device) (c : Nat) (x : Mbox) : (setMbox d c x).posted = d.posted := rfl

@[simp] theorem setRing_draw (d : Device) (r : Nat) (x : Ring) : (setRing d r x).draw = d.draw := rfl
@[simp] theorem setRing_regs (d : Device) (r : Nat) (x : Ring) : (setRing d r x).regs = d.regs := rfl
@[simp] theorem setRing_time (d : Device) (r : Nat) (x : Ring) : (setRing d r x).time = d.time := rfl
@[simp] theorem setRing_frac (d : Device) (r : Nat) (x : Ring) : (setRing d r x).frac = d.frac := rfl
@[simp] theorem setRing_up (d : Device) (r : Nat) (x : Ring) : (setRing d r x).up = d.up := rfl
@[simp] theorem setRing_timeLatch (d : Device) (r : Nat) (x : Ring) : (setRing d r x).timeLatch = d.timeLatch := rfl
@[simp] theorem setRing_qpLatch (d : Device) (r : Nat) (x : Ring) : (setRing d r x).qpLatch = d.qpLatch := rfl
@[simp] theorem setRing_ctxs (d : Device) (r : Nat) (x : Ring) : (setRing d r x).ctxs = d.ctxs := rfl
@[simp] theorem setRing_threadRecs (d : Device) (r : Nat) (x : Ring) : (setRing d r x).threadRecs = d.threadRecs := rfl
@[simp] theorem setRing_rotation (d : Device) (r : Nat) (x : Ring) : (setRing d r x).rotation = d.rotation := rfl
@[simp] theorem setRing_lastIssue (d : Device) (r : Nat) (x : Ring) : (setRing d r x).lastIssue = d.lastIssue := rfl
@[simp] theorem setRing_issues (d : Device) (r : Nat) (x : Ring) : (setRing d r x).issues = d.issues := rfl
@[simp] theorem setRing_tickets (d : Device) (r : Nat) (x : Ring) : (setRing d r x).tickets = d.tickets := rfl
@[simp] theorem setRing_wos (d : Device) (r : Nat) (x : Ring) : (setRing d r x).wos = d.wos := rfl
@[simp] theorem setRing_woSeq (d : Device) (r : Nat) (x : Ring) : (setRing d r x).woSeq = d.woSeq := rfl
@[simp] theorem setRing_recs (d : Device) (r : Nat) (x : Ring) : (setRing d r x).recs = d.recs := rfl
@[simp] theorem setRing_cancelMiss (d : Device) (r : Nat) (x : Ring) : (setRing d r x).cancelMiss = d.cancelMiss := rfl
@[simp] theorem setRing_cancelDone (d : Device) (r : Nat) (x : Ring) : (setRing d r x).cancelDone = d.cancelDone := rfl
@[simp] theorem setRing_pfLost (d : Device) (r : Nat) (x : Ring) : (setRing d r x).pfLost = d.pfLost := rfl
@[simp] theorem setRing_pfCancelled (d : Device) (r : Nat) (x : Ring) : (setRing d r x).pfCancelled = d.pfCancelled := rfl
@[simp] theorem setRing_yard (d : Device) (r : Nat) (x : Ring) : (setRing d r x).yard = d.yard := rfl
@[simp] theorem setRing_ringResets (d : Device) (r : Nat) (x : Ring) : (setRing d r x).ringResets = d.ringResets := rfl
@[simp] theorem setRing_ringLast (d : Device) (r : Nat) (x : Ring) : (setRing d r x).ringLast = d.ringLast := rfl
@[simp] theorem setRing_ringLost (d : Device) (r : Nat) (x : Ring) : (setRing d r x).ringLost = d.ringLost := rfl
@[simp] theorem setRing_mem (d : Device) (r : Nat) (x : Ring) : (setRing d r x).mem = d.mem := rfl
@[simp] theorem setRing_dma (d : Device) (r : Nat) (x : Ring) : (setRing d r x).dma = d.dma := rfl
@[simp] theorem setRing_intc (d : Device) (r : Nat) (x : Ring) : (setRing d r x).intc = d.intc := rfl
@[simp] theorem setRing_mbox (d : Device) (r : Nat) (x : Ring) : (setRing d r x).mbox = d.mbox := rfl
@[simp] theorem setRing_plumb (d : Device) (r : Nat) (x : Ring) : (setRing d r x).plumb = d.plumb := rfl
@[simp] theorem setRing_host (d : Device) (r : Nat) (x : Ring) : (setRing d r x).host = d.host := rfl
@[simp] theorem setRing_qpSecure (d : Device) (r : Nat) (x : Ring) : (setRing d r x).qpSecure = d.qpSecure := rfl
@[simp] theorem setRing_qpRefused (d : Device) (r : Nat) (x : Ring) : (setRing d r x).qpRefused = d.qpRefused := rfl
@[simp] theorem setRing_qpTrig (d : Device) (r : Nat) (x : Ring) : (setRing d r x).qpTrig = d.qpTrig := rfl
@[simp] theorem setRing_sw (d : Device) (r : Nat) (x : Ring) : (setRing d r x).sw = d.sw := rfl
@[simp] theorem setRing_eth (d : Device) (r : Nat) (x : Ring) : (setRing d r x).eth = d.eth := rfl
@[simp] theorem setRing_bond (d : Device) (r : Nat) (x : Ring) : (setRing d r x).bond = d.bond := rfl
@[simp] theorem setRing_ks (d : Device) (r : Nat) (x : Ring) : (setRing d r x).ks = d.ks := rfl
@[simp] theorem setRing_crp (d : Device) (r : Nat) (x : Ring) : (setRing d r x).crp = d.crp := rfl
@[simp] theorem setRing_perf (d : Device) (r : Nat) (x : Ring) : (setRing d r x).perf = d.perf := rfl
@[simp] theorem setRing_gpioIn (d : Device) (r : Nat) (x : Ring) : (setRing d r x).gpioIn = d.gpioIn := rfl
@[simp] theorem setRing_temp (d : Device) (r : Nat) (x : Ring) : (setRing d r x).temp = d.temp := rfl
@[simp] theorem setRing_tempValid (d : Device) (r : Nat) (x : Ring) : (setRing d r x).tempValid = d.tempValid := rfl
@[simp] theorem setRing_tap (d : Device) (r : Nat) (x : Ring) : (setRing d r x).tap = d.tap := rfl
@[simp] theorem setRing_ingest (d : Device) (r : Nat) (x : Ring) : (setRing d r x).ingest = d.ingest := rfl
@[simp] theorem setRing_mag (d : Device) (r : Nat) (x : Ring) : (setRing d r x).mag = d.mag := rfl
@[simp] theorem setRing_mortar (d : Device) (r : Nat) (x : Ring) : (setRing d r x).mortar = d.mortar := rfl
@[simp] theorem setRing_sdi (d : Device) (r : Nat) (x : Ring) : (setRing d r x).sdi = d.sdi := rfl
@[simp] theorem setRing_pins (d : Device) (r : Nat) (x : Ring) : (setRing d r x).pins = d.pins := rfl
@[simp] theorem setRing_codec (d : Device) (r : Nat) (x : Ring) : (setRing d r x).codec = d.codec := rfl
@[simp] theorem setRing_engines (d : Device) (r : Nat) (x : Ring) : (setRing d r x).engines = d.engines := rfl
@[simp] theorem setRing_out (d : Device) (r : Nat) (x : Ring) : (setRing d r x).out = d.out := rfl
@[simp] theorem setRing_verdicts (d : Device) (r : Nat) (x : Ring) : (setRing d r x).verdicts = d.verdicts := rfl
@[simp] theorem setRing_posted (d : Device) (r : Nat) (x : Ring) : (setRing d r x).posted = d.posted := rfl

@[simp] theorem setBuf_draw (d : Device) (i : Nat) (b : Buf) : (setBuf d i b).draw = d.draw := rfl
@[simp] theorem setBuf_regs (d : Device) (i : Nat) (b : Buf) : (setBuf d i b).regs = d.regs := rfl
@[simp] theorem setBuf_time (d : Device) (i : Nat) (b : Buf) : (setBuf d i b).time = d.time := rfl
@[simp] theorem setBuf_frac (d : Device) (i : Nat) (b : Buf) : (setBuf d i b).frac = d.frac := rfl
@[simp] theorem setBuf_up (d : Device) (i : Nat) (b : Buf) : (setBuf d i b).up = d.up := rfl
@[simp] theorem setBuf_timeLatch (d : Device) (i : Nat) (b : Buf) : (setBuf d i b).timeLatch = d.timeLatch := rfl
@[simp] theorem setBuf_qpLatch (d : Device) (i : Nat) (b : Buf) : (setBuf d i b).qpLatch = d.qpLatch := rfl
@[simp] theorem setBuf_ctxs (d : Device) (i : Nat) (b : Buf) : (setBuf d i b).ctxs = d.ctxs := rfl
@[simp] theorem setBuf_threadRecs (d : Device) (i : Nat) (b : Buf) : (setBuf d i b).threadRecs = d.threadRecs := rfl
@[simp] theorem setBuf_rotation (d : Device) (i : Nat) (b : Buf) : (setBuf d i b).rotation = d.rotation := rfl
@[simp] theorem setBuf_lastIssue (d : Device) (i : Nat) (b : Buf) : (setBuf d i b).lastIssue = d.lastIssue := rfl
@[simp] theorem setBuf_issues (d : Device) (i : Nat) (b : Buf) : (setBuf d i b).issues = d.issues := rfl
@[simp] theorem setBuf_tickets (d : Device) (i : Nat) (b : Buf) : (setBuf d i b).tickets = d.tickets := rfl
@[simp] theorem setBuf_wos (d : Device) (i : Nat) (b : Buf) : (setBuf d i b).wos = d.wos := rfl
@[simp] theorem setBuf_woSeq (d : Device) (i : Nat) (b : Buf) : (setBuf d i b).woSeq = d.woSeq := rfl
@[simp] theorem setBuf_recs (d : Device) (i : Nat) (b : Buf) : (setBuf d i b).recs = d.recs := rfl
@[simp] theorem setBuf_cancelMiss (d : Device) (i : Nat) (b : Buf) : (setBuf d i b).cancelMiss = d.cancelMiss := rfl
@[simp] theorem setBuf_cancelDone (d : Device) (i : Nat) (b : Buf) : (setBuf d i b).cancelDone = d.cancelDone := rfl
@[simp] theorem setBuf_pfLost (d : Device) (i : Nat) (b : Buf) : (setBuf d i b).pfLost = d.pfLost := rfl
@[simp] theorem setBuf_pfCancelled (d : Device) (i : Nat) (b : Buf) : (setBuf d i b).pfCancelled = d.pfCancelled := rfl
@[simp] theorem setBuf_rings (d : Device) (i : Nat) (b : Buf) : (setBuf d i b).rings = d.rings := rfl
@[simp] theorem setBuf_ringResets (d : Device) (i : Nat) (b : Buf) : (setBuf d i b).ringResets = d.ringResets := rfl
@[simp] theorem setBuf_ringLast (d : Device) (i : Nat) (b : Buf) : (setBuf d i b).ringLast = d.ringLast := rfl
@[simp] theorem setBuf_ringLost (d : Device) (i : Nat) (b : Buf) : (setBuf d i b).ringLost = d.ringLost := rfl
@[simp] theorem setBuf_mem (d : Device) (i : Nat) (b : Buf) : (setBuf d i b).mem = d.mem := rfl
@[simp] theorem setBuf_dma (d : Device) (i : Nat) (b : Buf) : (setBuf d i b).dma = d.dma := rfl
@[simp] theorem setBuf_intc (d : Device) (i : Nat) (b : Buf) : (setBuf d i b).intc = d.intc := rfl
@[simp] theorem setBuf_mbox (d : Device) (i : Nat) (b : Buf) : (setBuf d i b).mbox = d.mbox := rfl
@[simp] theorem setBuf_plumb (d : Device) (i : Nat) (b : Buf) : (setBuf d i b).plumb = d.plumb := rfl
@[simp] theorem setBuf_host (d : Device) (i : Nat) (b : Buf) : (setBuf d i b).host = d.host := rfl
@[simp] theorem setBuf_qpSecure (d : Device) (i : Nat) (b : Buf) : (setBuf d i b).qpSecure = d.qpSecure := rfl
@[simp] theorem setBuf_qpRefused (d : Device) (i : Nat) (b : Buf) : (setBuf d i b).qpRefused = d.qpRefused := rfl
@[simp] theorem setBuf_qpTrig (d : Device) (i : Nat) (b : Buf) : (setBuf d i b).qpTrig = d.qpTrig := rfl
@[simp] theorem setBuf_sw (d : Device) (i : Nat) (b : Buf) : (setBuf d i b).sw = d.sw := rfl
@[simp] theorem setBuf_eth (d : Device) (i : Nat) (b : Buf) : (setBuf d i b).eth = d.eth := rfl
@[simp] theorem setBuf_bond (d : Device) (i : Nat) (b : Buf) : (setBuf d i b).bond = d.bond := rfl
@[simp] theorem setBuf_ks (d : Device) (i : Nat) (b : Buf) : (setBuf d i b).ks = d.ks := rfl
@[simp] theorem setBuf_crp (d : Device) (i : Nat) (b : Buf) : (setBuf d i b).crp = d.crp := rfl
@[simp] theorem setBuf_perf (d : Device) (i : Nat) (b : Buf) : (setBuf d i b).perf = d.perf := rfl
@[simp] theorem setBuf_gpioIn (d : Device) (i : Nat) (b : Buf) : (setBuf d i b).gpioIn = d.gpioIn := rfl
@[simp] theorem setBuf_temp (d : Device) (i : Nat) (b : Buf) : (setBuf d i b).temp = d.temp := rfl
@[simp] theorem setBuf_tempValid (d : Device) (i : Nat) (b : Buf) : (setBuf d i b).tempValid = d.tempValid := rfl
@[simp] theorem setBuf_tap (d : Device) (i : Nat) (b : Buf) : (setBuf d i b).tap = d.tap := rfl
@[simp] theorem setBuf_ingest (d : Device) (i : Nat) (b : Buf) : (setBuf d i b).ingest = d.ingest := rfl
@[simp] theorem setBuf_mag (d : Device) (i : Nat) (b : Buf) : (setBuf d i b).mag = d.mag := rfl
@[simp] theorem setBuf_mortar (d : Device) (i : Nat) (b : Buf) : (setBuf d i b).mortar = d.mortar := rfl
@[simp] theorem setBuf_sdi (d : Device) (i : Nat) (b : Buf) : (setBuf d i b).sdi = d.sdi := rfl
@[simp] theorem setBuf_pins (d : Device) (i : Nat) (b : Buf) : (setBuf d i b).pins = d.pins := rfl
@[simp] theorem setBuf_codec (d : Device) (i : Nat) (b : Buf) : (setBuf d i b).codec = d.codec := rfl
@[simp] theorem setBuf_engines (d : Device) (i : Nat) (b : Buf) : (setBuf d i b).engines = d.engines := rfl
@[simp] theorem setBuf_out (d : Device) (i : Nat) (b : Buf) : (setBuf d i b).out = d.out := rfl
@[simp] theorem setBuf_verdicts (d : Device) (i : Nat) (b : Buf) : (setBuf d i b).verdicts = d.verdicts := rfl
@[simp] theorem setBuf_posted (d : Device) (i : Nat) (b : Buf) : (setBuf d i b).posted = d.posted := rfl

@[simp] theorem withCells_draw (d : Device) (c : List Host.Cell) : (withCells d c).draw = d.draw := rfl
@[simp] theorem withCells_regs (d : Device) (c : List Host.Cell) : (withCells d c).regs = d.regs := rfl
@[simp] theorem withCells_time (d : Device) (c : List Host.Cell) : (withCells d c).time = d.time := rfl
@[simp] theorem withCells_frac (d : Device) (c : List Host.Cell) : (withCells d c).frac = d.frac := rfl
@[simp] theorem withCells_up (d : Device) (c : List Host.Cell) : (withCells d c).up = d.up := rfl
@[simp] theorem withCells_timeLatch (d : Device) (c : List Host.Cell) : (withCells d c).timeLatch = d.timeLatch := rfl
@[simp] theorem withCells_qpLatch (d : Device) (c : List Host.Cell) : (withCells d c).qpLatch = d.qpLatch := rfl
@[simp] theorem withCells_ctxs (d : Device) (c : List Host.Cell) : (withCells d c).ctxs = d.ctxs := rfl
@[simp] theorem withCells_threadRecs (d : Device) (c : List Host.Cell) : (withCells d c).threadRecs = d.threadRecs := rfl
@[simp] theorem withCells_rotation (d : Device) (c : List Host.Cell) : (withCells d c).rotation = d.rotation := rfl
@[simp] theorem withCells_lastIssue (d : Device) (c : List Host.Cell) : (withCells d c).lastIssue = d.lastIssue := rfl
@[simp] theorem withCells_issues (d : Device) (c : List Host.Cell) : (withCells d c).issues = d.issues := rfl
@[simp] theorem withCells_tickets (d : Device) (c : List Host.Cell) : (withCells d c).tickets = d.tickets := rfl
@[simp] theorem withCells_wos (d : Device) (c : List Host.Cell) : (withCells d c).wos = d.wos := rfl
@[simp] theorem withCells_woSeq (d : Device) (c : List Host.Cell) : (withCells d c).woSeq = d.woSeq := rfl
@[simp] theorem withCells_recs (d : Device) (c : List Host.Cell) : (withCells d c).recs = d.recs := rfl
@[simp] theorem withCells_cancelMiss (d : Device) (c : List Host.Cell) : (withCells d c).cancelMiss = d.cancelMiss := rfl
@[simp] theorem withCells_cancelDone (d : Device) (c : List Host.Cell) : (withCells d c).cancelDone = d.cancelDone := rfl
@[simp] theorem withCells_pfLost (d : Device) (c : List Host.Cell) : (withCells d c).pfLost = d.pfLost := rfl
@[simp] theorem withCells_pfCancelled (d : Device) (c : List Host.Cell) : (withCells d c).pfCancelled = d.pfCancelled := rfl
@[simp] theorem withCells_yard (d : Device) (c : List Host.Cell) : (withCells d c).yard = d.yard := rfl
@[simp] theorem withCells_rings (d : Device) (c : List Host.Cell) : (withCells d c).rings = d.rings := rfl
@[simp] theorem withCells_ringResets (d : Device) (c : List Host.Cell) : (withCells d c).ringResets = d.ringResets := rfl
@[simp] theorem withCells_ringLast (d : Device) (c : List Host.Cell) : (withCells d c).ringLast = d.ringLast := rfl
@[simp] theorem withCells_ringLost (d : Device) (c : List Host.Cell) : (withCells d c).ringLost = d.ringLost := rfl
@[simp] theorem withCells_dma (d : Device) (c : List Host.Cell) : (withCells d c).dma = d.dma := rfl
@[simp] theorem withCells_intc (d : Device) (c : List Host.Cell) : (withCells d c).intc = d.intc := rfl
@[simp] theorem withCells_mbox (d : Device) (c : List Host.Cell) : (withCells d c).mbox = d.mbox := rfl
@[simp] theorem withCells_plumb (d : Device) (c : List Host.Cell) : (withCells d c).plumb = d.plumb := rfl
@[simp] theorem withCells_host (d : Device) (c : List Host.Cell) : (withCells d c).host = d.host := rfl
@[simp] theorem withCells_qpSecure (d : Device) (c : List Host.Cell) : (withCells d c).qpSecure = d.qpSecure := rfl
@[simp] theorem withCells_qpRefused (d : Device) (c : List Host.Cell) : (withCells d c).qpRefused = d.qpRefused := rfl
@[simp] theorem withCells_qpTrig (d : Device) (c : List Host.Cell) : (withCells d c).qpTrig = d.qpTrig := rfl
@[simp] theorem withCells_sw (d : Device) (c : List Host.Cell) : (withCells d c).sw = d.sw := rfl
@[simp] theorem withCells_eth (d : Device) (c : List Host.Cell) : (withCells d c).eth = d.eth := rfl
@[simp] theorem withCells_bond (d : Device) (c : List Host.Cell) : (withCells d c).bond = d.bond := rfl
@[simp] theorem withCells_ks (d : Device) (c : List Host.Cell) : (withCells d c).ks = d.ks := rfl
@[simp] theorem withCells_crp (d : Device) (c : List Host.Cell) : (withCells d c).crp = d.crp := rfl
@[simp] theorem withCells_perf (d : Device) (c : List Host.Cell) : (withCells d c).perf = d.perf := rfl
@[simp] theorem withCells_gpioIn (d : Device) (c : List Host.Cell) : (withCells d c).gpioIn = d.gpioIn := rfl
@[simp] theorem withCells_temp (d : Device) (c : List Host.Cell) : (withCells d c).temp = d.temp := rfl
@[simp] theorem withCells_tempValid (d : Device) (c : List Host.Cell) : (withCells d c).tempValid = d.tempValid := rfl
@[simp] theorem withCells_tap (d : Device) (c : List Host.Cell) : (withCells d c).tap = d.tap := rfl
@[simp] theorem withCells_ingest (d : Device) (c : List Host.Cell) : (withCells d c).ingest = d.ingest := rfl
@[simp] theorem withCells_mag (d : Device) (c : List Host.Cell) : (withCells d c).mag = d.mag := rfl
@[simp] theorem withCells_mortar (d : Device) (c : List Host.Cell) : (withCells d c).mortar = d.mortar := rfl
@[simp] theorem withCells_sdi (d : Device) (c : List Host.Cell) : (withCells d c).sdi = d.sdi := rfl
@[simp] theorem withCells_pins (d : Device) (c : List Host.Cell) : (withCells d c).pins = d.pins := rfl
@[simp] theorem withCells_codec (d : Device) (c : List Host.Cell) : (withCells d c).codec = d.codec := rfl
@[simp] theorem withCells_engines (d : Device) (c : List Host.Cell) : (withCells d c).engines = d.engines := rfl
@[simp] theorem withCells_out (d : Device) (c : List Host.Cell) : (withCells d c).out = d.out := rfl
@[simp] theorem withCells_verdicts (d : Device) (c : List Host.Cell) : (withCells d c).verdicts = d.verdicts := rfl
@[simp] theorem withCells_posted (d : Device) (c : List Host.Cell) : (withCells d c).posted = d.posted := rfl

@[simp] theorem setBank_draw (d : Device) (n : Nat) (b : Bank) : (setBank d n b).draw = d.draw := rfl
@[simp] theorem setBank_regs (d : Device) (n : Nat) (b : Bank) : (setBank d n b).regs = d.regs := rfl
@[simp] theorem setBank_time (d : Device) (n : Nat) (b : Bank) : (setBank d n b).time = d.time := rfl
@[simp] theorem setBank_frac (d : Device) (n : Nat) (b : Bank) : (setBank d n b).frac = d.frac := rfl
@[simp] theorem setBank_up (d : Device) (n : Nat) (b : Bank) : (setBank d n b).up = d.up := rfl
@[simp] theorem setBank_timeLatch (d : Device) (n : Nat) (b : Bank) : (setBank d n b).timeLatch = d.timeLatch := rfl
@[simp] theorem setBank_qpLatch (d : Device) (n : Nat) (b : Bank) : (setBank d n b).qpLatch = d.qpLatch := rfl
@[simp] theorem setBank_ctxs (d : Device) (n : Nat) (b : Bank) : (setBank d n b).ctxs = d.ctxs := rfl
@[simp] theorem setBank_threadRecs (d : Device) (n : Nat) (b : Bank) : (setBank d n b).threadRecs = d.threadRecs := rfl
@[simp] theorem setBank_rotation (d : Device) (n : Nat) (b : Bank) : (setBank d n b).rotation = d.rotation := rfl
@[simp] theorem setBank_lastIssue (d : Device) (n : Nat) (b : Bank) : (setBank d n b).lastIssue = d.lastIssue := rfl
@[simp] theorem setBank_issues (d : Device) (n : Nat) (b : Bank) : (setBank d n b).issues = d.issues := rfl
@[simp] theorem setBank_tickets (d : Device) (n : Nat) (b : Bank) : (setBank d n b).tickets = d.tickets := rfl
@[simp] theorem setBank_wos (d : Device) (n : Nat) (b : Bank) : (setBank d n b).wos = d.wos := rfl
@[simp] theorem setBank_woSeq (d : Device) (n : Nat) (b : Bank) : (setBank d n b).woSeq = d.woSeq := rfl
@[simp] theorem setBank_recs (d : Device) (n : Nat) (b : Bank) : (setBank d n b).recs = d.recs := rfl
@[simp] theorem setBank_cancelMiss (d : Device) (n : Nat) (b : Bank) : (setBank d n b).cancelMiss = d.cancelMiss := rfl
@[simp] theorem setBank_cancelDone (d : Device) (n : Nat) (b : Bank) : (setBank d n b).cancelDone = d.cancelDone := rfl
@[simp] theorem setBank_pfLost (d : Device) (n : Nat) (b : Bank) : (setBank d n b).pfLost = d.pfLost := rfl
@[simp] theorem setBank_pfCancelled (d : Device) (n : Nat) (b : Bank) : (setBank d n b).pfCancelled = d.pfCancelled := rfl
@[simp] theorem setBank_yard (d : Device) (n : Nat) (b : Bank) : (setBank d n b).yard = d.yard := rfl
@[simp] theorem setBank_rings (d : Device) (n : Nat) (b : Bank) : (setBank d n b).rings = d.rings := rfl
@[simp] theorem setBank_ringResets (d : Device) (n : Nat) (b : Bank) : (setBank d n b).ringResets = d.ringResets := rfl
@[simp] theorem setBank_ringLast (d : Device) (n : Nat) (b : Bank) : (setBank d n b).ringLast = d.ringLast := rfl
@[simp] theorem setBank_ringLost (d : Device) (n : Nat) (b : Bank) : (setBank d n b).ringLost = d.ringLost := rfl
@[simp] theorem setBank_dma (d : Device) (n : Nat) (b : Bank) : (setBank d n b).dma = d.dma := rfl
@[simp] theorem setBank_intc (d : Device) (n : Nat) (b : Bank) : (setBank d n b).intc = d.intc := rfl
@[simp] theorem setBank_mbox (d : Device) (n : Nat) (b : Bank) : (setBank d n b).mbox = d.mbox := rfl
@[simp] theorem setBank_plumb (d : Device) (n : Nat) (b : Bank) : (setBank d n b).plumb = d.plumb := rfl
@[simp] theorem setBank_host (d : Device) (n : Nat) (b : Bank) : (setBank d n b).host = d.host := rfl
@[simp] theorem setBank_qpSecure (d : Device) (n : Nat) (b : Bank) : (setBank d n b).qpSecure = d.qpSecure := rfl
@[simp] theorem setBank_qpRefused (d : Device) (n : Nat) (b : Bank) : (setBank d n b).qpRefused = d.qpRefused := rfl
@[simp] theorem setBank_qpTrig (d : Device) (n : Nat) (b : Bank) : (setBank d n b).qpTrig = d.qpTrig := rfl
@[simp] theorem setBank_sw (d : Device) (n : Nat) (b : Bank) : (setBank d n b).sw = d.sw := rfl
@[simp] theorem setBank_eth (d : Device) (n : Nat) (b : Bank) : (setBank d n b).eth = d.eth := rfl
@[simp] theorem setBank_bond (d : Device) (n : Nat) (b : Bank) : (setBank d n b).bond = d.bond := rfl
@[simp] theorem setBank_ks (d : Device) (n : Nat) (b : Bank) : (setBank d n b).ks = d.ks := rfl
@[simp] theorem setBank_crp (d : Device) (n : Nat) (b : Bank) : (setBank d n b).crp = d.crp := rfl
@[simp] theorem setBank_perf (d : Device) (n : Nat) (b : Bank) : (setBank d n b).perf = d.perf := rfl
@[simp] theorem setBank_gpioIn (d : Device) (n : Nat) (b : Bank) : (setBank d n b).gpioIn = d.gpioIn := rfl
@[simp] theorem setBank_temp (d : Device) (n : Nat) (b : Bank) : (setBank d n b).temp = d.temp := rfl
@[simp] theorem setBank_tempValid (d : Device) (n : Nat) (b : Bank) : (setBank d n b).tempValid = d.tempValid := rfl
@[simp] theorem setBank_tap (d : Device) (n : Nat) (b : Bank) : (setBank d n b).tap = d.tap := rfl
@[simp] theorem setBank_ingest (d : Device) (n : Nat) (b : Bank) : (setBank d n b).ingest = d.ingest := rfl
@[simp] theorem setBank_mag (d : Device) (n : Nat) (b : Bank) : (setBank d n b).mag = d.mag := rfl
@[simp] theorem setBank_mortar (d : Device) (n : Nat) (b : Bank) : (setBank d n b).mortar = d.mortar := rfl
@[simp] theorem setBank_sdi (d : Device) (n : Nat) (b : Bank) : (setBank d n b).sdi = d.sdi := rfl
@[simp] theorem setBank_pins (d : Device) (n : Nat) (b : Bank) : (setBank d n b).pins = d.pins := rfl
@[simp] theorem setBank_codec (d : Device) (n : Nat) (b : Bank) : (setBank d n b).codec = d.codec := rfl
@[simp] theorem setBank_engines (d : Device) (n : Nat) (b : Bank) : (setBank d n b).engines = d.engines := rfl
@[simp] theorem setBank_out (d : Device) (n : Nat) (b : Bank) : (setBank d n b).out = d.out := rfl
@[simp] theorem setBank_verdicts (d : Device) (n : Nat) (b : Bank) : (setBank d n b).verdicts = d.verdicts := rfl
@[simp] theorem setBank_posted (d : Device) (n : Nat) (b : Bank) : (setBank d n b).posted = d.posted := rfl

@[simp] theorem setDma_draw (d : Device) (c : Nat) (x : DmaChan) : (setDma d c x).draw = d.draw := rfl
@[simp] theorem setDma_regs (d : Device) (c : Nat) (x : DmaChan) : (setDma d c x).regs = d.regs := rfl
@[simp] theorem setDma_time (d : Device) (c : Nat) (x : DmaChan) : (setDma d c x).time = d.time := rfl
@[simp] theorem setDma_frac (d : Device) (c : Nat) (x : DmaChan) : (setDma d c x).frac = d.frac := rfl
@[simp] theorem setDma_up (d : Device) (c : Nat) (x : DmaChan) : (setDma d c x).up = d.up := rfl
@[simp] theorem setDma_timeLatch (d : Device) (c : Nat) (x : DmaChan) : (setDma d c x).timeLatch = d.timeLatch := rfl
@[simp] theorem setDma_qpLatch (d : Device) (c : Nat) (x : DmaChan) : (setDma d c x).qpLatch = d.qpLatch := rfl
@[simp] theorem setDma_ctxs (d : Device) (c : Nat) (x : DmaChan) : (setDma d c x).ctxs = d.ctxs := rfl
@[simp] theorem setDma_threadRecs (d : Device) (c : Nat) (x : DmaChan) : (setDma d c x).threadRecs = d.threadRecs := rfl
@[simp] theorem setDma_rotation (d : Device) (c : Nat) (x : DmaChan) : (setDma d c x).rotation = d.rotation := rfl
@[simp] theorem setDma_lastIssue (d : Device) (c : Nat) (x : DmaChan) : (setDma d c x).lastIssue = d.lastIssue := rfl
@[simp] theorem setDma_issues (d : Device) (c : Nat) (x : DmaChan) : (setDma d c x).issues = d.issues := rfl
@[simp] theorem setDma_tickets (d : Device) (c : Nat) (x : DmaChan) : (setDma d c x).tickets = d.tickets := rfl
@[simp] theorem setDma_wos (d : Device) (c : Nat) (x : DmaChan) : (setDma d c x).wos = d.wos := rfl
@[simp] theorem setDma_woSeq (d : Device) (c : Nat) (x : DmaChan) : (setDma d c x).woSeq = d.woSeq := rfl
@[simp] theorem setDma_recs (d : Device) (c : Nat) (x : DmaChan) : (setDma d c x).recs = d.recs := rfl
@[simp] theorem setDma_cancelMiss (d : Device) (c : Nat) (x : DmaChan) : (setDma d c x).cancelMiss = d.cancelMiss := rfl
@[simp] theorem setDma_cancelDone (d : Device) (c : Nat) (x : DmaChan) : (setDma d c x).cancelDone = d.cancelDone := rfl
@[simp] theorem setDma_pfLost (d : Device) (c : Nat) (x : DmaChan) : (setDma d c x).pfLost = d.pfLost := rfl
@[simp] theorem setDma_pfCancelled (d : Device) (c : Nat) (x : DmaChan) : (setDma d c x).pfCancelled = d.pfCancelled := rfl
@[simp] theorem setDma_yard (d : Device) (c : Nat) (x : DmaChan) : (setDma d c x).yard = d.yard := rfl
@[simp] theorem setDma_rings (d : Device) (c : Nat) (x : DmaChan) : (setDma d c x).rings = d.rings := rfl
@[simp] theorem setDma_ringResets (d : Device) (c : Nat) (x : DmaChan) : (setDma d c x).ringResets = d.ringResets := rfl
@[simp] theorem setDma_ringLast (d : Device) (c : Nat) (x : DmaChan) : (setDma d c x).ringLast = d.ringLast := rfl
@[simp] theorem setDma_ringLost (d : Device) (c : Nat) (x : DmaChan) : (setDma d c x).ringLost = d.ringLost := rfl
@[simp] theorem setDma_mem (d : Device) (c : Nat) (x : DmaChan) : (setDma d c x).mem = d.mem := rfl
@[simp] theorem setDma_intc (d : Device) (c : Nat) (x : DmaChan) : (setDma d c x).intc = d.intc := rfl
@[simp] theorem setDma_mbox (d : Device) (c : Nat) (x : DmaChan) : (setDma d c x).mbox = d.mbox := rfl
@[simp] theorem setDma_plumb (d : Device) (c : Nat) (x : DmaChan) : (setDma d c x).plumb = d.plumb := rfl
@[simp] theorem setDma_host (d : Device) (c : Nat) (x : DmaChan) : (setDma d c x).host = d.host := rfl
@[simp] theorem setDma_qpSecure (d : Device) (c : Nat) (x : DmaChan) : (setDma d c x).qpSecure = d.qpSecure := rfl
@[simp] theorem setDma_qpRefused (d : Device) (c : Nat) (x : DmaChan) : (setDma d c x).qpRefused = d.qpRefused := rfl
@[simp] theorem setDma_qpTrig (d : Device) (c : Nat) (x : DmaChan) : (setDma d c x).qpTrig = d.qpTrig := rfl
@[simp] theorem setDma_sw (d : Device) (c : Nat) (x : DmaChan) : (setDma d c x).sw = d.sw := rfl
@[simp] theorem setDma_eth (d : Device) (c : Nat) (x : DmaChan) : (setDma d c x).eth = d.eth := rfl
@[simp] theorem setDma_bond (d : Device) (c : Nat) (x : DmaChan) : (setDma d c x).bond = d.bond := rfl
@[simp] theorem setDma_ks (d : Device) (c : Nat) (x : DmaChan) : (setDma d c x).ks = d.ks := rfl
@[simp] theorem setDma_crp (d : Device) (c : Nat) (x : DmaChan) : (setDma d c x).crp = d.crp := rfl
@[simp] theorem setDma_perf (d : Device) (c : Nat) (x : DmaChan) : (setDma d c x).perf = d.perf := rfl
@[simp] theorem setDma_gpioIn (d : Device) (c : Nat) (x : DmaChan) : (setDma d c x).gpioIn = d.gpioIn := rfl
@[simp] theorem setDma_temp (d : Device) (c : Nat) (x : DmaChan) : (setDma d c x).temp = d.temp := rfl
@[simp] theorem setDma_tempValid (d : Device) (c : Nat) (x : DmaChan) : (setDma d c x).tempValid = d.tempValid := rfl
@[simp] theorem setDma_tap (d : Device) (c : Nat) (x : DmaChan) : (setDma d c x).tap = d.tap := rfl
@[simp] theorem setDma_ingest (d : Device) (c : Nat) (x : DmaChan) : (setDma d c x).ingest = d.ingest := rfl
@[simp] theorem setDma_mag (d : Device) (c : Nat) (x : DmaChan) : (setDma d c x).mag = d.mag := rfl
@[simp] theorem setDma_mortar (d : Device) (c : Nat) (x : DmaChan) : (setDma d c x).mortar = d.mortar := rfl
@[simp] theorem setDma_sdi (d : Device) (c : Nat) (x : DmaChan) : (setDma d c x).sdi = d.sdi := rfl
@[simp] theorem setDma_pins (d : Device) (c : Nat) (x : DmaChan) : (setDma d c x).pins = d.pins := rfl
@[simp] theorem setDma_codec (d : Device) (c : Nat) (x : DmaChan) : (setDma d c x).codec = d.codec := rfl
@[simp] theorem setDma_engines (d : Device) (c : Nat) (x : DmaChan) : (setDma d c x).engines = d.engines := rfl
@[simp] theorem setDma_out (d : Device) (c : Nat) (x : DmaChan) : (setDma d c x).out = d.out := rfl
@[simp] theorem setDma_verdicts (d : Device) (c : Nat) (x : DmaChan) : (setDma d c x).verdicts = d.verdicts := rfl
@[simp] theorem setDma_posted (d : Device) (c : Nat) (x : DmaChan) : (setDma d c x).posted = d.posted := rfl

@[simp] theorem setEngine_draw (d : Device) (u : Nat) (e : Engine) : (setEngine d u e).draw = d.draw := rfl
@[simp] theorem setEngine_regs (d : Device) (u : Nat) (e : Engine) : (setEngine d u e).regs = d.regs := rfl
@[simp] theorem setEngine_time (d : Device) (u : Nat) (e : Engine) : (setEngine d u e).time = d.time := rfl
@[simp] theorem setEngine_frac (d : Device) (u : Nat) (e : Engine) : (setEngine d u e).frac = d.frac := rfl
@[simp] theorem setEngine_up (d : Device) (u : Nat) (e : Engine) : (setEngine d u e).up = d.up := rfl
@[simp] theorem setEngine_timeLatch (d : Device) (u : Nat) (e : Engine) : (setEngine d u e).timeLatch = d.timeLatch := rfl
@[simp] theorem setEngine_qpLatch (d : Device) (u : Nat) (e : Engine) : (setEngine d u e).qpLatch = d.qpLatch := rfl
@[simp] theorem setEngine_ctxs (d : Device) (u : Nat) (e : Engine) : (setEngine d u e).ctxs = d.ctxs := rfl
@[simp] theorem setEngine_threadRecs (d : Device) (u : Nat) (e : Engine) : (setEngine d u e).threadRecs = d.threadRecs := rfl
@[simp] theorem setEngine_rotation (d : Device) (u : Nat) (e : Engine) : (setEngine d u e).rotation = d.rotation := rfl
@[simp] theorem setEngine_lastIssue (d : Device) (u : Nat) (e : Engine) : (setEngine d u e).lastIssue = d.lastIssue := rfl
@[simp] theorem setEngine_issues (d : Device) (u : Nat) (e : Engine) : (setEngine d u e).issues = d.issues := rfl
@[simp] theorem setEngine_tickets (d : Device) (u : Nat) (e : Engine) : (setEngine d u e).tickets = d.tickets := rfl
@[simp] theorem setEngine_wos (d : Device) (u : Nat) (e : Engine) : (setEngine d u e).wos = d.wos := rfl
@[simp] theorem setEngine_woSeq (d : Device) (u : Nat) (e : Engine) : (setEngine d u e).woSeq = d.woSeq := rfl
@[simp] theorem setEngine_recs (d : Device) (u : Nat) (e : Engine) : (setEngine d u e).recs = d.recs := rfl
@[simp] theorem setEngine_cancelMiss (d : Device) (u : Nat) (e : Engine) : (setEngine d u e).cancelMiss = d.cancelMiss := rfl
@[simp] theorem setEngine_cancelDone (d : Device) (u : Nat) (e : Engine) : (setEngine d u e).cancelDone = d.cancelDone := rfl
@[simp] theorem setEngine_pfLost (d : Device) (u : Nat) (e : Engine) : (setEngine d u e).pfLost = d.pfLost := rfl
@[simp] theorem setEngine_pfCancelled (d : Device) (u : Nat) (e : Engine) : (setEngine d u e).pfCancelled = d.pfCancelled := rfl
@[simp] theorem setEngine_yard (d : Device) (u : Nat) (e : Engine) : (setEngine d u e).yard = d.yard := rfl
@[simp] theorem setEngine_rings (d : Device) (u : Nat) (e : Engine) : (setEngine d u e).rings = d.rings := rfl
@[simp] theorem setEngine_ringResets (d : Device) (u : Nat) (e : Engine) : (setEngine d u e).ringResets = d.ringResets := rfl
@[simp] theorem setEngine_ringLast (d : Device) (u : Nat) (e : Engine) : (setEngine d u e).ringLast = d.ringLast := rfl
@[simp] theorem setEngine_ringLost (d : Device) (u : Nat) (e : Engine) : (setEngine d u e).ringLost = d.ringLost := rfl
@[simp] theorem setEngine_mem (d : Device) (u : Nat) (e : Engine) : (setEngine d u e).mem = d.mem := rfl
@[simp] theorem setEngine_dma (d : Device) (u : Nat) (e : Engine) : (setEngine d u e).dma = d.dma := rfl
@[simp] theorem setEngine_intc (d : Device) (u : Nat) (e : Engine) : (setEngine d u e).intc = d.intc := rfl
@[simp] theorem setEngine_mbox (d : Device) (u : Nat) (e : Engine) : (setEngine d u e).mbox = d.mbox := rfl
@[simp] theorem setEngine_plumb (d : Device) (u : Nat) (e : Engine) : (setEngine d u e).plumb = d.plumb := rfl
@[simp] theorem setEngine_host (d : Device) (u : Nat) (e : Engine) : (setEngine d u e).host = d.host := rfl
@[simp] theorem setEngine_qpSecure (d : Device) (u : Nat) (e : Engine) : (setEngine d u e).qpSecure = d.qpSecure := rfl
@[simp] theorem setEngine_qpRefused (d : Device) (u : Nat) (e : Engine) : (setEngine d u e).qpRefused = d.qpRefused := rfl
@[simp] theorem setEngine_qpTrig (d : Device) (u : Nat) (e : Engine) : (setEngine d u e).qpTrig = d.qpTrig := rfl
@[simp] theorem setEngine_sw (d : Device) (u : Nat) (e : Engine) : (setEngine d u e).sw = d.sw := rfl
@[simp] theorem setEngine_eth (d : Device) (u : Nat) (e : Engine) : (setEngine d u e).eth = d.eth := rfl
@[simp] theorem setEngine_bond (d : Device) (u : Nat) (e : Engine) : (setEngine d u e).bond = d.bond := rfl
@[simp] theorem setEngine_ks (d : Device) (u : Nat) (e : Engine) : (setEngine d u e).ks = d.ks := rfl
@[simp] theorem setEngine_crp (d : Device) (u : Nat) (e : Engine) : (setEngine d u e).crp = d.crp := rfl
@[simp] theorem setEngine_perf (d : Device) (u : Nat) (e : Engine) : (setEngine d u e).perf = d.perf := rfl
@[simp] theorem setEngine_gpioIn (d : Device) (u : Nat) (e : Engine) : (setEngine d u e).gpioIn = d.gpioIn := rfl
@[simp] theorem setEngine_temp (d : Device) (u : Nat) (e : Engine) : (setEngine d u e).temp = d.temp := rfl
@[simp] theorem setEngine_tempValid (d : Device) (u : Nat) (e : Engine) : (setEngine d u e).tempValid = d.tempValid := rfl
@[simp] theorem setEngine_tap (d : Device) (u : Nat) (e : Engine) : (setEngine d u e).tap = d.tap := rfl
@[simp] theorem setEngine_ingest (d : Device) (u : Nat) (e : Engine) : (setEngine d u e).ingest = d.ingest := rfl
@[simp] theorem setEngine_mag (d : Device) (u : Nat) (e : Engine) : (setEngine d u e).mag = d.mag := rfl
@[simp] theorem setEngine_mortar (d : Device) (u : Nat) (e : Engine) : (setEngine d u e).mortar = d.mortar := rfl
@[simp] theorem setEngine_sdi (d : Device) (u : Nat) (e : Engine) : (setEngine d u e).sdi = d.sdi := rfl
@[simp] theorem setEngine_pins (d : Device) (u : Nat) (e : Engine) : (setEngine d u e).pins = d.pins := rfl
@[simp] theorem setEngine_codec (d : Device) (u : Nat) (e : Engine) : (setEngine d u e).codec = d.codec := rfl
@[simp] theorem setEngine_out (d : Device) (u : Nat) (e : Engine) : (setEngine d u e).out = d.out := rfl
@[simp] theorem setEngine_verdicts (d : Device) (u : Nat) (e : Engine) : (setEngine d u e).verdicts = d.verdicts := rfl
@[simp] theorem setEngine_posted (d : Device) (u : Nat) (e : Engine) : (setEngine d u e).posted = d.posted := rfl

@[simp] theorem modWo_draw (d : Device) (t : Nat) (f : WorkOrder → WorkOrder) : (modWo d t f).draw = d.draw := rfl
@[simp] theorem modWo_regs (d : Device) (t : Nat) (f : WorkOrder → WorkOrder) : (modWo d t f).regs = d.regs := rfl
@[simp] theorem modWo_time (d : Device) (t : Nat) (f : WorkOrder → WorkOrder) : (modWo d t f).time = d.time := rfl
@[simp] theorem modWo_frac (d : Device) (t : Nat) (f : WorkOrder → WorkOrder) : (modWo d t f).frac = d.frac := rfl
@[simp] theorem modWo_up (d : Device) (t : Nat) (f : WorkOrder → WorkOrder) : (modWo d t f).up = d.up := rfl
@[simp] theorem modWo_timeLatch (d : Device) (t : Nat) (f : WorkOrder → WorkOrder) : (modWo d t f).timeLatch = d.timeLatch := rfl
@[simp] theorem modWo_qpLatch (d : Device) (t : Nat) (f : WorkOrder → WorkOrder) : (modWo d t f).qpLatch = d.qpLatch := rfl
@[simp] theorem modWo_ctxs (d : Device) (t : Nat) (f : WorkOrder → WorkOrder) : (modWo d t f).ctxs = d.ctxs := rfl
@[simp] theorem modWo_threadRecs (d : Device) (t : Nat) (f : WorkOrder → WorkOrder) : (modWo d t f).threadRecs = d.threadRecs := rfl
@[simp] theorem modWo_rotation (d : Device) (t : Nat) (f : WorkOrder → WorkOrder) : (modWo d t f).rotation = d.rotation := rfl
@[simp] theorem modWo_lastIssue (d : Device) (t : Nat) (f : WorkOrder → WorkOrder) : (modWo d t f).lastIssue = d.lastIssue := rfl
@[simp] theorem modWo_issues (d : Device) (t : Nat) (f : WorkOrder → WorkOrder) : (modWo d t f).issues = d.issues := rfl
@[simp] theorem modWo_tickets (d : Device) (t : Nat) (f : WorkOrder → WorkOrder) : (modWo d t f).tickets = d.tickets := rfl
@[simp] theorem modWo_woSeq (d : Device) (t : Nat) (f : WorkOrder → WorkOrder) : (modWo d t f).woSeq = d.woSeq := rfl
@[simp] theorem modWo_recs (d : Device) (t : Nat) (f : WorkOrder → WorkOrder) : (modWo d t f).recs = d.recs := rfl
@[simp] theorem modWo_cancelMiss (d : Device) (t : Nat) (f : WorkOrder → WorkOrder) : (modWo d t f).cancelMiss = d.cancelMiss := rfl
@[simp] theorem modWo_cancelDone (d : Device) (t : Nat) (f : WorkOrder → WorkOrder) : (modWo d t f).cancelDone = d.cancelDone := rfl
@[simp] theorem modWo_pfLost (d : Device) (t : Nat) (f : WorkOrder → WorkOrder) : (modWo d t f).pfLost = d.pfLost := rfl
@[simp] theorem modWo_pfCancelled (d : Device) (t : Nat) (f : WorkOrder → WorkOrder) : (modWo d t f).pfCancelled = d.pfCancelled := rfl
@[simp] theorem modWo_yard (d : Device) (t : Nat) (f : WorkOrder → WorkOrder) : (modWo d t f).yard = d.yard := rfl
@[simp] theorem modWo_rings (d : Device) (t : Nat) (f : WorkOrder → WorkOrder) : (modWo d t f).rings = d.rings := rfl
@[simp] theorem modWo_ringResets (d : Device) (t : Nat) (f : WorkOrder → WorkOrder) : (modWo d t f).ringResets = d.ringResets := rfl
@[simp] theorem modWo_ringLast (d : Device) (t : Nat) (f : WorkOrder → WorkOrder) : (modWo d t f).ringLast = d.ringLast := rfl
@[simp] theorem modWo_ringLost (d : Device) (t : Nat) (f : WorkOrder → WorkOrder) : (modWo d t f).ringLost = d.ringLost := rfl
@[simp] theorem modWo_mem (d : Device) (t : Nat) (f : WorkOrder → WorkOrder) : (modWo d t f).mem = d.mem := rfl
@[simp] theorem modWo_dma (d : Device) (t : Nat) (f : WorkOrder → WorkOrder) : (modWo d t f).dma = d.dma := rfl
@[simp] theorem modWo_intc (d : Device) (t : Nat) (f : WorkOrder → WorkOrder) : (modWo d t f).intc = d.intc := rfl
@[simp] theorem modWo_mbox (d : Device) (t : Nat) (f : WorkOrder → WorkOrder) : (modWo d t f).mbox = d.mbox := rfl
@[simp] theorem modWo_plumb (d : Device) (t : Nat) (f : WorkOrder → WorkOrder) : (modWo d t f).plumb = d.plumb := rfl
@[simp] theorem modWo_host (d : Device) (t : Nat) (f : WorkOrder → WorkOrder) : (modWo d t f).host = d.host := rfl
@[simp] theorem modWo_qpSecure (d : Device) (t : Nat) (f : WorkOrder → WorkOrder) : (modWo d t f).qpSecure = d.qpSecure := rfl
@[simp] theorem modWo_qpRefused (d : Device) (t : Nat) (f : WorkOrder → WorkOrder) : (modWo d t f).qpRefused = d.qpRefused := rfl
@[simp] theorem modWo_qpTrig (d : Device) (t : Nat) (f : WorkOrder → WorkOrder) : (modWo d t f).qpTrig = d.qpTrig := rfl
@[simp] theorem modWo_sw (d : Device) (t : Nat) (f : WorkOrder → WorkOrder) : (modWo d t f).sw = d.sw := rfl
@[simp] theorem modWo_eth (d : Device) (t : Nat) (f : WorkOrder → WorkOrder) : (modWo d t f).eth = d.eth := rfl
@[simp] theorem modWo_bond (d : Device) (t : Nat) (f : WorkOrder → WorkOrder) : (modWo d t f).bond = d.bond := rfl
@[simp] theorem modWo_ks (d : Device) (t : Nat) (f : WorkOrder → WorkOrder) : (modWo d t f).ks = d.ks := rfl
@[simp] theorem modWo_crp (d : Device) (t : Nat) (f : WorkOrder → WorkOrder) : (modWo d t f).crp = d.crp := rfl
@[simp] theorem modWo_perf (d : Device) (t : Nat) (f : WorkOrder → WorkOrder) : (modWo d t f).perf = d.perf := rfl
@[simp] theorem modWo_gpioIn (d : Device) (t : Nat) (f : WorkOrder → WorkOrder) : (modWo d t f).gpioIn = d.gpioIn := rfl
@[simp] theorem modWo_temp (d : Device) (t : Nat) (f : WorkOrder → WorkOrder) : (modWo d t f).temp = d.temp := rfl
@[simp] theorem modWo_tempValid (d : Device) (t : Nat) (f : WorkOrder → WorkOrder) : (modWo d t f).tempValid = d.tempValid := rfl
@[simp] theorem modWo_tap (d : Device) (t : Nat) (f : WorkOrder → WorkOrder) : (modWo d t f).tap = d.tap := rfl
@[simp] theorem modWo_ingest (d : Device) (t : Nat) (f : WorkOrder → WorkOrder) : (modWo d t f).ingest = d.ingest := rfl
@[simp] theorem modWo_mag (d : Device) (t : Nat) (f : WorkOrder → WorkOrder) : (modWo d t f).mag = d.mag := rfl
@[simp] theorem modWo_mortar (d : Device) (t : Nat) (f : WorkOrder → WorkOrder) : (modWo d t f).mortar = d.mortar := rfl
@[simp] theorem modWo_sdi (d : Device) (t : Nat) (f : WorkOrder → WorkOrder) : (modWo d t f).sdi = d.sdi := rfl
@[simp] theorem modWo_pins (d : Device) (t : Nat) (f : WorkOrder → WorkOrder) : (modWo d t f).pins = d.pins := rfl
@[simp] theorem modWo_codec (d : Device) (t : Nat) (f : WorkOrder → WorkOrder) : (modWo d t f).codec = d.codec := rfl
@[simp] theorem modWo_engines (d : Device) (t : Nat) (f : WorkOrder → WorkOrder) : (modWo d t f).engines = d.engines := rfl
@[simp] theorem modWo_out (d : Device) (t : Nat) (f : WorkOrder → WorkOrder) : (modWo d t f).out = d.out := rfl
@[simp] theorem modWo_verdicts (d : Device) (t : Nat) (f : WorkOrder → WorkOrder) : (modWo d t f).verdicts = d.verdicts := rfl
@[simp] theorem modWo_posted (d : Device) (t : Nat) (f : WorkOrder → WorkOrder) : (modWo d t f).posted = d.posted := rfl

@[simp] theorem setSw_draw (d : Device) (p : Nat) (x : SwPort) : (setSw d p x).draw = d.draw := rfl
@[simp] theorem setSw_regs (d : Device) (p : Nat) (x : SwPort) : (setSw d p x).regs = d.regs := rfl
@[simp] theorem setSw_time (d : Device) (p : Nat) (x : SwPort) : (setSw d p x).time = d.time := rfl
@[simp] theorem setSw_frac (d : Device) (p : Nat) (x : SwPort) : (setSw d p x).frac = d.frac := rfl
@[simp] theorem setSw_up (d : Device) (p : Nat) (x : SwPort) : (setSw d p x).up = d.up := rfl
@[simp] theorem setSw_timeLatch (d : Device) (p : Nat) (x : SwPort) : (setSw d p x).timeLatch = d.timeLatch := rfl
@[simp] theorem setSw_qpLatch (d : Device) (p : Nat) (x : SwPort) : (setSw d p x).qpLatch = d.qpLatch := rfl
@[simp] theorem setSw_ctxs (d : Device) (p : Nat) (x : SwPort) : (setSw d p x).ctxs = d.ctxs := rfl
@[simp] theorem setSw_threadRecs (d : Device) (p : Nat) (x : SwPort) : (setSw d p x).threadRecs = d.threadRecs := rfl
@[simp] theorem setSw_rotation (d : Device) (p : Nat) (x : SwPort) : (setSw d p x).rotation = d.rotation := rfl
@[simp] theorem setSw_lastIssue (d : Device) (p : Nat) (x : SwPort) : (setSw d p x).lastIssue = d.lastIssue := rfl
@[simp] theorem setSw_issues (d : Device) (p : Nat) (x : SwPort) : (setSw d p x).issues = d.issues := rfl
@[simp] theorem setSw_tickets (d : Device) (p : Nat) (x : SwPort) : (setSw d p x).tickets = d.tickets := rfl
@[simp] theorem setSw_wos (d : Device) (p : Nat) (x : SwPort) : (setSw d p x).wos = d.wos := rfl
@[simp] theorem setSw_woSeq (d : Device) (p : Nat) (x : SwPort) : (setSw d p x).woSeq = d.woSeq := rfl
@[simp] theorem setSw_recs (d : Device) (p : Nat) (x : SwPort) : (setSw d p x).recs = d.recs := rfl
@[simp] theorem setSw_cancelMiss (d : Device) (p : Nat) (x : SwPort) : (setSw d p x).cancelMiss = d.cancelMiss := rfl
@[simp] theorem setSw_cancelDone (d : Device) (p : Nat) (x : SwPort) : (setSw d p x).cancelDone = d.cancelDone := rfl
@[simp] theorem setSw_pfLost (d : Device) (p : Nat) (x : SwPort) : (setSw d p x).pfLost = d.pfLost := rfl
@[simp] theorem setSw_pfCancelled (d : Device) (p : Nat) (x : SwPort) : (setSw d p x).pfCancelled = d.pfCancelled := rfl
@[simp] theorem setSw_yard (d : Device) (p : Nat) (x : SwPort) : (setSw d p x).yard = d.yard := rfl
@[simp] theorem setSw_rings (d : Device) (p : Nat) (x : SwPort) : (setSw d p x).rings = d.rings := rfl
@[simp] theorem setSw_ringResets (d : Device) (p : Nat) (x : SwPort) : (setSw d p x).ringResets = d.ringResets := rfl
@[simp] theorem setSw_ringLast (d : Device) (p : Nat) (x : SwPort) : (setSw d p x).ringLast = d.ringLast := rfl
@[simp] theorem setSw_ringLost (d : Device) (p : Nat) (x : SwPort) : (setSw d p x).ringLost = d.ringLost := rfl
@[simp] theorem setSw_mem (d : Device) (p : Nat) (x : SwPort) : (setSw d p x).mem = d.mem := rfl
@[simp] theorem setSw_dma (d : Device) (p : Nat) (x : SwPort) : (setSw d p x).dma = d.dma := rfl
@[simp] theorem setSw_intc (d : Device) (p : Nat) (x : SwPort) : (setSw d p x).intc = d.intc := rfl
@[simp] theorem setSw_mbox (d : Device) (p : Nat) (x : SwPort) : (setSw d p x).mbox = d.mbox := rfl
@[simp] theorem setSw_plumb (d : Device) (p : Nat) (x : SwPort) : (setSw d p x).plumb = d.plumb := rfl
@[simp] theorem setSw_host (d : Device) (p : Nat) (x : SwPort) : (setSw d p x).host = d.host := rfl
@[simp] theorem setSw_qpSecure (d : Device) (p : Nat) (x : SwPort) : (setSw d p x).qpSecure = d.qpSecure := rfl
@[simp] theorem setSw_qpRefused (d : Device) (p : Nat) (x : SwPort) : (setSw d p x).qpRefused = d.qpRefused := rfl
@[simp] theorem setSw_qpTrig (d : Device) (p : Nat) (x : SwPort) : (setSw d p x).qpTrig = d.qpTrig := rfl
@[simp] theorem setSw_eth (d : Device) (p : Nat) (x : SwPort) : (setSw d p x).eth = d.eth := rfl
@[simp] theorem setSw_bond (d : Device) (p : Nat) (x : SwPort) : (setSw d p x).bond = d.bond := rfl
@[simp] theorem setSw_ks (d : Device) (p : Nat) (x : SwPort) : (setSw d p x).ks = d.ks := rfl
@[simp] theorem setSw_crp (d : Device) (p : Nat) (x : SwPort) : (setSw d p x).crp = d.crp := rfl
@[simp] theorem setSw_perf (d : Device) (p : Nat) (x : SwPort) : (setSw d p x).perf = d.perf := rfl
@[simp] theorem setSw_gpioIn (d : Device) (p : Nat) (x : SwPort) : (setSw d p x).gpioIn = d.gpioIn := rfl
@[simp] theorem setSw_temp (d : Device) (p : Nat) (x : SwPort) : (setSw d p x).temp = d.temp := rfl
@[simp] theorem setSw_tempValid (d : Device) (p : Nat) (x : SwPort) : (setSw d p x).tempValid = d.tempValid := rfl
@[simp] theorem setSw_tap (d : Device) (p : Nat) (x : SwPort) : (setSw d p x).tap = d.tap := rfl
@[simp] theorem setSw_ingest (d : Device) (p : Nat) (x : SwPort) : (setSw d p x).ingest = d.ingest := rfl
@[simp] theorem setSw_mag (d : Device) (p : Nat) (x : SwPort) : (setSw d p x).mag = d.mag := rfl
@[simp] theorem setSw_mortar (d : Device) (p : Nat) (x : SwPort) : (setSw d p x).mortar = d.mortar := rfl
@[simp] theorem setSw_sdi (d : Device) (p : Nat) (x : SwPort) : (setSw d p x).sdi = d.sdi := rfl
@[simp] theorem setSw_pins (d : Device) (p : Nat) (x : SwPort) : (setSw d p x).pins = d.pins := rfl
@[simp] theorem setSw_codec (d : Device) (p : Nat) (x : SwPort) : (setSw d p x).codec = d.codec := rfl
@[simp] theorem setSw_engines (d : Device) (p : Nat) (x : SwPort) : (setSw d p x).engines = d.engines := rfl
@[simp] theorem setSw_out (d : Device) (p : Nat) (x : SwPort) : (setSw d p x).out = d.out := rfl
@[simp] theorem setSw_verdicts (d : Device) (p : Nat) (x : SwPort) : (setSw d p x).verdicts = d.verdicts := rfl
@[simp] theorem setSw_posted (d : Device) (p : Nat) (x : SwPort) : (setSw d p x).posted = d.posted := rfl

@[simp] theorem setOut_draw (d : Device) (n : Nat) (o : MortarOut) : (setOut d n o).draw = d.draw := rfl
@[simp] theorem setOut_regs (d : Device) (n : Nat) (o : MortarOut) : (setOut d n o).regs = d.regs := rfl
@[simp] theorem setOut_time (d : Device) (n : Nat) (o : MortarOut) : (setOut d n o).time = d.time := rfl
@[simp] theorem setOut_frac (d : Device) (n : Nat) (o : MortarOut) : (setOut d n o).frac = d.frac := rfl
@[simp] theorem setOut_up (d : Device) (n : Nat) (o : MortarOut) : (setOut d n o).up = d.up := rfl
@[simp] theorem setOut_timeLatch (d : Device) (n : Nat) (o : MortarOut) : (setOut d n o).timeLatch = d.timeLatch := rfl
@[simp] theorem setOut_qpLatch (d : Device) (n : Nat) (o : MortarOut) : (setOut d n o).qpLatch = d.qpLatch := rfl
@[simp] theorem setOut_ctxs (d : Device) (n : Nat) (o : MortarOut) : (setOut d n o).ctxs = d.ctxs := rfl
@[simp] theorem setOut_threadRecs (d : Device) (n : Nat) (o : MortarOut) : (setOut d n o).threadRecs = d.threadRecs := rfl
@[simp] theorem setOut_rotation (d : Device) (n : Nat) (o : MortarOut) : (setOut d n o).rotation = d.rotation := rfl
@[simp] theorem setOut_lastIssue (d : Device) (n : Nat) (o : MortarOut) : (setOut d n o).lastIssue = d.lastIssue := rfl
@[simp] theorem setOut_issues (d : Device) (n : Nat) (o : MortarOut) : (setOut d n o).issues = d.issues := rfl
@[simp] theorem setOut_tickets (d : Device) (n : Nat) (o : MortarOut) : (setOut d n o).tickets = d.tickets := rfl
@[simp] theorem setOut_wos (d : Device) (n : Nat) (o : MortarOut) : (setOut d n o).wos = d.wos := rfl
@[simp] theorem setOut_woSeq (d : Device) (n : Nat) (o : MortarOut) : (setOut d n o).woSeq = d.woSeq := rfl
@[simp] theorem setOut_recs (d : Device) (n : Nat) (o : MortarOut) : (setOut d n o).recs = d.recs := rfl
@[simp] theorem setOut_cancelMiss (d : Device) (n : Nat) (o : MortarOut) : (setOut d n o).cancelMiss = d.cancelMiss := rfl
@[simp] theorem setOut_cancelDone (d : Device) (n : Nat) (o : MortarOut) : (setOut d n o).cancelDone = d.cancelDone := rfl
@[simp] theorem setOut_pfLost (d : Device) (n : Nat) (o : MortarOut) : (setOut d n o).pfLost = d.pfLost := rfl
@[simp] theorem setOut_pfCancelled (d : Device) (n : Nat) (o : MortarOut) : (setOut d n o).pfCancelled = d.pfCancelled := rfl
@[simp] theorem setOut_yard (d : Device) (n : Nat) (o : MortarOut) : (setOut d n o).yard = d.yard := rfl
@[simp] theorem setOut_rings (d : Device) (n : Nat) (o : MortarOut) : (setOut d n o).rings = d.rings := rfl
@[simp] theorem setOut_ringResets (d : Device) (n : Nat) (o : MortarOut) : (setOut d n o).ringResets = d.ringResets := rfl
@[simp] theorem setOut_ringLast (d : Device) (n : Nat) (o : MortarOut) : (setOut d n o).ringLast = d.ringLast := rfl
@[simp] theorem setOut_ringLost (d : Device) (n : Nat) (o : MortarOut) : (setOut d n o).ringLost = d.ringLost := rfl
@[simp] theorem setOut_mem (d : Device) (n : Nat) (o : MortarOut) : (setOut d n o).mem = d.mem := rfl
@[simp] theorem setOut_dma (d : Device) (n : Nat) (o : MortarOut) : (setOut d n o).dma = d.dma := rfl
@[simp] theorem setOut_intc (d : Device) (n : Nat) (o : MortarOut) : (setOut d n o).intc = d.intc := rfl
@[simp] theorem setOut_mbox (d : Device) (n : Nat) (o : MortarOut) : (setOut d n o).mbox = d.mbox := rfl
@[simp] theorem setOut_plumb (d : Device) (n : Nat) (o : MortarOut) : (setOut d n o).plumb = d.plumb := rfl
@[simp] theorem setOut_host (d : Device) (n : Nat) (o : MortarOut) : (setOut d n o).host = d.host := rfl
@[simp] theorem setOut_qpSecure (d : Device) (n : Nat) (o : MortarOut) : (setOut d n o).qpSecure = d.qpSecure := rfl
@[simp] theorem setOut_qpRefused (d : Device) (n : Nat) (o : MortarOut) : (setOut d n o).qpRefused = d.qpRefused := rfl
@[simp] theorem setOut_qpTrig (d : Device) (n : Nat) (o : MortarOut) : (setOut d n o).qpTrig = d.qpTrig := rfl
@[simp] theorem setOut_sw (d : Device) (n : Nat) (o : MortarOut) : (setOut d n o).sw = d.sw := rfl
@[simp] theorem setOut_eth (d : Device) (n : Nat) (o : MortarOut) : (setOut d n o).eth = d.eth := rfl
@[simp] theorem setOut_bond (d : Device) (n : Nat) (o : MortarOut) : (setOut d n o).bond = d.bond := rfl
@[simp] theorem setOut_ks (d : Device) (n : Nat) (o : MortarOut) : (setOut d n o).ks = d.ks := rfl
@[simp] theorem setOut_crp (d : Device) (n : Nat) (o : MortarOut) : (setOut d n o).crp = d.crp := rfl
@[simp] theorem setOut_perf (d : Device) (n : Nat) (o : MortarOut) : (setOut d n o).perf = d.perf := rfl
@[simp] theorem setOut_gpioIn (d : Device) (n : Nat) (o : MortarOut) : (setOut d n o).gpioIn = d.gpioIn := rfl
@[simp] theorem setOut_temp (d : Device) (n : Nat) (o : MortarOut) : (setOut d n o).temp = d.temp := rfl
@[simp] theorem setOut_tempValid (d : Device) (n : Nat) (o : MortarOut) : (setOut d n o).tempValid = d.tempValid := rfl
@[simp] theorem setOut_tap (d : Device) (n : Nat) (o : MortarOut) : (setOut d n o).tap = d.tap := rfl
@[simp] theorem setOut_ingest (d : Device) (n : Nat) (o : MortarOut) : (setOut d n o).ingest = d.ingest := rfl
@[simp] theorem setOut_mag (d : Device) (n : Nat) (o : MortarOut) : (setOut d n o).mag = d.mag := rfl
@[simp] theorem setOut_sdi (d : Device) (n : Nat) (o : MortarOut) : (setOut d n o).sdi = d.sdi := rfl
@[simp] theorem setOut_pins (d : Device) (n : Nat) (o : MortarOut) : (setOut d n o).pins = d.pins := rfl
@[simp] theorem setOut_codec (d : Device) (n : Nat) (o : MortarOut) : (setOut d n o).codec = d.codec := rfl
@[simp] theorem setOut_engines (d : Device) (n : Nat) (o : MortarOut) : (setOut d n o).engines = d.engines := rfl
@[simp] theorem setOut_out (d : Device) (n : Nat) (o : MortarOut) : (setOut d n o).out = d.out := rfl
@[simp] theorem setOut_verdicts (d : Device) (n : Nat) (o : MortarOut) : (setOut d n o).verdicts = d.verdicts := rfl
@[simp] theorem setOut_posted (d : Device) (n : Nat) (o : MortarOut) : (setOut d n o).posted = d.posted := rfl

@[simp] theorem setClip_draw (d : Device) (k : Nat) (c : Clip) : (setClip d k c).draw = d.draw := rfl
@[simp] theorem setClip_regs (d : Device) (k : Nat) (c : Clip) : (setClip d k c).regs = d.regs := rfl
@[simp] theorem setClip_time (d : Device) (k : Nat) (c : Clip) : (setClip d k c).time = d.time := rfl
@[simp] theorem setClip_frac (d : Device) (k : Nat) (c : Clip) : (setClip d k c).frac = d.frac := rfl
@[simp] theorem setClip_up (d : Device) (k : Nat) (c : Clip) : (setClip d k c).up = d.up := rfl
@[simp] theorem setClip_timeLatch (d : Device) (k : Nat) (c : Clip) : (setClip d k c).timeLatch = d.timeLatch := rfl
@[simp] theorem setClip_qpLatch (d : Device) (k : Nat) (c : Clip) : (setClip d k c).qpLatch = d.qpLatch := rfl
@[simp] theorem setClip_ctxs (d : Device) (k : Nat) (c : Clip) : (setClip d k c).ctxs = d.ctxs := rfl
@[simp] theorem setClip_threadRecs (d : Device) (k : Nat) (c : Clip) : (setClip d k c).threadRecs = d.threadRecs := rfl
@[simp] theorem setClip_rotation (d : Device) (k : Nat) (c : Clip) : (setClip d k c).rotation = d.rotation := rfl
@[simp] theorem setClip_lastIssue (d : Device) (k : Nat) (c : Clip) : (setClip d k c).lastIssue = d.lastIssue := rfl
@[simp] theorem setClip_issues (d : Device) (k : Nat) (c : Clip) : (setClip d k c).issues = d.issues := rfl
@[simp] theorem setClip_tickets (d : Device) (k : Nat) (c : Clip) : (setClip d k c).tickets = d.tickets := rfl
@[simp] theorem setClip_wos (d : Device) (k : Nat) (c : Clip) : (setClip d k c).wos = d.wos := rfl
@[simp] theorem setClip_woSeq (d : Device) (k : Nat) (c : Clip) : (setClip d k c).woSeq = d.woSeq := rfl
@[simp] theorem setClip_recs (d : Device) (k : Nat) (c : Clip) : (setClip d k c).recs = d.recs := rfl
@[simp] theorem setClip_cancelMiss (d : Device) (k : Nat) (c : Clip) : (setClip d k c).cancelMiss = d.cancelMiss := rfl
@[simp] theorem setClip_cancelDone (d : Device) (k : Nat) (c : Clip) : (setClip d k c).cancelDone = d.cancelDone := rfl
@[simp] theorem setClip_pfLost (d : Device) (k : Nat) (c : Clip) : (setClip d k c).pfLost = d.pfLost := rfl
@[simp] theorem setClip_pfCancelled (d : Device) (k : Nat) (c : Clip) : (setClip d k c).pfCancelled = d.pfCancelled := rfl
@[simp] theorem setClip_yard (d : Device) (k : Nat) (c : Clip) : (setClip d k c).yard = d.yard := rfl
@[simp] theorem setClip_rings (d : Device) (k : Nat) (c : Clip) : (setClip d k c).rings = d.rings := rfl
@[simp] theorem setClip_ringResets (d : Device) (k : Nat) (c : Clip) : (setClip d k c).ringResets = d.ringResets := rfl
@[simp] theorem setClip_ringLast (d : Device) (k : Nat) (c : Clip) : (setClip d k c).ringLast = d.ringLast := rfl
@[simp] theorem setClip_ringLost (d : Device) (k : Nat) (c : Clip) : (setClip d k c).ringLost = d.ringLost := rfl
@[simp] theorem setClip_mem (d : Device) (k : Nat) (c : Clip) : (setClip d k c).mem = d.mem := rfl
@[simp] theorem setClip_dma (d : Device) (k : Nat) (c : Clip) : (setClip d k c).dma = d.dma := rfl
@[simp] theorem setClip_intc (d : Device) (k : Nat) (c : Clip) : (setClip d k c).intc = d.intc := rfl
@[simp] theorem setClip_mbox (d : Device) (k : Nat) (c : Clip) : (setClip d k c).mbox = d.mbox := rfl
@[simp] theorem setClip_plumb (d : Device) (k : Nat) (c : Clip) : (setClip d k c).plumb = d.plumb := rfl
@[simp] theorem setClip_host (d : Device) (k : Nat) (c : Clip) : (setClip d k c).host = d.host := rfl
@[simp] theorem setClip_qpSecure (d : Device) (k : Nat) (c : Clip) : (setClip d k c).qpSecure = d.qpSecure := rfl
@[simp] theorem setClip_qpRefused (d : Device) (k : Nat) (c : Clip) : (setClip d k c).qpRefused = d.qpRefused := rfl
@[simp] theorem setClip_qpTrig (d : Device) (k : Nat) (c : Clip) : (setClip d k c).qpTrig = d.qpTrig := rfl
@[simp] theorem setClip_sw (d : Device) (k : Nat) (c : Clip) : (setClip d k c).sw = d.sw := rfl
@[simp] theorem setClip_eth (d : Device) (k : Nat) (c : Clip) : (setClip d k c).eth = d.eth := rfl
@[simp] theorem setClip_bond (d : Device) (k : Nat) (c : Clip) : (setClip d k c).bond = d.bond := rfl
@[simp] theorem setClip_ks (d : Device) (k : Nat) (c : Clip) : (setClip d k c).ks = d.ks := rfl
@[simp] theorem setClip_crp (d : Device) (k : Nat) (c : Clip) : (setClip d k c).crp = d.crp := rfl
@[simp] theorem setClip_perf (d : Device) (k : Nat) (c : Clip) : (setClip d k c).perf = d.perf := rfl
@[simp] theorem setClip_gpioIn (d : Device) (k : Nat) (c : Clip) : (setClip d k c).gpioIn = d.gpioIn := rfl
@[simp] theorem setClip_temp (d : Device) (k : Nat) (c : Clip) : (setClip d k c).temp = d.temp := rfl
@[simp] theorem setClip_tempValid (d : Device) (k : Nat) (c : Clip) : (setClip d k c).tempValid = d.tempValid := rfl
@[simp] theorem setClip_tap (d : Device) (k : Nat) (c : Clip) : (setClip d k c).tap = d.tap := rfl
@[simp] theorem setClip_ingest (d : Device) (k : Nat) (c : Clip) : (setClip d k c).ingest = d.ingest := rfl
@[simp] theorem setClip_mortar (d : Device) (k : Nat) (c : Clip) : (setClip d k c).mortar = d.mortar := rfl
@[simp] theorem setClip_sdi (d : Device) (k : Nat) (c : Clip) : (setClip d k c).sdi = d.sdi := rfl
@[simp] theorem setClip_pins (d : Device) (k : Nat) (c : Clip) : (setClip d k c).pins = d.pins := rfl
@[simp] theorem setClip_codec (d : Device) (k : Nat) (c : Clip) : (setClip d k c).codec = d.codec := rfl
@[simp] theorem setClip_engines (d : Device) (k : Nat) (c : Clip) : (setClip d k c).engines = d.engines := rfl
@[simp] theorem setClip_out (d : Device) (k : Nat) (c : Clip) : (setClip d k c).out = d.out := rfl
@[simp] theorem setClip_verdicts (d : Device) (k : Nat) (c : Clip) : (setClip d k c).verdicts = d.verdicts := rfl
@[simp] theorem setClip_posted (d : Device) (k : Nat) (c : Clip) : (setClip d k c).posted = d.posted := rfl

/-! Delivery (R416). -/

/-- What delivery may change: the controller's record of what is delivered, mailboxes, the host port and what leaves the device. -/
def DeliveryOnly (d e : Device) : Prop := { e with intc := d.intc, mbox := d.mbox, host := d.host, out := d.out } = d

theorem DeliveryOnly.rfl' (d : Device) : DeliveryOnly d d := rfl

theorem DeliveryOnly.trans {a b c : Device} (h : DeliveryOnly a b) (g : DeliveryOnly b c) : DeliveryOnly a c := by
  unfold DeliveryOnly at *
  rw [← h, ← g]

theorem leaveL1_delivery (d : Device) : DeliveryOnly d (leaveL1 d) := by unfold leaveL1; split <;> rfl

theorem vecTry_delivery (d : Device) (f v : Nat) : DeliveryOnly d (vecTry d f v) := by
  unfold vecTry
  dsimp only
  split
  · rfl
  · split
    · split <;> rfl
    · split
      · rfl
      · split
        · split
          · rfl
          · exact leaveL1_delivery d
        · split
          · rfl
          · exact DeliveryOnly.trans (b := emit (setFunc d f { funcAt d f with pmeSent := true }) (.pme f)) rfl (leaveL1_delivery _)
        · rfl

theorem msixEvent_delivery (d : Device) (f v : Nat) : DeliveryOnly d (msixEvent d f v) := by
  unfold msixEvent
  dsimp only
  split
  · rfl
  · exact DeliveryOnly.trans (b := setVec d f v _) rfl (vecTry_delivery _ f v)

theorem intcDeliver_delivery (old : List Nat) (d : Device) (n : Nat) : DeliveryOnly d (intcDeliver old d n) := by
  unfold intcDeliver
  dsimp only
  split
  · rfl
  · split
    · exact msixEvent_delivery d _ _
    · rfl

theorem deliver_all (old l : List Nat) (d : Device) : DeliveryOnly d (l.foldl (intcDeliver old) d) := by
  induction l generalizing d with
  | nil => rfl
  | cons n r ih => exact (intcDeliver_delivery old d n).trans (ih _)

theorem intcRound_delivery (d : Device) : DeliveryOnly d (intcRound d) :=
  DeliveryOnly.trans (b := ((intcCandidates d).filter (intcDeliverable d)).foldl (intcDeliver d.intc.deliv) d) (deliver_all _ _ _) rfl

/-- Delivery changes nothing but interrupt state, mailboxes, the host port and what leaves the device. -/
theorem settle_delivery (d : Device) : DeliveryOnly d (settle d) := (intcRound_delivery d).trans (intcRound_delivery _)

theorem DeliveryOnly.draw_eq {d e : Device} (h : DeliveryOnly d e) : e.draw = d.draw := by
  unfold DeliveryOnly at h; rw [← h]

@[simp] theorem settle_draw (d : Device) : (settle d).draw = d.draw := (settle_delivery d).draw_eq

theorem DeliveryOnly.regs_eq {d e : Device} (h : DeliveryOnly d e) : e.regs = d.regs := by
  unfold DeliveryOnly at h; rw [← h]

@[simp] theorem settle_regs (d : Device) : (settle d).regs = d.regs := (settle_delivery d).regs_eq

theorem DeliveryOnly.time_eq {d e : Device} (h : DeliveryOnly d e) : e.time = d.time := by
  unfold DeliveryOnly at h; rw [← h]

@[simp] theorem settle_time (d : Device) : (settle d).time = d.time := (settle_delivery d).time_eq

theorem DeliveryOnly.frac_eq {d e : Device} (h : DeliveryOnly d e) : e.frac = d.frac := by
  unfold DeliveryOnly at h; rw [← h]

@[simp] theorem settle_frac (d : Device) : (settle d).frac = d.frac := (settle_delivery d).frac_eq

theorem DeliveryOnly.up_eq {d e : Device} (h : DeliveryOnly d e) : e.up = d.up := by
  unfold DeliveryOnly at h; rw [← h]

@[simp] theorem settle_up (d : Device) : (settle d).up = d.up := (settle_delivery d).up_eq

theorem DeliveryOnly.timeLatch_eq {d e : Device} (h : DeliveryOnly d e) : e.timeLatch = d.timeLatch := by
  unfold DeliveryOnly at h; rw [← h]

@[simp] theorem settle_timeLatch (d : Device) : (settle d).timeLatch = d.timeLatch := (settle_delivery d).timeLatch_eq

theorem DeliveryOnly.qpLatch_eq {d e : Device} (h : DeliveryOnly d e) : e.qpLatch = d.qpLatch := by
  unfold DeliveryOnly at h; rw [← h]

@[simp] theorem settle_qpLatch (d : Device) : (settle d).qpLatch = d.qpLatch := (settle_delivery d).qpLatch_eq

theorem DeliveryOnly.ctxs_eq {d e : Device} (h : DeliveryOnly d e) : e.ctxs = d.ctxs := by
  unfold DeliveryOnly at h; rw [← h]

@[simp] theorem settle_ctxs (d : Device) : (settle d).ctxs = d.ctxs := (settle_delivery d).ctxs_eq

theorem DeliveryOnly.threadRecs_eq {d e : Device} (h : DeliveryOnly d e) : e.threadRecs = d.threadRecs := by
  unfold DeliveryOnly at h; rw [← h]

@[simp] theorem settle_threadRecs (d : Device) : (settle d).threadRecs = d.threadRecs := (settle_delivery d).threadRecs_eq

theorem DeliveryOnly.rotation_eq {d e : Device} (h : DeliveryOnly d e) : e.rotation = d.rotation := by
  unfold DeliveryOnly at h; rw [← h]

@[simp] theorem settle_rotation (d : Device) : (settle d).rotation = d.rotation := (settle_delivery d).rotation_eq

theorem DeliveryOnly.lastIssue_eq {d e : Device} (h : DeliveryOnly d e) : e.lastIssue = d.lastIssue := by
  unfold DeliveryOnly at h; rw [← h]

@[simp] theorem settle_lastIssue (d : Device) : (settle d).lastIssue = d.lastIssue := (settle_delivery d).lastIssue_eq

theorem DeliveryOnly.issues_eq {d e : Device} (h : DeliveryOnly d e) : e.issues = d.issues := by
  unfold DeliveryOnly at h; rw [← h]

@[simp] theorem settle_issues (d : Device) : (settle d).issues = d.issues := (settle_delivery d).issues_eq

theorem DeliveryOnly.tickets_eq {d e : Device} (h : DeliveryOnly d e) : e.tickets = d.tickets := by
  unfold DeliveryOnly at h; rw [← h]

@[simp] theorem settle_tickets (d : Device) : (settle d).tickets = d.tickets := (settle_delivery d).tickets_eq

theorem DeliveryOnly.wos_eq {d e : Device} (h : DeliveryOnly d e) : e.wos = d.wos := by
  unfold DeliveryOnly at h; rw [← h]

@[simp] theorem settle_wos (d : Device) : (settle d).wos = d.wos := (settle_delivery d).wos_eq

theorem DeliveryOnly.woSeq_eq {d e : Device} (h : DeliveryOnly d e) : e.woSeq = d.woSeq := by
  unfold DeliveryOnly at h; rw [← h]

@[simp] theorem settle_woSeq (d : Device) : (settle d).woSeq = d.woSeq := (settle_delivery d).woSeq_eq

theorem DeliveryOnly.recs_eq {d e : Device} (h : DeliveryOnly d e) : e.recs = d.recs := by
  unfold DeliveryOnly at h; rw [← h]

@[simp] theorem settle_recs (d : Device) : (settle d).recs = d.recs := (settle_delivery d).recs_eq

theorem DeliveryOnly.cancelMiss_eq {d e : Device} (h : DeliveryOnly d e) : e.cancelMiss = d.cancelMiss := by
  unfold DeliveryOnly at h; rw [← h]

@[simp] theorem settle_cancelMiss (d : Device) : (settle d).cancelMiss = d.cancelMiss := (settle_delivery d).cancelMiss_eq

theorem DeliveryOnly.cancelDone_eq {d e : Device} (h : DeliveryOnly d e) : e.cancelDone = d.cancelDone := by
  unfold DeliveryOnly at h; rw [← h]

@[simp] theorem settle_cancelDone (d : Device) : (settle d).cancelDone = d.cancelDone := (settle_delivery d).cancelDone_eq

theorem DeliveryOnly.pfLost_eq {d e : Device} (h : DeliveryOnly d e) : e.pfLost = d.pfLost := by
  unfold DeliveryOnly at h; rw [← h]

@[simp] theorem settle_pfLost (d : Device) : (settle d).pfLost = d.pfLost := (settle_delivery d).pfLost_eq

theorem DeliveryOnly.pfCancelled_eq {d e : Device} (h : DeliveryOnly d e) : e.pfCancelled = d.pfCancelled := by
  unfold DeliveryOnly at h; rw [← h]

@[simp] theorem settle_pfCancelled (d : Device) : (settle d).pfCancelled = d.pfCancelled := (settle_delivery d).pfCancelled_eq

theorem DeliveryOnly.yard_eq {d e : Device} (h : DeliveryOnly d e) : e.yard = d.yard := by
  unfold DeliveryOnly at h; rw [← h]

@[simp] theorem settle_yard (d : Device) : (settle d).yard = d.yard := (settle_delivery d).yard_eq

theorem DeliveryOnly.rings_eq {d e : Device} (h : DeliveryOnly d e) : e.rings = d.rings := by
  unfold DeliveryOnly at h; rw [← h]

@[simp] theorem settle_rings (d : Device) : (settle d).rings = d.rings := (settle_delivery d).rings_eq

theorem DeliveryOnly.ringResets_eq {d e : Device} (h : DeliveryOnly d e) : e.ringResets = d.ringResets := by
  unfold DeliveryOnly at h; rw [← h]

@[simp] theorem settle_ringResets (d : Device) : (settle d).ringResets = d.ringResets := (settle_delivery d).ringResets_eq

theorem DeliveryOnly.ringLast_eq {d e : Device} (h : DeliveryOnly d e) : e.ringLast = d.ringLast := by
  unfold DeliveryOnly at h; rw [← h]

@[simp] theorem settle_ringLast (d : Device) : (settle d).ringLast = d.ringLast := (settle_delivery d).ringLast_eq

theorem DeliveryOnly.ringLost_eq {d e : Device} (h : DeliveryOnly d e) : e.ringLost = d.ringLost := by
  unfold DeliveryOnly at h; rw [← h]

@[simp] theorem settle_ringLost (d : Device) : (settle d).ringLost = d.ringLost := (settle_delivery d).ringLost_eq

theorem DeliveryOnly.mem_eq {d e : Device} (h : DeliveryOnly d e) : e.mem = d.mem := by
  unfold DeliveryOnly at h; rw [← h]

@[simp] theorem settle_mem (d : Device) : (settle d).mem = d.mem := (settle_delivery d).mem_eq

theorem DeliveryOnly.dma_eq {d e : Device} (h : DeliveryOnly d e) : e.dma = d.dma := by
  unfold DeliveryOnly at h; rw [← h]

@[simp] theorem settle_dma (d : Device) : (settle d).dma = d.dma := (settle_delivery d).dma_eq

theorem DeliveryOnly.plumb_eq {d e : Device} (h : DeliveryOnly d e) : e.plumb = d.plumb := by
  unfold DeliveryOnly at h; rw [← h]

@[simp] theorem settle_plumb (d : Device) : (settle d).plumb = d.plumb := (settle_delivery d).plumb_eq

theorem DeliveryOnly.qpSecure_eq {d e : Device} (h : DeliveryOnly d e) : e.qpSecure = d.qpSecure := by
  unfold DeliveryOnly at h; rw [← h]

@[simp] theorem settle_qpSecure (d : Device) : (settle d).qpSecure = d.qpSecure := (settle_delivery d).qpSecure_eq

theorem DeliveryOnly.qpRefused_eq {d e : Device} (h : DeliveryOnly d e) : e.qpRefused = d.qpRefused := by
  unfold DeliveryOnly at h; rw [← h]

@[simp] theorem settle_qpRefused (d : Device) : (settle d).qpRefused = d.qpRefused := (settle_delivery d).qpRefused_eq

theorem DeliveryOnly.qpTrig_eq {d e : Device} (h : DeliveryOnly d e) : e.qpTrig = d.qpTrig := by
  unfold DeliveryOnly at h; rw [← h]

@[simp] theorem settle_qpTrig (d : Device) : (settle d).qpTrig = d.qpTrig := (settle_delivery d).qpTrig_eq

theorem DeliveryOnly.sw_eq {d e : Device} (h : DeliveryOnly d e) : e.sw = d.sw := by
  unfold DeliveryOnly at h; rw [← h]

@[simp] theorem settle_sw (d : Device) : (settle d).sw = d.sw := (settle_delivery d).sw_eq

theorem DeliveryOnly.eth_eq {d e : Device} (h : DeliveryOnly d e) : e.eth = d.eth := by
  unfold DeliveryOnly at h; rw [← h]

@[simp] theorem settle_eth (d : Device) : (settle d).eth = d.eth := (settle_delivery d).eth_eq

theorem DeliveryOnly.bond_eq {d e : Device} (h : DeliveryOnly d e) : e.bond = d.bond := by
  unfold DeliveryOnly at h; rw [← h]

@[simp] theorem settle_bond (d : Device) : (settle d).bond = d.bond := (settle_delivery d).bond_eq

theorem DeliveryOnly.ks_eq {d e : Device} (h : DeliveryOnly d e) : e.ks = d.ks := by
  unfold DeliveryOnly at h; rw [← h]

@[simp] theorem settle_ks (d : Device) : (settle d).ks = d.ks := (settle_delivery d).ks_eq

theorem DeliveryOnly.crp_eq {d e : Device} (h : DeliveryOnly d e) : e.crp = d.crp := by
  unfold DeliveryOnly at h; rw [← h]

@[simp] theorem settle_crp (d : Device) : (settle d).crp = d.crp := (settle_delivery d).crp_eq

theorem DeliveryOnly.perf_eq {d e : Device} (h : DeliveryOnly d e) : e.perf = d.perf := by
  unfold DeliveryOnly at h; rw [← h]

@[simp] theorem settle_perf (d : Device) : (settle d).perf = d.perf := (settle_delivery d).perf_eq

theorem DeliveryOnly.gpioIn_eq {d e : Device} (h : DeliveryOnly d e) : e.gpioIn = d.gpioIn := by
  unfold DeliveryOnly at h; rw [← h]

@[simp] theorem settle_gpioIn (d : Device) : (settle d).gpioIn = d.gpioIn := (settle_delivery d).gpioIn_eq

theorem DeliveryOnly.temp_eq {d e : Device} (h : DeliveryOnly d e) : e.temp = d.temp := by
  unfold DeliveryOnly at h; rw [← h]

@[simp] theorem settle_temp (d : Device) : (settle d).temp = d.temp := (settle_delivery d).temp_eq

theorem DeliveryOnly.tempValid_eq {d e : Device} (h : DeliveryOnly d e) : e.tempValid = d.tempValid := by
  unfold DeliveryOnly at h; rw [← h]

@[simp] theorem settle_tempValid (d : Device) : (settle d).tempValid = d.tempValid := (settle_delivery d).tempValid_eq

theorem DeliveryOnly.tap_eq {d e : Device} (h : DeliveryOnly d e) : e.tap = d.tap := by
  unfold DeliveryOnly at h; rw [← h]

@[simp] theorem settle_tap (d : Device) : (settle d).tap = d.tap := (settle_delivery d).tap_eq

theorem DeliveryOnly.ingest_eq {d e : Device} (h : DeliveryOnly d e) : e.ingest = d.ingest := by
  unfold DeliveryOnly at h; rw [← h]

@[simp] theorem settle_ingest (d : Device) : (settle d).ingest = d.ingest := (settle_delivery d).ingest_eq

theorem DeliveryOnly.mag_eq {d e : Device} (h : DeliveryOnly d e) : e.mag = d.mag := by
  unfold DeliveryOnly at h; rw [← h]

@[simp] theorem settle_mag (d : Device) : (settle d).mag = d.mag := (settle_delivery d).mag_eq

theorem DeliveryOnly.mortar_eq {d e : Device} (h : DeliveryOnly d e) : e.mortar = d.mortar := by
  unfold DeliveryOnly at h; rw [← h]

@[simp] theorem settle_mortar (d : Device) : (settle d).mortar = d.mortar := (settle_delivery d).mortar_eq

theorem DeliveryOnly.sdi_eq {d e : Device} (h : DeliveryOnly d e) : e.sdi = d.sdi := by
  unfold DeliveryOnly at h; rw [← h]

@[simp] theorem settle_sdi (d : Device) : (settle d).sdi = d.sdi := (settle_delivery d).sdi_eq

theorem DeliveryOnly.pins_eq {d e : Device} (h : DeliveryOnly d e) : e.pins = d.pins := by
  unfold DeliveryOnly at h; rw [← h]

@[simp] theorem settle_pins (d : Device) : (settle d).pins = d.pins := (settle_delivery d).pins_eq

theorem DeliveryOnly.codec_eq {d e : Device} (h : DeliveryOnly d e) : e.codec = d.codec := by
  unfold DeliveryOnly at h; rw [← h]

@[simp] theorem settle_codec (d : Device) : (settle d).codec = d.codec := (settle_delivery d).codec_eq

theorem DeliveryOnly.engines_eq {d e : Device} (h : DeliveryOnly d e) : e.engines = d.engines := by
  unfold DeliveryOnly at h; rw [← h]

@[simp] theorem settle_engines (d : Device) : (settle d).engines = d.engines := (settle_delivery d).engines_eq

theorem DeliveryOnly.verdicts_eq {d e : Device} (h : DeliveryOnly d e) : e.verdicts = d.verdicts := by
  unfold DeliveryOnly at h; rw [← h]

@[simp] theorem settle_verdicts (d : Device) : (settle d).verdicts = d.verdicts := (settle_delivery d).verdicts_eq

theorem DeliveryOnly.posted_eq {d e : Device} (h : DeliveryOnly d e) : e.posted = d.posted := by
  unfold DeliveryOnly at h; rw [← h]

@[simp] theorem settle_posted (d : Device) : (settle d).posted = d.posted := (settle_delivery d).posted_eq


@[simp] theorem after_regs (s : State) (d : Device) : (after s d).dev.regs = d.regs := by
  have h := settle_regs d; unfold after; generalize settle d = e at h ⊢; exact h

@[simp] theorem after_time (s : State) (d : Device) : (after s d).dev.time = d.time := by
  have h := settle_time d; unfold after; generalize settle d = e at h ⊢; exact h

@[simp] theorem after_frac (s : State) (d : Device) : (after s d).dev.frac = d.frac := by
  have h := settle_frac d; unfold after; generalize settle d = e at h ⊢; exact h

@[simp] theorem after_up (s : State) (d : Device) : (after s d).dev.up = d.up := by
  have h := settle_up d; unfold after; generalize settle d = e at h ⊢; exact h

@[simp] theorem after_timeLatch (s : State) (d : Device) : (after s d).dev.timeLatch = d.timeLatch := by
  have h := settle_timeLatch d; unfold after; generalize settle d = e at h ⊢; exact h

@[simp] theorem after_qpLatch (s : State) (d : Device) : (after s d).dev.qpLatch = d.qpLatch := by
  have h := settle_qpLatch d; unfold after; generalize settle d = e at h ⊢; exact h

@[simp] theorem after_ctxs (s : State) (d : Device) : (after s d).dev.ctxs = d.ctxs := by
  have h := settle_ctxs d; unfold after; generalize settle d = e at h ⊢; exact h

@[simp] theorem after_threadRecs (s : State) (d : Device) : (after s d).dev.threadRecs = d.threadRecs := by
  have h := settle_threadRecs d; unfold after; generalize settle d = e at h ⊢; exact h

@[simp] theorem after_rotation (s : State) (d : Device) : (after s d).dev.rotation = d.rotation := by
  have h := settle_rotation d; unfold after; generalize settle d = e at h ⊢; exact h

@[simp] theorem after_lastIssue (s : State) (d : Device) : (after s d).dev.lastIssue = d.lastIssue := by
  have h := settle_lastIssue d; unfold after; generalize settle d = e at h ⊢; exact h

@[simp] theorem after_issues (s : State) (d : Device) : (after s d).dev.issues = d.issues := by
  have h := settle_issues d; unfold after; generalize settle d = e at h ⊢; exact h

@[simp] theorem after_tickets (s : State) (d : Device) : (after s d).dev.tickets = d.tickets := by
  have h := settle_tickets d; unfold after; generalize settle d = e at h ⊢; exact h

@[simp] theorem after_wos (s : State) (d : Device) : (after s d).dev.wos = d.wos := by
  have h := settle_wos d; unfold after; generalize settle d = e at h ⊢; exact h

@[simp] theorem after_woSeq (s : State) (d : Device) : (after s d).dev.woSeq = d.woSeq := by
  have h := settle_woSeq d; unfold after; generalize settle d = e at h ⊢; exact h

@[simp] theorem after_recs (s : State) (d : Device) : (after s d).dev.recs = d.recs := by
  have h := settle_recs d; unfold after; generalize settle d = e at h ⊢; exact h

@[simp] theorem after_cancelMiss (s : State) (d : Device) : (after s d).dev.cancelMiss = d.cancelMiss := by
  have h := settle_cancelMiss d; unfold after; generalize settle d = e at h ⊢; exact h

@[simp] theorem after_cancelDone (s : State) (d : Device) : (after s d).dev.cancelDone = d.cancelDone := by
  have h := settle_cancelDone d; unfold after; generalize settle d = e at h ⊢; exact h

@[simp] theorem after_pfLost (s : State) (d : Device) : (after s d).dev.pfLost = d.pfLost := by
  have h := settle_pfLost d; unfold after; generalize settle d = e at h ⊢; exact h

@[simp] theorem after_pfCancelled (s : State) (d : Device) : (after s d).dev.pfCancelled = d.pfCancelled := by
  have h := settle_pfCancelled d; unfold after; generalize settle d = e at h ⊢; exact h

@[simp] theorem after_yard (s : State) (d : Device) : (after s d).dev.yard = d.yard := by
  have h := settle_yard d; unfold after; generalize settle d = e at h ⊢; exact h

@[simp] theorem after_rings (s : State) (d : Device) : (after s d).dev.rings = d.rings := by
  have h := settle_rings d; unfold after; generalize settle d = e at h ⊢; exact h

@[simp] theorem after_ringResets (s : State) (d : Device) : (after s d).dev.ringResets = d.ringResets := by
  have h := settle_ringResets d; unfold after; generalize settle d = e at h ⊢; exact h

@[simp] theorem after_ringLast (s : State) (d : Device) : (after s d).dev.ringLast = d.ringLast := by
  have h := settle_ringLast d; unfold after; generalize settle d = e at h ⊢; exact h

@[simp] theorem after_ringLost (s : State) (d : Device) : (after s d).dev.ringLost = d.ringLost := by
  have h := settle_ringLost d; unfold after; generalize settle d = e at h ⊢; exact h

@[simp] theorem after_mem (s : State) (d : Device) : (after s d).dev.mem = d.mem := by
  have h := settle_mem d; unfold after; generalize settle d = e at h ⊢; exact h

@[simp] theorem after_dma (s : State) (d : Device) : (after s d).dev.dma = d.dma := by
  have h := settle_dma d; unfold after; generalize settle d = e at h ⊢; exact h

@[simp] theorem after_plumb (s : State) (d : Device) : (after s d).dev.plumb = d.plumb := by
  have h := settle_plumb d; unfold after; generalize settle d = e at h ⊢; exact h

@[simp] theorem after_qpSecure (s : State) (d : Device) : (after s d).dev.qpSecure = d.qpSecure := by
  have h := settle_qpSecure d; unfold after; generalize settle d = e at h ⊢; exact h

@[simp] theorem after_qpRefused (s : State) (d : Device) : (after s d).dev.qpRefused = d.qpRefused := by
  have h := settle_qpRefused d; unfold after; generalize settle d = e at h ⊢; exact h

@[simp] theorem after_qpTrig (s : State) (d : Device) : (after s d).dev.qpTrig = d.qpTrig := by
  have h := settle_qpTrig d; unfold after; generalize settle d = e at h ⊢; exact h

@[simp] theorem after_sw (s : State) (d : Device) : (after s d).dev.sw = d.sw := by
  have h := settle_sw d; unfold after; generalize settle d = e at h ⊢; exact h

@[simp] theorem after_eth (s : State) (d : Device) : (after s d).dev.eth = d.eth := by
  have h := settle_eth d; unfold after; generalize settle d = e at h ⊢; exact h

@[simp] theorem after_bond (s : State) (d : Device) : (after s d).dev.bond = d.bond := by
  have h := settle_bond d; unfold after; generalize settle d = e at h ⊢; exact h

@[simp] theorem after_ks (s : State) (d : Device) : (after s d).dev.ks = d.ks := by
  have h := settle_ks d; unfold after; generalize settle d = e at h ⊢; exact h

@[simp] theorem after_crp (s : State) (d : Device) : (after s d).dev.crp = d.crp := by
  have h := settle_crp d; unfold after; generalize settle d = e at h ⊢; exact h

@[simp] theorem after_perf (s : State) (d : Device) : (after s d).dev.perf = d.perf := by
  have h := settle_perf d; unfold after; generalize settle d = e at h ⊢; exact h

@[simp] theorem after_gpioIn (s : State) (d : Device) : (after s d).dev.gpioIn = d.gpioIn := by
  have h := settle_gpioIn d; unfold after; generalize settle d = e at h ⊢; exact h

@[simp] theorem after_temp (s : State) (d : Device) : (after s d).dev.temp = d.temp := by
  have h := settle_temp d; unfold after; generalize settle d = e at h ⊢; exact h

@[simp] theorem after_tempValid (s : State) (d : Device) : (after s d).dev.tempValid = d.tempValid := by
  have h := settle_tempValid d; unfold after; generalize settle d = e at h ⊢; exact h

@[simp] theorem after_tap (s : State) (d : Device) : (after s d).dev.tap = d.tap := by
  have h := settle_tap d; unfold after; generalize settle d = e at h ⊢; exact h

@[simp] theorem after_ingest (s : State) (d : Device) : (after s d).dev.ingest = d.ingest := by
  have h := settle_ingest d; unfold after; generalize settle d = e at h ⊢; exact h

@[simp] theorem after_mag (s : State) (d : Device) : (after s d).dev.mag = d.mag := by
  have h := settle_mag d; unfold after; generalize settle d = e at h ⊢; exact h

@[simp] theorem after_mortar (s : State) (d : Device) : (after s d).dev.mortar = d.mortar := by
  have h := settle_mortar d; unfold after; generalize settle d = e at h ⊢; exact h

@[simp] theorem after_sdi (s : State) (d : Device) : (after s d).dev.sdi = d.sdi := by
  have h := settle_sdi d; unfold after; generalize settle d = e at h ⊢; exact h

@[simp] theorem after_pins (s : State) (d : Device) : (after s d).dev.pins = d.pins := by
  have h := settle_pins d; unfold after; generalize settle d = e at h ⊢; exact h

@[simp] theorem after_codec (s : State) (d : Device) : (after s d).dev.codec = d.codec := by
  have h := settle_codec d; unfold after; generalize settle d = e at h ⊢; exact h

@[simp] theorem after_engines (s : State) (d : Device) : (after s d).dev.engines = d.engines := by
  have h := settle_engines d; unfold after; generalize settle d = e at h ⊢; exact h

@[simp] theorem after_verdicts (s : State) (d : Device) : (after s d).dev.verdicts = d.verdicts := by
  have h := settle_verdicts d; unfold after; generalize settle d = e at h ⊢; exact h

@[simp] theorem after_posted (s : State) (d : Device) : (after s d).dev.posted = d.posted := by
  have h := settle_posted d; unfold after; generalize settle d = e at h ⊢; exact h


@[simp] theorem after_draw (s : State) (d : Device) : (after s d).dev.draw = s.dev.draw + 1 := rfl

@[simp] theorem after_fuses (s : State) (d : Device) : (after s d).fuses = s.fuses := rfl

@[simp] theorem after_pending (s : State) (d : Device) : (after s d).pending = s.pending := rfl

/-! Entries. -/

@[simp] theorem ctxAt_setCtx (d : Device) (c : Nat) (x : HoltCtx) : ctxAt (setCtx d c x) c = x := tget_tset _ _ _ _

theorem ctxAt_setCtx_ne (d : Device) {c k : Nat} (h : k ≠ c) (x : HoltCtx) : ctxAt (setCtx d c x) k = ctxAt d k := tget_tset_ne _ h _ _

@[simp] theorem reg_setReg (d : Device) (o r v : Nat) : reg (setReg d o r v) o r = v := tget_tset _ _ _ _

theorem reg_setReg_ne (d : Device) {o k : Nat} (h : k ≠ o) (r v : Nat) : reg (setReg d o r v) k r = reg d k r := tget_tset_ne _ h _ _

@[simp] theorem ringAt_setRing (d : Device) (r : Nat) (x : Ring) : ringAt (setRing d r x) r = x := tget_tset _ _ _ _

@[simp] theorem mboxAt_setMbox (d : Device) (c : Nat) (x : Mbox) : mboxAt (setMbox d c x) c = x := tget_tset _ _ _ _

@[simp] theorem bufAt_setBuf (d : Device) (i : Nat) (b : Buf) : bufAt (setBuf d i b) i = b := tget_tset _ _ _ _

@[simp] theorem dmaAt_setDma (d : Device) (c : Nat) (x : DmaChan) : dmaAt (setDma d c x) c = x := tget_tset _ _ _ _

@[simp] theorem engineAt_setEngine (d : Device) (u : Nat) (e : Engine) : engineAt (setEngine d u e) u = e := tget_tset _ _ _ _

@[simp] theorem swAt_setSw (d : Device) (p : Nat) (x : SwPort) : swAt (setSw d p x) p = x := tget_tset _ _ _ _

end Sys2Proof.Machine
end

