-- ==== Sys2Proof/Laws/Holt.lean ====
section
/-! SUPPORT. What issuing a Holt instruction does, once: an admitted read changes nothing, a context that can issue goes on with the
instruction's own effect, and what retiring leaves in the registers. -/

namespace Sys2Proof.Machine

theorem dramCheck_read_ok (d : Device) (r : Req) (a n : Nat) :
    (dramCheck d r false a n).2 = .ok → (dramCheck d r false a n).1 = d := by
  unfold dramCheck
  dsimp only
  rw [if_neg (by decide)]
  split
  · exact fun h => MemRes.noConfusion h
  · split
    · exact fun h => MemRes.noConfusion h
    · split
      · exact fun h => MemRes.noConfusion h
      · exact fun _ => rfl

theorem ashlarCheck_read_ok (d : Device) (r : Req) (b a n : Nat) :
    (ashlarCheck d r b false a n).2 = .ok → (ashlarCheck d r b false a n).1 = d := by
  unfold ashlarCheck
  dsimp only
  rw [if_neg (c := false = true) (by decide)]
  split
  · exact fun h => MemRes.noConfusion h
  · split
    · exact fun h => MemRes.noConfusion h
    · split
      · exact fun h => MemRes.noConfusion h
      · exact fun _ => rfl

theorem absCheck_ok (d : Device) (r : Req) (x : Bool) : (absCheck d r x).2 = .ok → (absCheck d r x).1 = d := by
  unfold absCheck
  split
  · exact fun h => MemRes.noConfusion h
  · split
    · exact fun _ => rfl
    · exact fun h => MemRes.noConfusion h

theorem ashlarSpan_read_ok (d : Device) (r : Req) (a n : Nat) (l : List Nat) :
    (ashlarSpan d r false a n l).2 = .ok → (ashlarSpan d r false a n l).1 = d := by
  induction l generalizing d with
  | nil => exact fun _ => rfl
  | cons b rest ih =>
    unfold ashlarSpan
    dsimp only
    split
    · next e he =>
      have h1 := ashlarCheck_read_ok d r b (max a (0x080000000000 + b * 0x400000))
        (min (a + n) (0x080000400000 + b * 0x400000) - max a (0x080000000000 + b * 0x400000)) (by rw [he])
      rw [he] at h1
      have h2 := ih e
      split
      · next f hf => intro _; rw [hf] at h2; exact (h2 rfl).trans h1
      · next f res hne hf => exact fun h => absurd h hne
    · next hne => exact fun h => (hne _ (Prod.ext rfl h)).elim

theorem memAdmit_read_ok (d : Device) (r : Req) (x : Bool) (a n : Nat) (r1 r2 : Region) :
    (memAdmit d r x false a n r1 r2).2 = .ok → (memAdmit d r x false a n r1 r2).1 = d := by
  unfold memAdmit
  split <;> try split
  · exact dramCheck_read_ok d r a n
  · exact fun h => MemRes.noConfusion h
  · exact ashlarSpan_read_ok d r a n _
  · exact fun h => MemRes.noConfusion h
  · exact absCheck_ok d r x
  · exact fun h => MemRes.noConfusion h
  · exact fun _ => rfl
  · exact fun h => MemRes.noConfusion h
  · exact fun h => MemRes.noConfusion h
  · exact fun h => MemRes.noConfusion h

/-- A read that memory performs changes nothing. -/
theorem memCheck_read_ok (d : Device) (r : Req) (x : Bool) (a n : Nat) :
    (memCheck d r x false a n).2 = .ok → (memCheck d r x false a n).1 = d := memAdmit_read_ok d r x a n _ _

/-- An admitted access that is no store changes nothing before it is performed. -/
theorem holtAcc_read_ok {d e : Device} {c : Nat} {a : Word} {n : Nat} {k : Acc} {p cls : Nat} (hk : k ≠ .store)
    (h : holtAcc d c a n k = .ok e p cls) : e = d := by
  have hw : decide (k = .store) = false := by simp [hk]
  unfold holtAcc at h
  dsimp only at h
  split at h
  · cases h
  · split at h
    · split at h
      · cases h
      · split at h
        · cases h
        · cases h; rfl
    · split at h
      · cases h
      · rw [hw] at h
        split at h
        · next d' hm =>
          cases h
          have h2 := memCheck_read_ok d (reqOf (24 + coreOf c)) (ctxAt d c).isSealed p n (by rw [hm])
          rw [hm] at h2; exact h2
        · cases h
        · cases h

/-- A context that can issue is not turned away, and its fetch passes. -/
theorem canIssue_cases {s : State} {c : Nat} (h : canIssue s c = true) :
    ¬ (512 ≤ c ∨ (ctxAt s.dev c).st ≠ .ready ∨ !mayIssue s.dev c) ∧
      (match fetch (issued s.dev c) c with | .ok _ _ _ => true | _ => false) = true := by
  unfold canIssue at h
  simp only [Bool.and_eq_true, decide_eq_true_eq] at h
  exact ⟨by simp [h.1.1.2, h.1.2]; omega, h.2⟩

/-- An instruction without a trap of its own word goes on with its effect on the device in the new order of issue. -/
theorem issue_ok {s : State} {c : Nat} (h : canIssue s c = true) (word : Word) (body : Fuses → Device → HoltRes) :
    issue s c word none none body = holtEnd s c (body s.fuses (issued s.dev c)) := by
  obtain ⟨hi, h3⟩ := canIssue_cases h
  unfold issue
  rw [if_neg hi]
  dsimp only
  split at h3
  · next d p k hf =>
    have : d = issued s.dev c := holtAcc_read_ok (by decide) hf
    rw [hf, this]
  · cases h3

/-- The word of an instruction raises an illegal-instruction trap before anything else (R49). -/
theorem issue_ill {s : State} {c : Nat} (h : canIssue s c = true) (word : Word) (k : Nat) (priv : Option Nat)
    (body : Fuses → Device → HoltRes) : issue s c word (some k) priv body = .next (trapStep s c 1 k word) := by
  unfold issue
  rw [if_neg (canIssue_cases h).1]
  rfl

/-- A privilege trap comes before the fetch (R49). -/
theorem issue_priv {s : State} {c : Nat} (h : canIssue s c = true) (word : Word) (k : Nat) (body : Fuses → Device → HoltRes) :
    issue s c word none (some k) body = .next (trapStep s c 7 k word) := by
  unfold issue
  rw [if_neg (canIssue_cases h).1]
  rfl

/-- The context that the priorities and the rotation put first is chosen (R53), whatever the free values. -/
theorem issuesFirst_mayIssue {d : Device} {c : Nat} (h : issuesFirst d c = true) : mayIssue d c = true := by
  unfold issuesFirst at h
  unfold mayIssue
  rw [List.all_eq_true] at h ⊢
  exact fun e he => by rw [h e he]; rfl

@[simp] theorem ctxAt_rotate (d : Device) (c k : Nat) : ctxAt (rotate d c) k = ctxAt d k := rfl

@[simp] theorem hreg_rotate (d : Device) (c k n : Nat) : hreg (rotate d c) k n = hreg d k n := rfl

@[simp] theorem rD_rotate (d : Device) (c k : Nat) (w : HoltWord) : rD (rotate d c) k w = rD d k w := rfl

@[simp] theorem rA_rotate (d : Device) (c k : Nat) (w : HoltWord) : rA (rotate d c) k w = rA d k w := rfl

@[simp] theorem rB_rotate (d : Device) (c k : Nat) (w : HoltWord) : rB (rotate d c) k w = rB d k w := rfl

@[simp] theorem src2_rotate (d : Device) (c k : Nat) (w : HoltWord) : src2 (rotate d c) k w = src2 d k w := rfl

@[simp] theorem nextPc_rotate (d : Device) (c k : Nat) : nextPc (rotate d c) k = nextPc d k := rfl

@[simp] theorem branchTarget_rotate (d : Device) (c k : Nat) (w : HoltWord) : branchTarget (rotate d c) k w = branchTarget d k w := rfl

@[simp] theorem ctxAt_issued (d : Device) (c k : Nat) : ctxAt (issued d c) k = ctxAt d k := rfl

@[simp] theorem hreg_issued (d : Device) (c k n : Nat) : hreg (issued d c) k n = hreg d k n := rfl

@[simp] theorem rD_issued (d : Device) (c k : Nat) (w : HoltWord) : rD (issued d c) k w = rD d k w := rfl

@[simp] theorem rA_issued (d : Device) (c k : Nat) (w : HoltWord) : rA (issued d c) k w = rA d k w := rfl

@[simp] theorem rB_issued (d : Device) (c k : Nat) (w : HoltWord) : rB (issued d c) k w = rB d k w := rfl

@[simp] theorem src2_issued (d : Device) (c k : Nat) (w : HoltWord) : src2 (issued d c) k w = src2 d k w := rfl

@[simp] theorem nextPc_issued (d : Device) (c k : Nat) : nextPc (issued d c) k = nextPc d k := rfl

@[simp] theorem branchTarget_issued (d : Device) (c k : Nat) (w : HoltWord) : branchTarget (issued d c) k w = branchTarget d k w := rfl

/-- h0 reads 0 (R21). -/
@[simp] theorem hreg_zero (d : Device) (c : Nat) : hreg d c 0 = 0 := rfl

/-- A register reads as it was written; h0 stays 0. -/
theorem hreg_setH (d : Device) (c n : Nat) (v : Word) : hreg (setH d c n v) c n = if n = 0 then 0 else v := by
  unfold setH hreg
  split
  · rfl
  · simp [tget_tset]

/-- Writing one register leaves every other as it was. -/
theorem hreg_setH_ne (d : Device) (c : Nat) {m n : Nat} (h : m ≠ n) (v : Word) : hreg (setH d c n v) c m = hreg d c m := by
  unfold setH hreg
  split
  · rfl
  · split
    · rfl
    · simp [tget_tset_ne _ h]

/-- Counting events changes the performance counters alone. -/
theorem perfAdd_perf (d : Device) (k n fl a b : Nat) : ∃ p, perfAdd d k n fl a b = withPerf d p := by
  unfold perfAdd
  dsimp only
  split
  · exact ⟨_, rfl⟩
  · split <;> exact ⟨_, rfl⟩

/-- Counting an event changes the performance counters alone. -/
theorem perfEvent_perf (d : Device) (g e i n : Nat) (x : Bool) (a b : Nat) : ∃ p, perfEvent d g e i n x a b = withPerf d p := by
  unfold perfEvent
  split
  · exact ⟨d.perf, rfl⟩
  · generalize perfKeys d = l
    generalize (if x then 0 else a) = wh
    suffices ∀ p0 : Perf, ∃ p, l.foldl (fun e1 k =>
        if perfMatches (perfCfg e1 k) g e i then perfAdd e1 k n (ofFlag x) wh b else e1) (withPerf d p0) = withPerf d p by
      exact this d.perf
    induction l with
    | nil => intro p0; exact ⟨p0, rfl⟩
    | cons k r ih =>
      intro p0
      rw [List.foldl_cons]
      by_cases hm : perfMatches (perfCfg (withPerf d p0) k) g e i = true
      · obtain ⟨p1, h1⟩ := perfAdd_perf (withPerf d p0) k n (ofFlag x) wh b
        rw [if_pos hm, h1]
        exact ih p1
      · rw [if_neg hm]
        exact ih p0

/-- Retiring changes only the context that retires and the performance counters. -/
theorem retire_only (d : Device) (c : Nat) (pc : Word) :
    ∃ p, retire d c pc = withPerf (setCtx d c { ctxAt d c with pc := pc, instret := (ctxAt d c).instret + 1 }) p := by
  unfold retire masonEvent
  dsimp only
  obtain ⟨p, h⟩ := perfEvent_perf d 1 1 (coreOf c) 1 (ctxAt d c).isSealed (pcForm (ctxAt d c).pc) c
  rw [h]
  exact ⟨p, rfl⟩

end Sys2Proof.Machine
end

