-- ==== Sys2Proof/Laws/Memory.lean ====
section
/-! SUPPORT. Memory cells: every operation keeps the canonical form, a byte reads as it was written, and a write leaves every other
byte as it was. -/

namespace Sys2Proof.Machine

/-- The canonical form, said of every entry and of the order. -/
theorem memWf_iff (m : List Host.Cell) :
    memWf m = true ↔ m.Pairwise (fun e f => e.1 < f.1) ∧ ∀ e ∈ m, unlisted e.1 ≠ some e.2 := by
  induction m with
  | nil => simp [memWf]
  | cons e r ih =>
    obtain ⟨a, b⟩ := e
    cases r with
    | nil => simp [memWf]
    | cons f r =>
      obtain ⟨c, x⟩ := f
      simp only [memWf, Bool.and_eq_true, decide_eq_true_eq, ih, List.pairwise_cons, List.mem_cons, forall_eq_or_imp]
      constructor
      · rintro ⟨⟨h1, h2⟩, ⟨h3, h4⟩, h5, h6⟩
        exact ⟨⟨⟨h1, fun y hy => lt_trans h1 (h3 y hy)⟩, h3, h4⟩, h2, h5, h6⟩
      · rintro ⟨⟨⟨h1, _⟩, h3, h4⟩, h2, h5, h6⟩
        exact ⟨⟨h1, h2⟩, ⟨h3, h4⟩, h5, h6⟩

theorem mem_tput {α : Type} {k : Nat} {v : α} {t : Table α} {e : Nat × α} (h : e ∈ tput k v t) : e = (k, v) ∨ e ∈ t := by
  induction t with
  | nil => simp [tput] at h; exact .inl h
  | cons f r ih =>
    obtain ⟨a, w⟩ := f
    unfold tput at h
    split at h
    · simpa using h
    · split at h
      · rcases List.mem_cons.mp h with h | h
        · exact .inl h
        · exact .inr (List.mem_cons_of_mem _ h)
      · rcases List.mem_cons.mp h with h | h
        · exact .inr (by simp [h])
        · rcases ih h with h | h
          · exact .inl h
          · exact .inr (List.mem_cons_of_mem _ h)

theorem tput_rising {α : Type} (k : Nat) (v : α) (t : Table α) (h : t.Pairwise (fun e f => e.1 < f.1)) :
    (tput k v t).Pairwise (fun e f => e.1 < f.1) := by
  induction t with
  | nil => simp [tput]
  | cons f r ih =>
    obtain ⟨a, w⟩ := f
    rw [List.pairwise_cons] at h
    unfold tput
    split
    · next hk =>
      rw [List.pairwise_cons, List.pairwise_cons]
      refine ⟨fun e he => ?_, h⟩
      rcases List.mem_cons.mp he with he | he
      · simpa [he] using hk
      · exact lt_trans hk (h.1 e he)
    · split
      · next h2 => subst h2; rw [List.pairwise_cons]; exact h
      · next h1 h2 =>
        rw [List.pairwise_cons]
        refine ⟨fun e he => ?_, ih h.2⟩
        rcases mem_tput he with he | he
        · subst he; show a < k; omega
        · exact h.1 e he

theorem tdel_eq_filter {α : Type} (k : Nat) (t : Table α) : tdel k t = t.filter (fun e => e.1 ≠ k) := by
  induction t with
  | nil => simp [tdel]
  | cons f r ih =>
    obtain ⟨a, w⟩ := f
    by_cases h : a = k <;> simp [tdel, h, ih]

theorem filter_memWf {p : Host.Cell → Bool} {m : List Host.Cell} (h : memWf m = true) : memWf (m.filter p) = true := by
  rw [memWf_iff] at *
  exact ⟨h.1.filter p, fun e he => h.2 e (List.mem_of_mem_filter he)⟩

/-- Writing a byte keeps the canonical form. -/
theorem setCell_memWf (a : Nat) (b : Byte) {m : List Host.Cell} (h : memWf m = true) : memWf (setCell a b m) = true := by
  unfold setCell
  split
  · rw [tdel_eq_filter]; exact filter_memWf h
  · next hb =>
    rw [memWf_iff] at *
    refine ⟨tput_rising a b m h.1, fun e he => ?_⟩
    rcases mem_tput he with he | he
    · subst he; exact hb
    · exact h.2 e he

/-- Writing bytes keeps the canonical form. -/
theorem setCells_memWf (a : Nat) (l : List Byte) {m : List Host.Cell} (h : memWf m = true) : memWf (setCells a l m) = true := by
  induction l generalizing a m with
  | nil => exact h
  | cons b r ih => exact ih (a + 1) (setCell_memWf a b h)

/-- A wipe keeps the canonical form. -/
theorem dropCells_memWf (lo hi : Nat) {m : List Host.Cell} (h : memWf m = true) : memWf (dropCells lo hi m) = true := filter_memWf h

/-- A byte reads as it was written. -/
theorem cellAt_setCell (a : Nat) (b : Byte) (m : List Host.Cell) : cellAt a (setCell a b m) = some b := by
  by_cases h : unlisted a = some b
  · simp only [setCell, if_pos h, cellAt, tfind_tdel]; exact h
  · simp only [setCell, if_neg h, cellAt, tfind_tput]

/-- Writing a byte leaves every other address as it was. -/
theorem cellAt_setCell_ne {a x : Nat} (h : x ≠ a) (b : Byte) (m : List Host.Cell) : cellAt x (setCell a b m) = cellAt x m := by
  by_cases hb : unlisted a = some b
  · simp only [setCell, if_pos hb, cellAt, tfind_tdel_ne h]
  · simp only [setCell, if_neg hb, cellAt, tfind_tput_ne h]

/-- Writing bytes leaves every address outside them as it was. -/
theorem cellAt_setCells_ne {a x : Nat} (l : List Byte) (h : x < a ∨ a + l.length ≤ x) (m : List Host.Cell) :
    cellAt x (setCells a l m) = cellAt x m := by
  induction l generalizing a m with
  | nil => rfl
  | cons b r ih =>
    rw [List.length_cons] at h
    rw [setCells, ih (by omega), cellAt_setCell_ne (by omega)]

/-- Written bytes read as they were written. -/
theorem cellAt_setCells (a : Nat) (l : List Byte) (m : List Host.Cell) (i : Nat) (h : i < l.length) :
    cellAt (a + i) (setCells a l m) = some l[i] := by
  induction l generalizing a m i with
  | nil => simp at h
  | cons b r ih =>
    rw [setCells]
    cases i with
    | zero => rw [cellAt_setCells_ne r (by omega)]; exact cellAt_setCell a b m
    | succ i =>
      have := ih (a + 1) (setCell a b m) i (by simpa using h)
      rw [show a + (i + 1) = a + 1 + i by omega, this]; rfl

/-- An address outside a wiped range reads as before; one inside it reads as an address that nothing has written. -/
theorem cellAt_dropCells (lo hi x : Nat) (m : List Host.Cell) :
    cellAt x (dropCells lo hi m) = if lo ≤ x ∧ x < hi then unlisted x else cellAt x m := by
  unfold cellAt dropCells
  induction m with
  | nil => simp [tfind]
  | cons e r ih =>
    obtain ⟨a, b⟩ := e
    by_cases hx : a = x
    · subst hx
      by_cases h : lo ≤ a ∧ a < hi
      · rw [if_pos h] at ih ⊢; rw [List.filter_cons_of_neg (by simp [h])]; exact ih
      · rw [if_neg h]; rw [List.filter_cons_of_pos (by simp; omega)]; simp [tfind]
    · by_cases h : lo ≤ a ∧ a < hi
      · rw [List.filter_cons_of_neg (by simp [h])]; simpa [tfind, hx] using ih
      · rw [List.filter_cons_of_pos (by simp; omega)]; simpa [tfind, hx] using ih

end Sys2Proof.Machine
end

