-- ==== Sys2Proof/Laws/Access.lean ====
section
/-! SUPPORT. What a fault event and an access of a unit can do, once: Plumb and the emergency close for an event; and for an access memory
and the performance counters too. -/

namespace Sys2Proof.Machine

/-- e is d with other Plumb state and other emergency closes. -/
def EventOnly (d e : Device) : Prop := { e with plumb := d.plumb, mag := d.mag } = d ∧ { e.mag with emerg := d.mag.emerg } = d.mag

theorem EventOnly.rfl' (d : Device) : EventOnly d d := ⟨rfl, rfl⟩

theorem EventOnly.trans {a b c : Device} (h : EventOnly a b) (g : EventOnly b c) : EventOnly a c := by
  obtain ⟨h1, h2⟩ := h
  obtain ⟨g1, g2⟩ := g
  constructor
  · rw [← h1, ← g1]
  · rw [← h2, ← g2]

theorem startEmergency_event (d : Device) (r : Nat) (p : Clip → Bool) : EventOnly d (startEmergency d r p) := by
  unfold startEmergency
  dsimp only
  split <;> exact ⟨rfl, rfl⟩

theorem plumbClose_event (d : Device) (n cls : Nat) (chip : Bool) : EventOnly d (plumbClose d n cls chip) := by
  unfold plumbClose
  split
  · exact startEmergency_event _ _ _
  split
  · exact startEmergency_event _ _ _
  split
  · exact startEmergency_event _ _ _
  split
  · exact startEmergency_event _ _ _
  · exact EventOnly.rfl' d

theorem chipAsk_event (d : Device) (n : Nat) : EventOnly d (chipAsk d n) := ⟨rfl, rfl⟩

/-- The reactions of an event after its record is made. -/
theorem plumbReact_event (d : Device) (p : Plumb) (n cls : Nat) (chip : Bool) :
    EventOnly d (if chip = true then chipAsk (plumbClose { d with plumb := p } n cls chip) n
      else plumbClose { d with plumb := p } n cls chip) := by
  have h : EventOnly d (plumbClose { d with plumb := p } n cls chip) :=
    EventOnly.trans (b := { d with plumb := p }) ⟨rfl, rfl⟩ (plumbClose_event _ _ _ _)
  split
  · exact h.trans (chipAsk_event _ _)
  · exact h

/-- An event of a source changes Plumb, and the emergency close it may start, and nothing else. -/
theorem plumbEvent_event (d : Device) (n detail : Nat) : EventOnly d (plumbEvent d n detail) := by
  unfold plumbEvent
  split
  · exact EventOnly.rfl' d
  · exact EventOnly.trans (b := { d with plumb := { d.plumb with esc := _ } }) ⟨rfl, rfl⟩ (plumbReact_event _ _ _ _ _)

theorem EventOnly.mem {d e : Device} (h : EventOnly d e) : e.mem = d.mem := by rw [← h.1]
theorem EventOnly.regs {d e : Device} (h : EventOnly d e) : e.regs = d.regs := by rw [← h.1]
theorem EventOnly.rings {d e : Device} (h : EventOnly d e) : e.rings = d.rings := by rw [← h.1]
theorem EventOnly.yard {d e : Device} (h : EventOnly d e) : e.yard = d.yard := by rw [← h.1]
theorem EventOnly.wos {d e : Device} (h : EventOnly d e) : e.wos = d.wos := by rw [← h.1]
theorem EventOnly.recs {d e : Device} (h : EventOnly d e) : e.recs = d.recs := by rw [← h.1]
theorem EventOnly.tickets {d e : Device} (h : EventOnly d e) : e.tickets = d.tickets := by rw [← h.1]
theorem EventOnly.ctxs {d e : Device} (h : EventOnly d e) : e.ctxs = d.ctxs := by rw [← h.1]
theorem EventOnly.host {d e : Device} (h : EventOnly d e) : e.host = d.host := by rw [← h.1]
theorem EventOnly.intc {d e : Device} (h : EventOnly d e) : e.intc = d.intc := by rw [← h.1]
theorem EventOnly.out {d e : Device} (h : EventOnly d e) : e.out = d.out := by rw [← h.1]
theorem EventOnly.time {d e : Device} (h : EventOnly d e) : e.time = d.time := by rw [← h.1]
theorem EventOnly.up {d e : Device} (h : EventOnly d e) : e.up = d.up := by rw [← h.1]

/-- e is d after an access: other memory marks, counters, fault events. -/
def AccessOnly (d e : Device) : Prop :=
  { e with mem := d.mem, perf := d.perf, plumb := d.plumb, mag := d.mag } = d ∧ { e.mag with emerg := d.mag.emerg } = d.mag

theorem AccessOnly.rfl' (d : Device) : AccessOnly d d := ⟨rfl, rfl⟩

theorem AccessOnly.trans {a b c : Device} (h : AccessOnly a b) (g : AccessOnly b c) : AccessOnly a c := by
  obtain ⟨h1, h2⟩ := h
  obtain ⟨g1, g2⟩ := g
  constructor
  · rw [← h1, ← g1]
  · rw [← h2, ← g2]

theorem EventOnly.access {d e : Device} (h : EventOnly d e) : AccessOnly d e := by
  obtain ⟨h1, h2⟩ := h
  exact ⟨by rw [← h1], h2⟩

theorem AccessOnly.regs {d e : Device} (h : AccessOnly d e) : e.regs = d.regs := by rw [← h.1]
theorem AccessOnly.rings {d e : Device} (h : AccessOnly d e) : e.rings = d.rings := by rw [← h.1]
theorem AccessOnly.yard {d e : Device} (h : AccessOnly d e) : e.yard = d.yard := by rw [← h.1]
theorem AccessOnly.wos {d e : Device} (h : AccessOnly d e) : e.wos = d.wos := by rw [← h.1]
theorem AccessOnly.recs {d e : Device} (h : AccessOnly d e) : e.recs = d.recs := by rw [← h.1]
theorem AccessOnly.tickets {d e : Device} (h : AccessOnly d e) : e.tickets = d.tickets := by rw [← h.1]
theorem AccessOnly.ctxs {d e : Device} (h : AccessOnly d e) : e.ctxs = d.ctxs := by rw [← h.1]
theorem AccessOnly.host {d e : Device} (h : AccessOnly d e) : e.host = d.host := by rw [← h.1]
theorem AccessOnly.intc {d e : Device} (h : AccessOnly d e) : e.intc = d.intc := by rw [← h.1]
theorem AccessOnly.out {d e : Device} (h : AccessOnly d e) : e.out = d.out := by rw [← h.1]
theorem AccessOnly.time {d e : Device} (h : AccessOnly d e) : e.time = d.time := by rw [← h.1]
theorem AccessOnly.up {d e : Device} (h : AccessOnly d e) : e.up = d.up := by rw [← h.1]

theorem dmcLog_access (d : Device) (ty a r f s : Nat) : AccessOnly d (dmcLog d ty a r f s) := by
  unfold dmcLog
  dsimp only
  split
  · exact ⟨rfl, rfl⟩
  · split <;> exact ⟨rfl, rfl⟩

theorem dmcLog_cells (d : Device) (ty a r f s : Nat) : (dmcLog d ty a r f s).mem.cells = d.mem.cells := by
  unfold dmcLog
  dsimp only
  split
  · rfl
  · split <;> rfl

/-- What checking an access may change: marks and logs of memory, counters, events; never a byte. -/
def CheckOnly (d e : Device) : Prop := AccessOnly d e ∧ e.mem.cells = d.mem.cells

theorem CheckOnly.rfl' (d : Device) : CheckOnly d d := ⟨AccessOnly.rfl' d, rfl⟩

theorem CheckOnly.trans {a b c : Device} (h : CheckOnly a b) (g : CheckOnly b c) : CheckOnly a c := ⟨h.1.trans g.1, g.2.trans h.2⟩

theorem plumbEvent_check (d : Device) (n detail : Nat) : CheckOnly d (plumbEvent d n detail) :=
  ⟨(plumbEvent_event d n detail).access, by rw [(plumbEvent_event d n detail).mem]⟩

theorem dmcLog_check (d : Device) (ty a r f s : Nat) : CheckOnly d (dmcLog d ty a r f s) := ⟨dmcLog_access d ty a r f s, dmcLog_cells d ty a r f s⟩

theorem setDmc_check (d : Device) (n : Nat) (x : Dmc) : CheckOnly d (setDmc d n x) := ⟨⟨rfl, rfl⟩, rfl⟩

theorem dramCheck_check (d : Device) (r : Req) (w : Bool) (a n : Nat) : CheckOnly d (dramCheck d r w a n).1 := by
  unfold dramCheck
  dsimp only
  split
  · exact (dmcLog_check d _ _ _ _ _).trans (plumbEvent_check _ _ _)
  · split
    · exact (setDmc_check d _ _).trans ((dmcLog_check _ _ _ _ _ _).trans (plumbEvent_check _ _ _))
    · split
      · exact (dmcLog_check d _ _ _ _ _).trans (plumbEvent_check _ _ _)
      · split
        · exact ⟨⟨rfl, rfl⟩, rfl⟩
        · exact CheckOnly.rfl' d

theorem ashlarViolation_check (d : Device) (b r : Nat) : CheckOnly d (ashlarViolation d b r) :=
  CheckOnly.trans (b := { d with mem := { d.mem with violBank := b, violReq := r, viol := (d.mem.viol + 1) % 65536 } })
    ⟨⟨rfl, rfl⟩, rfl⟩ (plumbEvent_check _ _ _)

theorem ashlarCheck_check (d : Device) (r : Req) (b : Nat) (w : Bool) (a n : Nat) : CheckOnly d (ashlarCheck d r b w a n).1 := by
  unfold ashlarCheck
  dsimp only
  split
  · exact ashlarViolation_check d _ _
  · split
    · exact CheckOnly.rfl' d
    · split
      · exact plumbEvent_check d _ _
      · dsimp only
        split
        · exact ⟨⟨rfl, rfl⟩, rfl⟩
        · exact CheckOnly.rfl' d

theorem ashlarSpan_check (d : Device) (r : Req) (w : Bool) (a n : Nat) (l : List Nat) : CheckOnly d (ashlarSpan d r w a n l).1 := by
  induction l generalizing d with
  | nil => exact CheckOnly.rfl' d
  | cons b rest ih =>
    unfold ashlarSpan
    dsimp only
    split
    · next e he =>
      have h1 := ashlarCheck_check d r b w (max a (0x080000000000 + b * 0x400000))
        (min (a + n) (0x080000400000 + b * 0x400000) - max a (0x080000000000 + b * 0x400000))
      rw [he] at h1
      have h2 := h1.trans (ih e)
      split
      · next f hf => rw [hf] at h2; exact h2
      · next f res _ hf => rw [hf] at h2; exact h2.trans ⟨⟨rfl, rfl⟩, rfl⟩
    · exact ashlarCheck_check d r b w _ _

theorem absCheck_check (d : Device) (r : Req) (x : Bool) : CheckOnly d (absCheck d r x).1 := by
  unfold absCheck
  split
  · exact CheckOnly.rfl' d
  · split
    · exact CheckOnly.rfl' d
    · exact ashlarViolation_check d _ _

theorem memAdmit_check (d : Device) (r : Req) (x w : Bool) (a n : Nat) (r1 r2 : Region) : CheckOnly d (memAdmit d r x w a n r1 r2).1 := by
  unfold memAdmit
  split <;> try split
  · exact dramCheck_check d r w a n
  · exact CheckOnly.rfl' d
  · exact ashlarSpan_check d r w a n _
  · exact CheckOnly.rfl' d
  · exact absCheck_check d r x
  · exact CheckOnly.rfl' d
  · exact CheckOnly.rfl' d
  · exact CheckOnly.rfl' d
  · exact CheckOnly.rfl' d
  · exact CheckOnly.rfl' d

/-- Checking an access changes marks and logs of memory and raises events; it leaves every byte and everything else. -/
theorem memCheck_check (d : Device) (r : Req) (x w : Bool) (a n : Nat) : CheckOnly d (memCheck d r x w a n).1 :=
  memAdmit_check d r x w a n _ _

/-- Counting bytes changes the performance counters alone. -/
theorem perfBytes_perf (d : Device) (port : Nat) (w : Bool) (n : Nat) : ∃ p, perfBytes d port w n = withPerf d p := by
  have h1 : ∃ p, (if bitOf (reg d 0x500018 1000) 31 = true then
      if w = true then ({ d with perf := { d.perf with wr := tmod 0 port (· + n) d.perf.wr } } : Device)
      else { d with perf := { d.perf with rd := tmod 0 port (· + n) d.perf.rd } }
    else d) = withPerf d p := by
    split
    · split
      · exact ⟨_, rfl⟩
      · exact ⟨_, rfl⟩
    · exact ⟨d.perf, rfl⟩
  obtain ⟨p1, h1⟩ := h1
  unfold perfBytes
  dsimp only
  rw [h1]
  obtain ⟨p2, h2⟩ := perfEvent_perf (withPerf d p1) 6 (if w = true then 1 else 0) port n false 0 0
  rw [h2]
  split
  · exact ⟨p2, rfl⟩
  · obtain ⟨p3, h3⟩ := perfEvent_perf (withPerf (withPerf d p1) p2) 6 2 port 1 false 0 0
    rw [h3]
    exact ⟨p3, rfl⟩

theorem perfBytes_check (d : Device) (port : Nat) (w : Bool) (n : Nat) : CheckOnly d (perfBytes d port w n) := by
  obtain ⟨p, h⟩ := perfBytes_perf d port w n
  rw [h]
  exact ⟨⟨rfl, rfl⟩, rfl⟩

theorem withCells_access (d : Device) (c : List Host.Cell) : AccessOnly d (withCells d c) := ⟨rfl, rfl⟩

/-- A read leaves every byte, and returns the bytes there when it is performed. -/
theorem memRead_check (d : Device) (r : Req) (x : Bool) (a n : Nat) : CheckOnly d (memRead d r x a n).1 := by
  have h := memCheck_check d r x false a n
  unfold memRead
  rcases hm : memCheck d r x false a n with ⟨e, res⟩
  rw [hm] at h
  by_cases hk : res = .ok
  · simp only [hk, if_true]
    exact h.trans (perfBytes_check _ _ _ _)
  · simp only [hk, if_false]
    exact h

/-- A read that is performed returns the bytes there; nothing but counters changes. -/
theorem memRead_ok {d e : Device} {r : Req} {x : Bool} {a n : Nat} {bs : List Byte} (h : memRead d r x a n = (e, .ok, bs)) :
    bs = bytesAt d a n ∧ ∃ p, e = withPerf d p := by
  have hd := memCheck_read_ok d r x a n
  unfold memRead at h
  rcases hm : memCheck d r x false a n with ⟨c, res⟩
  rw [hm] at h hd
  by_cases hk : res = .ok
  · have hc : c = d := hd hk
    subst hc
    obtain ⟨p, hp⟩ := perfBytes_perf c r.id false n
    simp only [hk, if_true, Prod.mk.injEq, true_and] at h
    exact ⟨h.2.symm, p, h.1 ▸ hp⟩
  · simp only [hk, if_false, Prod.mk.injEq] at h
    exact absurd h.2.1 id

/-- A write changes memory, counters and events, and nothing else. -/
theorem memWrite_access (d : Device) (r : Req) (x : Bool) (a : Nat) (bs : List Byte) : AccessOnly d (memWrite d r x a bs).1 := by
  have h := memCheck_check d r x true a bs.length
  unfold memWrite
  rcases hm : memCheck d r x true a bs.length with ⟨e, res⟩
  rw [hm] at h
  by_cases hk : res = .ok
  · simp only [hk, if_true]
    exact h.1.trans ((perfBytes_check _ _ _ _).1.trans (withCells_access _ _))
  · simp only [hk, if_false]
    exact h.1

/-- A write that is performed writes its bytes; one that is not leaves every byte. -/
theorem memWrite_cells (d : Device) (r : Req) (x : Bool) (a : Nat) (bs : List Byte) : (memWrite d r x a bs).1.mem.cells =
    if (memWrite d r x a bs).2 = .ok then setCells a bs d.mem.cells else d.mem.cells := by
  have h := memCheck_check d r x true a bs.length
  unfold memWrite
  rcases hm : memCheck d r x true a bs.length with ⟨e, res⟩
  rw [hm] at h
  by_cases hk : res = .ok
  · simp only [hk, if_true]
    show setCells a bs e.mem.cells = _
    rw [h.2]
  · simp only [hk, if_false]
    exact h.2

/-- A unit's read. -/
theorem unitRead_check (d : Device) (req a n : Nat) : CheckOnly d (unitRead d req a n).1 := by
  have h := memRead_check d (reqOf req) false a n
  unfold unitRead
  rcases hm : memRead d (reqOf req) false a n with ⟨e, res, b⟩
  rw [hm] at h
  cases res <;> exact h

/-- A unit's write. -/
theorem unitWrite_access (d : Device) (req a : Nat) (bs : List Byte) : AccessOnly d (unitWrite d req a bs).1 := by
  have h := memWrite_access d (reqOf req) false a bs
  unfold unitWrite
  rcases hm : memWrite d (reqOf req) false a bs with ⟨e, res⟩
  rw [hm] at h
  cases res <;> exact h

/-- A unit's write, byte by byte. -/
theorem unitWrite_cells (d : Device) (req a : Nat) (bs : List Byte) : (unitWrite d req a bs).1.mem.cells =
    if (unitWrite d req a bs).2 = true then setCells a bs d.mem.cells else d.mem.cells := by
  have h := memWrite_cells d (reqOf req) false a bs
  unfold unitWrite
  rcases hm : memWrite d (reqOf req) false a bs with ⟨e, res⟩
  rw [hm] at h
  cases res
  · simpa using h
  · simpa using h
  · simpa using h

/-- A unit's read of a buffer. -/
theorem bufRead_check (d : Device) (req h off n : Nat) : CheckOnly d (bufRead d req h off n).1 := by
  unfold bufRead
  dsimp only
  split
  · exact unitRead_check _ _ _ _
  · exact CheckOnly.rfl' d

/-- A unit's write of a buffer. -/
theorem bufWrite_access (d : Device) (req h off : Nat) (bs : List Byte) : AccessOnly d (bufWrite d req h off bs).1 := by
  unfold bufWrite
  dsimp only
  split
  · exact unitWrite_access _ _ _ _
  · exact AccessOnly.rfl' d

/-- A unit's write of a buffer, byte by byte. -/
theorem bufWrite_cells (d : Device) (req h off : Nat) (bs : List Byte) : (bufWrite d req h off bs).1.mem.cells =
    if (bufWrite d req h off bs).2 = true then setCells (bufBase d (handleIdx h) + off) bs d.mem.cells else d.mem.cells := by
  unfold bufWrite
  dsimp only
  split
  · exact unitWrite_cells _ _ _ _
  · simp

end Sys2Proof.Machine
end

