-- ==== Sys2Proof/Tests/Slice0.lean ====
section
/-! SUPPORT. Tests of the model: commands that WellFormed refuses, words of the spec that decode to their instructions, results of single
commands, and for the hypotheses of each statement a state and operands that meet them. -/

namespace Sys2Proof.Tests
open Sys2Proof Sys2Proof.Machine
set_option Elab.async false

/-- Reset with another device. -/
def on (f : Device → Device) : State := { State.reset with dev := f State.reset.dev }

/-- A command answers a next state of which p holds. -/
def runs (i : Instr) (s : State) (p : State → Bool) : Bool :=
  match exec i s with
  | .next t => p t
  | _ => false

/-- A segment with every right over the first MiB of Ashlar bank n. -/
def seg (n : Nat) : SegDesc := { lo := BitVec.ofNat 64 (0x801F080000000000 + n * 0x400000), hi := 0xFFFFF }

/-- Context 0 READY with registers h, segment 0 on bank 24, which reset gives to its core, and its PC at the segment's first word. -/
def holt (h : Table Word) : State :=
  on fun d => setCtx d 0 { HoltCtx.reset with st := .ready, h := h, segs := [(0, seg 24)], prioMax := 3 }

/-- An operand field set in register form. -/
def rr (hd ha hb mod : Nat) : HoltWord :=
  { imm := false, hd := BitVec.ofNat 5 hd, ha := BitVec.ofNat 5 ha, hb := BitVec.ofNat 5 hb, mod := BitVec.ofNat 4 mod, imm37 := 0 }

/-- An operand field set in immediate form. -/
def ri (hd ha mod : Nat) (v : Int) : HoltWord :=
  { imm := true, hd := BitVec.ofNat 5 hd, ha := BitVec.ofNat 5 ha, hb := 0, mod := BitVec.ofNat 4 mod, imm37 := BitVec.ofInt 37 v }

/-- Context 0 after a command. -/
def regIs (n : Nat) (v : Word) (t : State) : Bool := hreg t.dev 0 n == v

/-- A controller with both I/O queue pairs and one namespace. -/
def nv0 : NvmeFound := { twoPairs := true, mdts := 0, spaces := [(1, 1000000)] }

/-- The head of a 64 × 64 HEVC picture in one CTU, 4:2:0 at depth 8. -/
def dh0 : DecHead :=
  { profile := 0, level := 30, tools := [], chroma := 1, depth := 8, width := 64, height := 64, units := [], delimiter := true, ctu := 64
    tileCols := [1], tileRows := [1], slices := [(0, [], 10)], rowWise := false, order := 0, type := 0, existing := none, refs := [], keep := []
    refresh := [], isRef := false, shown := true, reorder := 0, latency := 0, flushBefore := false, flush := false, packed := none, hash := none
    grain := false, packets := 0, bytes := 10 }

/-- One CTU without an error. -/
def ct0 : CtuData := { error := false, refs := [], mvx := 0, mvy := 0, samples := [] }

/-- Signatures that a check finds good, or bad. -/
def sig (b : Bool) : SigOk := { ec := b, ml := b }

/-- What the checks of an IMPORT find, all good or all bad. -/
def imp (b : Bool) : ImportOk := { record := sig b, wrapped := sig b, kek := b }

/-- Context 0 as in `holt`, changed. -/
def holtX (f : HoltCtx → HoltCtx) : State :=
  on fun d => setCtx d 0 (f { HoltCtx.reset with st := .ready, segs := [(0, seg 24)], prioMax := 3 })

/-- Device memory of 64 MiB, and pool 0 of 8 buffers of 64 KiB from 0x10000, buffer i at (i + 1) × 0x10000; buffer 0 owned by an owner. -/
def yardOf (owner : Nat) (d : Device) : Device :=
  let d := setReg (setReg (setReg d 0x4010004 0 64) 0x600100 (12 * 2 ^ 25) (2 ^ 31 + 16 * 2 ^ 25 + 8)) 0x600104 0 16
  setBuf { d with yard := { d.yard with en := true } } 0 { Buf.reset with st := .owned, owner := owner, gen := 1, epoch := 1 }

/-- The handle of buffer 0 in `yardOf`. -/
def handle0 : Nat := 0x100000

/-- Ring n of 16 entries with a producer, a consumer and entries, all of them in its store or its head register. -/
def ringOn (n p c : Nat) (es : List Entry) (d : Device) : Device :=
  setRing d n { Ring.reset with producer := p, consumer := c, en := true, entries := es, head := min 8 es.length, wr := es.length, wr2 := es.length }

/-- An entry whose bytes are all b. -/
def ent (b : Byte) : Entry := { data := List.replicate 32 b, sop := true, eop := true }

/-- The device with bytes written at an address. -/
def poke (a : Nat) (bs : List Byte) (d : Device) : Device := withCells d (setCells a bs d.mem.cells)

/-- Context 0 in `holt` with a wait record. -/
def waiting (r : WaitRec) (d : Device) : Device :=
  setCtx d 0 { HoltCtx.reset with st := .waiting, segs := [(0, seg 24)], wait := some r }

/-- A record of n bytes whose named fields, as offset, size and value, are set and whose other bytes are 0. -/
def record (n : Nat) : List (Nat × Nat × Nat) → List Byte
  | [] => List.replicate n 0
  | (o, k, v) :: r => let l := record n r; l.take o ++ leBytes k v ++ l.drop (o + k)

/-- Ticket 9's work order of a kind in a phase, of context 0 and function 0, with ring 5 for its records. -/
def work (k : WoKind) (ph : WoPhase) (fields : List (Nat × Nat × Nat)) : WorkOrder :=
  { ticket := 9, kind := k, ctx := 0, func := 0, raw := record 256 ([(0, 1, kindCode k), (1, 1, 1), (4, 2, 5)] ++ fields), phase := ph, seq := 0
    effPrio := 0, unit := 0, low := 0, surfIn := [], surfOut := [], extra := [], holds := [], abort := none, counted := false, result := [], flags := 0
    progress := 0 }

/-- A device with a work order, its open ticket, and its ring. -/
def busy (w : WorkOrder) (d : Device) : Device :=
  { ringOn 5 0xC000 0 [] d with wos := [w], tickets := [(0, { value := 9, ctx := 0, ended := false, status := 0 })] }

/-- The records that units owe, as ticket, final and status. -/
def owed (t : State) : List (Nat × Bool × Nat) := t.dev.recs.map (fun q => (q.ticket, q.final, fieldAt q.data 4 1))

/-! WellFormed: for each check a command that it refuses. -/

theorem test_ill_1 : ([.add 512 (rr 0 0 0 0), .sub 512 (rr 0 0 0 0), .and 512 (rr 0 0 0 0), .or 512 (rr 0 0 0 0),
   .xor 512 (rr 0 0 0 0), .shl 512 (rr 0 0 0 0), .shr 512 (rr 0 0 0 0), .sar 512 (rr 0 0 0 0),
   .mul 512 (rr 0 0 0 0), .mulh 512 (rr 0 0 0 0), .min 512 (rr 0 0 0 0), .max 512 (rr 0 0 0 0),
   .cmp 512 (rr 0 0 0 0), .sel 512 (rr 0 0 0 0), .mov 512 (rr 0 0 0 0), .mov 0 (ri 0 0 0 0),
   .movi 512 (ri 0 0 0 0), .movi 0 (rr 0 0 0 0), .movhi 512 (ri 0 0 0 0), .movhi 0 (rr 0 0 0 0),
   .b 512 (rr 0 0 0 0), .bcond 512 (rr 0 0 0 0), .call 512 (rr 0 0 0 0), .ret 512 (rr 0 0 0 0),
   .ret 0 (ri 0 0 0 0), .switch 512 (rr 0 0 0 0), .ld 512 (rr 0 0 0 0), .st 512 (rr 0 0 0 0),
   .ldseg 512 (rr 0 0 0 0), .aadd 512 (rr 0 0 0 0), .aswap 512 (rr 0 0 0 0), .acas 512 (rr 0 0 0 0),
   .push 512 (rr 0 0 0 0), .pop 512 (rr 0 0 0 0), .popComplete 512, .popnb 512 (rr 0 0 0 0),
   .peek 512 (rr 0 0 0 0), .rlen 512 (rr 0 0 0 0), .balloc 512 (rr 0 0 0 0), .bfree 512 (rr 0 0 0 0)] : List Instr).all (fun i => !i.wf) = true := by decide +kernel

theorem test_ill_2 : ([.bfree 0 (ri 0 0 0 0), .bxfer 512 (rr 0 0 0 0), .bstat 512 (rr 0 0 0 0), .bstat 0 (ri 0 0 0 0),
   .waitt 512 (rr 0 0 0 0), .waittComplete 512, .waitd 512 (rr 0 0 0 0), .waitdComplete 512,
   .fence 512 (rr 0 0 0 0), .fence 0 (ri 0 0 0 0), .evt 512 (ri 0 0 0 0), .evt 0 (rr 0 0 0 0),
   .tkwait 512 (rr 0 0 0 0), .tkwait 0 (rr 0 0 0 1), .tkwaitComplete 512, .tkpoll 512 (rr 0 0 0 1),
   .tkpoll 0 (rr 0 0 0 0), .enc 512 (rr 0 0 0 0), .encr 512 (rr 0 0 0 0), .dec 512 (rr 0 0 0 0),
   .vfy 512 (rr 0 0 0 0), .ana 512 (rr 0 0 0 0), .pix 512 (rr 0 0 0 0), .comp 512 (rr 0 0 0 0),
   .dma 512 (rr 0 0 0 0), .seal 512 (rr 0 0 0 0), .magw 512 (rr 0 0 0 0), .nettx 512 (rr 0 0 0 0),
   .ingest 512 (rr 0 0 0 0), .keyop 512 (rr 0 0 0 0), .dispatchStallIssue 512, .mbxsend 512 (rr 0 0 0 0),
   .mbxrecv 512 (rr 0 0 0 0), .dbell 512 (rr 0 0 0 0), .irq 512 (rr 0 0 0 0), .yield 512 (rr 0 0 0 0),
   .yield 0 (ri 0 0 0 0), .halt 512 (rr 0 0 0 0), .halt 0 (ri 0 0 0 0), .csrr 512 (rr 0 0 0 0)] : List Instr).all (fun i => !i.wf) = true := by decide +kernel

theorem test_ill_3 : ([.csrw 512 (rr 0 0 0 0), .illegalInstruction 512 0x9B00000000000000, .illegalInstruction 0 0x9A00000000000000, .threadRecordWrite 512,
   .mtLoad (.host 16) 0, .mtLoad (.host 0) 512, .loadComplete 512 (sig false), .mtStart (.host 16) 0,
   .mtStart (.host 0) 512, .mtStop (.host 16) 0, .mtStop (.host 0) 512, .mtResume (.host 16) 0,
   .mtResume (.host 0) 512, .mtUnload (.host 16) 0, .mtUnload (.host 0) 512, .woAccept 0xFFFFF000,
   .completionRecordWrite 0xFFFFF000, .deadlineExpire 0xFFFFF000, .woCancel (.host 16) 0, .woCancel (.host 0) 0xFFFFF000,
   .abortAtBoundary 0xFFFFF000 { n := 0, host := [] }, .encPictureStart 0xFFFFF000 () (), .encCu 0xFFFFF000 0 0, .encCu 0 256 0,
   .encPictureCoded 0xFFFFF000 (), .encRingPush 0xFFFFF000, .encrRowStart 0xFFFFF000 0, .encrRowStart 0 512,
   .verifyEnd 0xFFFFF000 [], .preempt 120 0, .preempt 0 0xFFFFF000, .suspendedResume 120,
   .engineProgStep 96 0 false, .engineProgStep 0 16 false, .ceParityFault 96 false 0 0, .ceParityFault 0 false 4096 0,
   .ceParityFault 0 true 1024 0, .ceParityFault 0 false 0 256, .anaStart 0xFFFFF000, .anaEnd 0xFFFFF000] : List Instr).all (fun i => !i.wf) = true := by decide +kernel

theorem test_ill_4 : ([.decPictureStart 0xFFFFF000 dh0, .decCtu 0xFFFFF000 0 ct0, .decPictureEnd 0xFFFFF000 () () (), .trussPatchGo (.host 16) 0 0,
   .trussPatchGo (.host 0) 12 0, .patchVerifyDone 12 (sig false), .patchApply 12, .pixStart 0xFFFFF000 0,
   .pixEnd 0xFFFFF000, .mortarFrameBoundary 6, .mortarLineCompose 6 0 false, .sdiFrameSend 4,
   .csiPortCfgWrite (.host 16) 0 0, .csiPortCfgWrite (.host 0) 8 0, .csiFrameStart 8 0 0 false, .csiFrameStart 0 16 0 false,
   .csiFrameStart 0 0 65536 false, .csiLine 8 0 0 0 [] false false false, .csiLine 0 16 0 0 [] false false false, .csiLine 0 0 64 0 [] false false false,
   .csiLine 0 0 0 65536 [] false false false, .csiLine 0 0 0 0 (List.replicate 65536 0) false false false, .csiMetaPacket 8 0 0 [] false false, .csiMetaPacket 0 16 0 [] false false,
   .csiMetaPacket 0 0 64 [] false false, .csiMetaPacket 0 0 0 (List.replicate 65536 0) false false, .csiFrameEnd 8 0 false, .csiFrameEnd 0 16 false,
   .frameTimeout 0xFFFFF000, .trigPulse 4, .magLinkUp 2 0 0 [], .magLinkUp 0 2 0 [],
   .magLinkUp 0 0 8 [], .magLinkUp 0 0 0 (List.replicate 17 nv0), .magLinkDown 2 0 none, .magLinkDown 0 2 none,
   .magLinkDown 0 0 (some 16), .magCfgWrite (.host 16) 0, .magwOpen 0xFFFFF000, .magwWrite 0xFFFFF000] : List Instr).all (fun i => !i.wf) = true := by decide +kernel

theorem test_ill_5 : ([.magwClose 0xFFFFF000, .magRecordComplete 16 0 0, .magRecordComplete 0 0 65536, .sealRecordSign 16 false,
   .magEmergSwTrig (.host 16), .emergencyCloseDone [16], .sdiCfgWrite (.host 16) 0 0, .sdiCfgWrite (.host 0) 4 0,
   .dmcAccess 48 0 false [] 4, .dmcAccess 0 (2 ^ 48) false [] 4, .dmcAccess 0 0 false [] 0, .dmcAccess 0 0 false [] 4097,
   .dmcAccess 0 0 true [] 4, .dmcAccess 0 0 true (List.replicate 4097 0) 4, .dmcSchedule 32 .none, .dmcPowerDown 32,
   .refreshDue 32 0, .refreshDue 0 32, .mr4Poll 32 0, .mr4Poll 0 256,
   .scrubRead 16 .none, .retrainCheck 32 false false, .retrainRetry 32 false, .dmcLogPop (.host 16) 0,
   .dmcLogPop (.host 0) 16, .memRegionWrite 64 0 0, .memRegionWrite 0 (2 ^ 32) 0, .memRegionWrite 0 0 (2 ^ 32),
   .ashlarAccess 48 0 0 (.load 4) .none, .ashlarAccess 0 0 (2 ^ 48) (.load 4) .none, .ashlarOwnerWrite (.host 16) 0 0, .ashlarOwnerWrite (.host 0) 32 0,
   .ashlarDrainDone 32, .ashlarWipeDone 32, .absWipeDone (some 0x200000), .yardCtrlEn (.host 16),
   .yardAlloc (.host 16), .yardFree (.host 16) 0, .yardXfer (.host 16) 0, .yardLowWaterWrite (.host 16) 0 0] : List Instr).all (fun i => !i.wf) = true := by decide +kernel

theorem test_ill_6 : ([.yardLowWaterWrite (.host 0) 16 0, .hostBar2Access 16 0 4 none, .hostBar2Access 0 0 0 none, .hostBar2Access 0 0 4097 none,
   .hostBar2Access 0 4094 4 none, .hostBar2Access 0 0 4 (some []), .ringEnable (.host 16) 0 0, .ringEnable (.host 0) 8192 0,
   .ringDisable (.host 16) 0 0, .ringDisable (.host 0) 8192 0, .ringReset (.host 16) 0 0, .ringReset (.host 0) 8192 0,
   .ringRefill 8192, .hostPushSopEop 16 0 (List.replicate 32 0), .hostPushSopEop 0 8192 (List.replicate 32 0), .hostPushSopEop 0 0 [],
   .hostPushSop 16 0 (List.replicate 32 0), .hostPushSop 0 8192 (List.replicate 32 0), .hostPushSop 0 0 [], .hostPushMid 16 0 (List.replicate 32 0),
   .hostPushMid 0 8192 (List.replicate 32 0), .hostPushMid 0 0 [], .hostPushEop 16 0 (List.replicate 32 0), .hostPushEop 0 8192 (List.replicate 32 0),
   .hostPushEop 0 0 [], .hostPop 16 0 32, .hostPop 0 8192 32, .hostPop 0 0 0,
   .hostPopTimeout 8192, .hostRingStatusRead 16 0, .hostRingStatusRead 0 8192, .dmaDescFetch 64,
   .dmaDescComplete 64 [], .dmaDbell (.host 16) 0, .dmaDbell (.host 0) 64, .swFrameRx 4 [] false,
   .pfcRepeat 6 0, .pfcRepeat 0 8, .pfcRx 6 0 (List.replicate 8 0), .pfcRx 0 256 (List.replicate 8 0)] : List Instr).all (fun i => !i.wf) = true := by decide +kernel

theorem test_ill_7 : ([.pfcRx 0 0 [], .egressFrameStart 6, .swLinkDown 4, .holdExpire 6,
   .swLinkUp 4, .ethPortCfgWrite (.host 16) 0 0, .ethPortCfgWrite (.host 0) 4 0, .ethTimeStep (.host 16) 0,
   .ethTimeRate (.host 16) 0, .topTimeReadLo (.host 16), .rxDeliver 8, .nettxPacket 0xFFFFF000,
   .ethIpCfgWrite (.host 16) 0 0, .ethIpCfgWrite (.host 0) 2 0, .ethQhwmRead (.host 16) 0 0, .ethQhwmRead (.host 0) 6 0,
   .ethQhwmRead (.host 0) 0 8, .gateChange (.host 16) 0 0, .gateChange (.host 0) 6 0, .gateListStart 6,
   .gateEntryAdvance 6, .bondSyncRx 2 [], .bondSchedGo (.host 16) 0, .bondSchedRx 2 [],
   .bondMsgRx 2 [], .proxyRetransmit 8, .bondStreamRx 2 [], .bondLinkDown 2,
   .msixTimerExpire 16 0, .msixTimerExpire 0 128, .d3hotEntry 16, .d0Entry 16,
   .flrInitiate 16, .flrComplete 16, .ideTlpFail 5, .getCertificate [] 256 0 0,
   .getCertificate [] 0 65536 0, .getCertificate [] 0 0 65536, .challenge [] 256, .getMeasurements [] 256 false] : List Instr).all (fun i => !i.wf) = true := by decide +kernel

theorem test_ill_8 : ([.keyExchange [] 256, .qpRead 4096, .qpDoorbellWrite 4096 0 false, .qpTriggerWrite 4096 0 false,
   .intcEvent 1024, .intcClaim (.host 16) 0, .intcClaim (.host 0) 10, .intcClaim (.host 0) 32,
   .intcComplete (.host 16) 0 0, .intcComplete (.host 0) 10 0, .intcComplete (.host 0) 32 0, .intcPendSet (.host 16) 0 0,
   .intcPendSet (.host 0) 32 0, .intcPendClr (.host 16) 0 0, .intcPendClr (.host 0) 32 0, .intcEnSet (.host 16) 0 0,
   .intcEnSet (.host 0) 32 0, .intcEnClr (.host 16) 0 0, .intcEnClr (.host 0) 32 0, .mbxSendWrite (.host 16) 0 0,
   .mbxSendWrite (.host 0) 64 0, .mbxRecvRead (.host 16) 0, .mbxRecvRead (.host 0) 64, .mbxDbSet (.host 16) 0 0,
   .mbxDbSet (.host 0) 64 0, .mbxDbClr (.host 16) 0 0, .mbxDbClr (.host 0) 64 0, .mbxCrossTimeout 32,
   .mbxCrossClear (.host 16) 0, .clipNew 0xFFFFF000, .wrap 0xFFFFF000, .enrol 0xFFFFF000 (sig false),
   .destroy 0xFFFFF000, .keyImport 0xFFFFF000 (imp false), .region 0xFFFFF000, .sign 0xFFFFF000,
   .openRecord 0xFFFFF000, .ksArbCommit (.host 16) 0 false, .ksArbCommit (.host 0) 4 false, .tamperEvent 7] : List Instr).all (fun i => !i.wf) = true := by decide +kernel

theorem test_ill_9 : ([.lcRequestGo (.host 16) (sig false), .plumbEvent 512 0, .plumbEvent 0 (2 ^ 64), .plumbRecClose (.host 16) 0,
   .plumbRecClose (.host 0) 64, .plumbSrcClear (.host 16) 0, .plumbSrcClear (.host 0) 512, .wdogKick (.host 16) 0,
   .crpResetCtrlWarm (.host 16) 0, .pwrReqActive (.host 16), .pwrReqStandby (.host 16), .pwrReqSleep (.host 16),
   .sdiPllUpdate 4, .perfFreeze (.host 16) false, .perfClear (.host 16), .registerWrite (.host 16) 0 4 0,
   .registerWrite (.host 0) (2 ^ 28) 4 0, .registerWrite (.host 0) 0 2 0, .csiHsSync 8 false, .magwCloseFlushDone 16 0,
   .magwCloseFlushDone 0 65536, .pfcPauseExpire 6 0, .pfcPauseExpire 0 8, .woLastPfFlrRead (.host 16),
   .keyUpdate [] 256 0, .keyUpdate [] 0 256, .fabricTimeout 48, .sleepWake 3,
   .doeDiscovery 256, .ideKm 256 0 0, .ideKm 0 256 0] : List Instr).all (fun i => !i.wf) = true := by decide +kernel

/-! Holt. The words and their fields are those of the worked example of 02_holt_instruction_set.md. -/

theorem test_words :
    holtDecode 0 0x5320C0000000000C = .pop 0 (ri 4 3 0 12) ∧ holtDecode 0 0x0D68C00000000008 = .shr 0 (ri 13 3 0 8) ∧
    holtDecode 0 0x236800200000000B = .bcond 0 (ri 13 0 1 11) ∧ holtDecode 0 0x05420000000000FF = .and 0 (ri 8 8 0 255) ∧
    holtDecode 0 0x2902000000000007 = .switch 0 (ri 0 8 0 7) ∧ holtDecode 0 0x334AC04000000000 = .st 0 (ri 9 11 2 0) ∧
    holtDecode 0 0x8362800000000000 = .magw 0 (ri 12 10 0 0) ∧ holtDecode 0 0x2100001FFFFFFFF4 = .b 0 (ri 0 0 0 (-12)) ∧
    holtDecode 0 0x9700000000000005 = .irq 0 (ri 0 0 0 5) ∧ holtDecode 0 0x9A00000000000000 = .halt 0 (rr 0 0 0 0) := by decide +kernel
theorem test_word_unassigned : holtDecode 3 0x9B00000000000000 = .illegalInstruction 3 0x9B00000000000000 := by decide +kernel
theorem test_encode : holtEncode (.switch 0 (ri 0 8 0 7)) = some 0x2902000000000007 := by decide +kernel

theorem test_can_issue : canIssue (holt []) 0 = true ∧ formOk (rr 3 1 2 0) = true ∧ formOk (ri 3 1 0 5) = true := by decide +kernel
theorem test_add : runs (.add 0 (rr 3 1 2 0)) (holt [(1, 0xFFFFFFFFFFFFFFFF), (2, 2)]) (regIs 3 1) = true := by decide +kernel
theorem test_h0 : runs (.add 0 (ri 0 1 0 5)) (holt [(1, 1)]) (regIs 0 0) = true := by decide +kernel
theorem test_sub : runs (.sub 0 (ri 3 1 0 (-1))) (holt [(1, 0xFFFFFFFFFFFFFFFF)]) (regIs 3 0) = true := by decide +kernel
theorem test_shl : runs (.shl 0 (ri 3 1 0 64)) (holt [(1, 7)]) (regIs 3 7) = true := by decide +kernel
theorem test_shr : runs (.shr 0 (ri 3 1 0 63)) (holt [(1, 0x8000000000000000)]) (regIs 3 1) = true := by decide +kernel
theorem test_sar : runs (.sar 0 (ri 3 1 0 65)) (holt [(1, 0x8000000000000000)]) (regIs 3 0xC000000000000000) = true := by decide +kernel
theorem test_mul : runs (.mul 0 (rr 1 1 1 0)) (holt [(1, 0x100000001)]) (regIs 1 0x200000001) = true := by decide +kernel
theorem test_mulh : runs (.mulh 0 (rr 3 1 1 0)) (holt [(1, 0xFFFFFFFFFFFFFFFF)]) (regIs 3 0) = true := by decide +kernel
theorem test_mulhu : runs (.mulh 0 (rr 3 1 1 1)) (holt [(1, 0xFFFFFFFFFFFFFFFF)]) (regIs 3 0xFFFFFFFFFFFFFFFE) = true := by decide +kernel
theorem test_min : runs (.min 0 (ri 3 1 0 (-1))) (holt [(1, 1)]) (regIs 3 0xFFFFFFFFFFFFFFFF) = true := by decide +kernel
theorem test_minu : runs (.min 0 (ri 3 1 1 (-1))) (holt [(1, 1)]) (regIs 3 1) = true := by decide +kernel
theorem test_max : runs (.max 0 (ri 3 1 0 (-1))) (holt [(1, 1)]) (regIs 3 1) = true := by decide +kernel
theorem test_cmp_lt : runs (.cmp 0 (ri 3 1 2 1)) (holt [(1, 0xFFFFFFFFFFFFFFFF)]) (regIs 3 1) = true := by decide +kernel
theorem test_cmp_ltu : runs (.cmp 0 (ri 3 1 4 1)) (holt [(1, 0xFFFFFFFFFFFFFFFF), (3, 9)]) (regIs 3 0) = true := by decide +kernel
theorem test_sel : runs (.sel 0 (rr 3 1 2 0)) (holt [(2, 7), (3, 9)]) (regIs 3 9) = true := by decide +kernel
theorem test_sel_ne : runs (.sel 0 (rr 3 1 2 1)) (holt [(2, 7), (3, 9)]) (regIs 3 7) = true := by decide +kernel
theorem test_movhi : runs (.movhi 0 (ri 3 0 0 1)) (holt [(3, 0xFFFFFFFFFFFFFFFF)]) (regIs 3 0xFFFFFFF) = true := by decide +kernel
theorem test_movi : runs (.movi 0 (ri 3 0 0 (-2))) (holt []) (regIs 3 0xFFFFFFFFFFFFFFFE) = true := by decide +kernel

theorem test_b_back : runs (.b 0 (ri 0 0 0 (-12))) (holtX fun x => { x with pc := 0x60 }) (fun t => (ctxAt t.dev 0).pc == 0) = true := by
  decide +kernel
theorem test_b_misaligned : runs (.b 0 (rr 0 0 1 0)) (holt [(1, 12)]) (fun t => t.dev.threadRecs.map (fun r => (r.cause, r.detail, r.operand)) == [(3, 0, 12)])
    = true := by decide +kernel
theorem test_bne : runs (.bcond 0 (ri 13 0 1 11)) (holtX fun x => { x with pc := 0x10, h := [(13, 1)] }) (fun t => (ctxAt t.dev 0).pc == 0x68)
    = true := by decide +kernel
theorem test_call : runs (.call 0 (ri 5 0 0 2)) (holt []) (fun t => (ctxAt t.dev 0).pc == 16 && hreg t.dev 0 5 == 8) = true := by decide +kernel
theorem test_ret : runs (.ret 0 (rr 0 5 0 0)) (holt [(5, 0x20)]) (fun t => (ctxAt t.dev 0).pc == 0x20) = true := by decide +kernel

/-- The table of the worked example at 0x078, in the state that issues the SWITCH at 0x040. -/
def switchAt (i : Word) : State :=
  { holtX fun x => { x with pc := 0x40, h := [(8, i)] } with
    dev := poke 0x080006000078 (leBytes 4 2 ++ leBytes 4 5 ++ leBytes 4 1 ++ leBytes 4 1) (holtX fun x => { x with pc := 0x40, h := [(8, i)] }).dev }
theorem test_switch_readable : readable (issued (switchAt 1).dev 0) 0 0x78 8 .fetch = some (leBytes 4 2 ++ leBytes 4 5) ∧
    readable (readBy (issued (switchAt 1).dev 0) 0 8) 0 0x84 4 .fetch = some (leBytes 4 1) := by decide +kernel
theorem test_switch : runs (.switch 0 (ri 0 8 0 7)) (switchAt 1) (fun t => (ctxAt t.dev 0).pc == 0x48) = true := by decide +kernel
theorem test_switch_default : runs (.switch 0 (ri 0 8 0 7)) (switchAt 2) (fun t => (ctxAt t.dev 0).pc == 0x68) = true := by decide +kernel

/-- Bytes 80 to 87 of the segment hold 0xF0 … 0xF7. -/
def memHolt (h : Table Word) : State := { holt h with dev := poke 0x080006000080 [0xF0, 0xF1, 0xF2, 0xF3, 0xF4, 0xF5, 0xF6, 0xF7] (holt h).dev }
theorem test_ld_readable : readable (issued (memHolt [(1, 0x80)]).dev 0) 0 0x80 1 .load = some [0xF0] := by decide +kernel
theorem test_ld8s : runs (.ld 0 (ri 3 1 4 0)) (memHolt [(1, 0x80)]) (regIs 3 0xFFFFFFFFFFFFFFF0) = true := by decide +kernel
theorem test_ld16 : runs (.ld 0 (ri 3 1 1 2)) (memHolt [(1, 0x80)]) (regIs 3 0xF3F2) = true := by decide +kernel
theorem test_st32 : runs (.st 0 (ri 9 11 2 0)) (memHolt [(9, 0x1122334455667788), (11, 0x80)])
    (fun t => bytesAt t.dev 0x080006000080 5 == [0x88, 0x77, 0x66, 0x55, 0xF4]) = true := by decide +kernel

/-- Segment 1 of context 0 is a DRAM-class segment over the control range. -/
def ctlHolt (h : Table Word) : State :=
  holtX fun x => { x with h := h, segs := [(0, seg 24), (1, { lo := 0x80030F0000000000, hi := 0xFFFFFFF })] }
theorem test_ld_ctl : admitted (issued (ctlHolt []).dev 0) 0 0x1000000000000008 8 .load = some 0x0F0000000008 ∧
    isCtl 0x0F0000000008 = true := by decide +kernel
theorem test_st_ctl : admitted (issued (ctlHolt []).dev 0) 0 0x1000000000400004 4 .store = some 0x0F0000400004 := by decide +kernel
theorem test_st_memory : admitted (issued (memHolt [(11, 0x80)]).dev 0) 0 0x80 4 .store = some 0x080006000080 ∧ isCtl 0x080006000080 = false := by
  decide +kernel

/-- A valid empty-rights descriptor and one whose class is reserved, in memory. -/
def segHolt (lo : Nat) : State := { holt [(1, 0x100)] with dev := poke 0x080006000100 (leBytes 8 lo ++ leBytes 8 0xFFF) (holt [(1, 0x100)]).dev }
theorem test_ldseg : runs (.ldseg 0 (ri 0 1 5 0)) (segHolt 0x8011080006000000) (fun t => segSlot (ctxAt t.dev 0) 5 ==
    { lo := 0x8011080006000000, hi := 0xFFF }) = true ∧ descOk (segHolt 0).dev false { lo := 0x8011080006000000, hi := 0xFFF } = true := by decide +kernel
theorem test_ldseg_refused : runs (.ldseg 0 (ri 0 1 5 0)) (segHolt 0x8031080006000000) (fun t => t.dev.threadRecs.map (fun r => (r.cause, r.detail)) ==
    [(2, 4)]) = true ∧ descOk (segHolt 0).dev false { lo := 0x8031080006000000, hi := 0xFFF } = false := by decide +kernel
theorem test_atomic : admitted (issued (memHolt [(1, 0x80)]).dev 0) 0 0x80 8 .atomic = some 0x080006000080 ∧
    0x080006000080 % 8 = 0 ∧ isCtl 0x080006000080 = false := by decide +kernel
theorem test_aadd : runs (.aadd 0 (ri 3 1 2 1)) (memHolt [(1, 0x80)])
    (fun t => hreg t.dev 0 3 == 0xF3F2F1F0 && bytesAt t.dev 0x080006000080 5 == [0xF1, 0xF1, 0xF2, 0xF3, 0xF4]) = true := by decide +kernel
theorem test_acas : runs (.acas 0 (ri 3 1 2 1)) (memHolt [(1, 0x80), (3, 0xF3F2F1F0)])
    (fun t => hreg t.dev 0 3 == 0xF3F2F1F0 && bytesAt t.dev 0x080006000080 5 == [1, 0, 0, 0, 0xF4]) = true := by decide +kernel
theorem test_aswap : runs (.aswap 0 (ri 3 1 3 1)) (memHolt [(1, 0x80)]) (fun t => hreg t.dev 0 3 == 0xF7F6F5F4F3F2F1F0) = true := by decide +kernel

/-- Cause and detail of the record that a command leaves. -/
def traps (i : Instr) (s : State) (cause detail : Nat) : Bool := runs i s (fun t => t.dev.threadRecs.map (fun r => (r.cause, r.detail)) == [(cause, detail)])
theorem test_trap_address : traps (.ld 0 (ri 3 1 3 0)) (holt [(1, 0x0800000000000000)]) 2 3 = true := by decide +kernel
theorem test_trap_align : traps (.ld 0 (ri 3 1 3 0)) (holt [(1, 4)]) 3 0 = true := by decide +kernel
theorem test_trap_slot : traps (.ld 0 (ri 3 1 3 0)) (holt [(1, 0x1000000000000000)]) 2 2 = true := by decide +kernel
theorem test_trap_class : traps (.aadd 0 (ri 3 1 3 0)) (ctlHolt [(1, 0x1000000000000000)]) 4 0 = true := by decide +kernel
theorem test_trap_limit : traps (.ld 0 (ri 3 1 3 0)) (holt [(1, 0x100000)]) 2 0 = true ∧
    traps (.ld 0 (ri 3 1 3 0)) (holt [(1, 0xFFFF8)]) 2 0 = false := by decide +kernel
theorem test_trap_illegal : traps (.illegalInstruction 0 0x9B00000000000000) (holt []) 1 0 = true ∧ traps (.add 0 (rr 1 1 1 1)) (holt []) 1 1 = true ∧
    traps (.b 0 (rr 1 0 1 0)) (holt []) 1 2 = true := by decide +kernel
/-! Holt: rings, waits, buffers, dispatch, mailboxes, CSRs. -/

/-- Context 0 READY with registers, over another device. -/
def holtOver (h : Table Word) (f : Device → Device) : State := { holt h with dev := f (holt h).dev }

theorem test_push : runs (.push 0 (ri 4 3 3 12)) (holtOver [(4, 0x11)] (ringOn 12 0 0x8000 [])) (fun t =>
    hreg t.dev 0 3 == 7 && (ringAt t.dev 12).entries == [{ data := leBytes 8 0x11 ++ leBytes 24 0, sop := true, eop := true }]) = true := by decide +kernel
theorem test_push_shut : (ringAt (holtOver [] (ringOn 12 0 0x8003 [])).dev 12).sound = true ∧
    funcOn (holtOver [] (ringOn 12 0 0x8003 [])).dev 3 = false ∧
    runs (.push 0 (ri 4 3 0 12)) (holtOver [] (ringOn 12 0 0x8003 [])) (regIs 3 8) = true := by decide +kernel
theorem test_push_full : runs (.push 0 (ri 4 3 0 12)) (holtOver [] (ringOn 12 0 1 (List.replicate 16 (ent 1)))) (regIs 3 8) = true := by decide +kernel
theorem test_push_notice : runs (.push 0 (ri 4 3 0 12)) (holtOver [] fun d => setRing (ringOn 12 0 1 [] d) 12
    { ringAt (ringOn 12 0 1 [] d) 12 with noticeP := true }) (regIs 3 0x4400) = true := by decide +kernel
theorem test_pop : (ringAt (holtOver [] (ringOn 12 0xC000 0 [ent 1, ent 2])).dev 12).front = some (ent 1) ∧
    runs (.pop 0 (ri 4 3 0 12)) (holtOver [] (ringOn 12 0xC000 0 [ent 1, ent 2])) (fun t => hreg t.dev 0 3 == 7 &&
      hreg t.dev 0 7 == 0x0101010101010101 && (ringAt t.dev 12).entries == [ent 2]) = true := by decide +kernel
theorem test_pop_waits : runs (.pop 0 (ri 4 3 0 12)) (holtOver [] (ringOn 12 0xC000 0 [])) (fun t => (ctxAt t.dev 0).wait == some (.pop 12 4 3)) = true := by
  decide +kernel
theorem test_pop_notice : runs (.popnb 0 (ri 4 3 0 12)) (holtOver [] fun d => setRing (ringOn 12 0xC000 0 [] d) 12
    { ringAt (ringOn 12 0xC000 0 [] d) 12 with noticeC := true }) (regIs 3 0x4400) = true := by decide +kernel
theorem test_popnb_empty : runs (.popnb 0 (ri 4 3 0 12)) (holtOver [(3, 9)] (ringOn 12 0xC000 0 [])) (regIs 3 0) = true := by decide +kernel
theorem test_peek : runs (.peek 0 (ri 4 3 0 12)) (holtOver [] (ringOn 12 0xC000 0 [ent 1])) (fun t => hreg t.dev 0 3 == 7 &&
    (ringAt t.dev 12).entries == [ent 1]) = true := by decide +kernel
theorem test_rlen : runs (.rlen 0 (ri 3 0 0 12)) (holtOver [] (ringOn 12 0xC000 0 [ent 1, ent 2])) (regIs 3 2) = true := by decide +kernel
theorem test_ring_faults : traps (.push 0 (ri 4 3 0 8192)) (holt []) 5 0 = true ∧ traps (.push 0 (ri 4 3 0 8191)) (holt []) 5 1 = true ∧
    traps (.rlen 0 (ri 4 0 0 8191)) (holt []) 5 2 = true := by decide +kernel

/-- A command lets the waiting context go on. -/
def freed (i : Instr) (s : State) (n : Nat) (v : Word) : Bool := runs i s (fun t => (ctxAt t.dev 0).st == .ready && hreg t.dev 0 n == v)
theorem test_pop_complete : freed (.popComplete 0) (on fun d => waiting (.pop 12 4 3) (ringOn 12 0xC000 0 [ent 1] d)) 3 7 = true := by decide +kernel
theorem test_pop_reset : freed (.popComplete 0) (on (waiting (.popReset 3))) 3 0x4400 = true := by decide +kernel
theorem test_waitt_complete : freed (.waittComplete 0) (on fun d => waiting (.waitt 5 3) { d with time := 5 }) 3 5 = true ∧
    freed (.waittComplete 0) (on fun d => waiting (.waitt 6 3) { d with time := 5 }) 3 5 = false := by decide +kernel
theorem test_waitd_complete : freed (.waitdComplete 0) (on fun d => waiting (.waitd 5 6 3) (setMbox d 5 { mboxAt d 5 with db := 3 })) 3 2 = true := by
  decide +kernel
theorem test_tkwait_complete : freed (.tkwaitComplete 0) (on fun d => waiting (.tkwait 9 3)
    { d with tickets := [(0, { value := 9, ctx := 0, ended := true, status := 0x61 })] }) 3 0x161 = true := by decide +kernel
theorem test_waitt : runs (.waitt 0 (ri 3 0 1 0)) (holt []) (regIs 3 0) = true ∧
    runs (.waitt 0 (ri 3 0 1 10)) (holt []) (fun t => (ctxAt t.dev 0).wait == some (.waitt 10 3)) = true := by decide +kernel
theorem test_waitd : runs (.waitd 0 (ri 3 1 0 1)) (holt [(1, 31)]) (fun t => (ctxAt t.dev 0).st == .waiting) = true ∧
    isProxy (holt []).dev 31 = false := by decide +kernel
theorem test_tkpoll : runs (.tkpoll 0 (ri 3 0 1 9)) (holt []) (regIs 3 0x200) = true ∧ runs (.tkwait 0 (ri 3 0 0 9)) (holt []) (regIs 3 0x200) = true := by
  decide +kernel

theorem test_balloc : pickBuf (holtOver [] (yardOf 0)).dev 1 = some 1 ∧
    runs (.balloc 0 (ri 3 4 0 1)) (holtOver [] (yardOf 0)) (regIs 3 0x100001) = true := by decide +kernel
theorem test_balloc_none : pickBuf (holtOver [] (yardOf 0)).dev 0x10001 = none ∧
    runs (.balloc 0 (ri 3 4 0 0x10001)) (holtOver [] (yardOf 0)) (regIs 4 0x40) = true := by decide +kernel
theorem test_bfree : runs (.bfree 0 (rr 0 4 1 0)) (holtOver [(1, 0x100000)] (yardOf 0)) (fun t => regIs 4 0 t && (bufAt t.dev 0).st == .free) = true ∧
    runs (.bfree 0 (rr 0 4 1 0)) (holtOver [(1, 0x100000)] (yardOf 1)) (regIs 4 0x42) = true ∧
    runs (.bfree 0 (rr 0 4 1 0)) (holtOver [(1, 0x200000)] (yardOf 1)) (regIs 4 0x43) = true ∧
    runs (.bfree 0 (rr 0 4 1 0)) (holtOver [(1, 0x100000)] fun d => setBuf (yardOf 0 d) 0 { bufAt (yardOf 0 d) 0 with st := .held }) (regIs 4 0x41) = true := by
  decide +kernel
theorem test_bxfer : runs (.bxfer 0 (ri 1 4 0 511)) (holtOver [(1, 0x100000)] (yardOf 0)) (fun t => regIs 4 0 t && (bufAt t.dev 0).owner == 511) = true ∧
    runs (.bxfer 0 (ri 1 4 0 0x8000)) (holtOver [(1, 0x100000)] (yardOf 1)) (regIs 4 0x42) = true := by decide +kernel
theorem test_bstat : runs (.bstat 0 (rr 3 4 1 0)) (holtOver [(1, 0x100000)] (yardOf 7)) (regIs 3 (0x10000000000 + 0x400000000 + 0x70000 + 1)) = true := by
  decide +kernel

/-- Context 0 with a work order of zeros but for its ring, 5, at address 0 of the segment, and that ring. -/
def sender (h : Table Word) (tickets : Table Ticket) : State :=
  holtOver h fun d => { ringOn 5 0xC000 0 [] (poke 0x080006000200 (leBytes 4 0 ++ leBytes 2 5) d) with tickets := tickets }
theorem test_dispatch : (readable (issued (sender [(1, 0x200)] []).dev 0) 0 0x200 256 .load).isSome = true ∧
    compRingFault (sender [] []).dev 0 5 = none ∧ tkUsed (sender [] []).dev 0 = 0 ∧
    runs (.magw 0 (ri 12 1 0 0)) (sender [(1, 0x200)] []) (fun t => t.dev.wos.map (fun w => (w.kind, w.ctx)) == [(.magw, 0)]) = true := by decide +kernel
theorem test_dispatch_limit : tkCount (sender [] ((upto 0 64).map fun k => (k, { value := k, ctx := 0, ended := false, status := 0 }))).dev 0 = 64 ∧
    traps (.pix 0 (ri 12 1 0 0)) (sender [(1, 0x200)] ((upto 0 64).map fun k => (k, { value := k, ctx := 0, ended := false, status := 0 }))) 6 0 = true := by
  decide +kernel
theorem test_dispatch_stall : 
    let s := sender [(1, 0x200)] ((upto 0 128).map fun k => (k, { value := k, ctx := 1, ended := false, status := 0 }))
    tkUsed s.dev 0 = 128 ∧ runs (.dma 0 (ri 12 1 0 0)) s (fun t => (ctxAt t.dev 0).st == .waiting) = true := by decide +kernel
theorem test_dispatch_sealed : traps (.seal 0 (ri 12 1 0 0)) (sender [(1, 0x200)] []) 7 0 = true := by decide +kernel
theorem test_dispatch_later :
    let s := { sender [] [] with dev := setCtx (sender [] []).dev 0 { ctxAt (sender [] []).dev 0 with st := .waiting, wait := some (.dispatch .dma 12 0x200 0) } }
    runs (.dispatchStallIssue 0) s (fun t => t.dev.wos.map (·.kind) == [.dma] && (ctxAt t.dev 0).st == .ready) = true := by decide +kernel

theorem test_mbxsend : runs (.mbxsend 0 (ri 1 3 0 31)) (holt [(1, 0x99)]) (fun t => regIs 3 1 t && (mboxAt t.dev 31).word == 0x99) = true ∧
    runs (.mbxsend 0 (ri 1 3 0 7)) (holtOver [] fun d => setMbox d 7 { mboxAt d 7 with full := true }) (regIs 3 8) = true := by decide +kernel
theorem test_mbxrecv : runs (.mbxrecv 0 (ri 2 3 0 7)) (holtOver [] fun d => setMbox d 7 { mboxAt d 7 with full := true, word := 0x99 })
    (fun t => regIs 2 0x99 t && !(mboxAt t.dev 7).full) = true ∧ runs (.mbxrecv 0 (ri 2 3 0 7)) (holt [(3, 4)]) (regIs 3 0) = true := by decide +kernel
theorem test_dbell : runs (.dbell 0 (ri 1 0 0 7)) (holt [(1, 6)]) (fun t => (mboxAt t.dev 7).db == 6) = true := by decide +kernel
theorem test_irq : runs (.irq 0 (ri 0 0 0 63)) (holt []) (fun t => t.dev.intc.latch.contains 63) = true ∧ traps (.irq 0 (ri 0 0 0 64)) (holt []) 1 3 = true := by
  decide +kernel
theorem test_halt : runs (.halt 0 (rr 0 0 0 0)) (holt []) (fun t => (ctxAt t.dev 0).st == .stopped && t.dev.threadRecs.length == 1) = true := by decide +kernel
theorem test_fence : runs (.fence 0 (rr 0 0 0 0)) (holt []) (fun t => (ctxAt t.dev 0).pc == 8) = true ∧
    runs (.yield 0 (rr 0 0 0 0)) (holt []) (fun t => (ctxAt t.dev 0).pc == 8) = true ∧
    runs (.evt 0 (ri 0 0 0 15)) (holt []) (fun t => (ctxAt t.dev 0).pc == 8) = true := by decide +kernel

theorem test_csrr : runs (.csrr 0 (ri 3 0 0 1)) (holtX fun x => { x with func := 2, isSealed := true }) (regIs 3 0x80020000) = true ∧
    runs (.csrr 0 (ri 3 0 0 0x11F)) (holtX fun x => { x with segHi := [(15, 7)], segFresh := [15] }) (regIs 3 7) = true ∧
    runs (.csrr 0 (ri 3 0 0 0x103)) (holtX fun x => { x with segs := [(0, seg 24), (1, seg 24)], segHi := [(1, 7)] }) (regIs 3 0xFFFFF) = true ∧ perfUserEn (holt []).dev = false := by decide +kernel
theorem test_csrr_perf : runs (.csrr 0 (ri 3 0 0 0x3FF)) (holtOver [] fun d => setReg d 0x500000 0 0x80000000) (regIs 3 0) = true ∧
    perfUserEn (holtOver [] fun d => setReg d 0x500000 0 0x80000000).dev = true ∧ traps (.csrr 0 (ri 3 0 0 0x3FF)) (holt []) 7 2 = true ∧
    traps (.csrr 0 (ri 3 0 0 0x400)) (holt []) 1 3 = true := by decide +kernel
theorem test_csrw : runs (.csrw 0 (ri 0 1 0 2)) (holt [(1, 3)]) (fun t => (ctxAt t.dev 0).prio == 3) = true ∧
    traps (.csrw 0 (ri 0 1 0 2)) (holt [(1, 4)]) 7 1 = true ∧ runs (.csrw 0 (ri 0 1 0 5)) (holt [(1, 127)]) (fun t => (ctxAt t.dev 0).tkLimit == 127) = true ∧
    traps (.csrw 0 (ri 0 1 0 5)) (holt [(1, 128)]) 1 3 = true ∧ traps (.csrw 0 (ri 0 1 0 0x120)) (holt []) 1 3 = true := by decide +kernel
theorem test_csrw_segment : runs (.csrw 0 (ri 0 1 0 0x103)) (holt [(1, 0xFFF)]) (fun t => tget 0 1 (ctxAt t.dev 0).segHi == 0xFFF) = true ∧
    traps (.csrw 0 (ri 0 1 0 0x100)) (holt [(1, 0x8031080006000000)]) 2 4 = true := by decide +kernel
/-! Threads, work orders and their ends. -/

theorem test_trap_taken : traps (.illegalInstruction 0 0x9B00000000000000) (holt []) 1 0 = true := by decide +kernel

/-- Context 0 in a state of R55. -/
def inState (st : TState) (f : Device → Device) : State := on fun d => setCtx (f d) 0 { HoltCtx.reset with st := st }
theorem test_mt_grant : ctlGrant State.reset.dev (.host 0) 0x3001008 4 true = true ∧
    ctlGrant State.reset.dev (.host 0) (0x3001008 + 511 / 64 * 0x100000 + 511 % 64 * 0x40) 4 true = true := by decide +kernel
theorem test_mt_load : handleStatus (yardOf 0x8000 State.reset.dev) 0x8000 handle0 = 0 ∧
    runs (.mtLoad (.host 0) 0) (inState .empty fun d => setReg (yardOf 0x8000 d) 0x3001004 0 handle0) (fun t =>
      (ctxAt t.dev 0).st == .loading && (bufAt t.dev 0).holds == 1) = true := by decide +kernel
theorem test_mt_load_refused : runs (.mtLoad (.host 0) 0) (inState .empty (yardOf 0x8000)) (fun t =>
    (ctxAt t.dev 0).st == .empty && (ctxAt t.dev 0).loadStatus == 0x43) = true := by decide +kernel
theorem test_mt_start : runs (.mtStart (.host 0) 0) (on fun d => setCtx d 0 { HoltCtx.reset with st := .loaded, image := some { handle := handle0, entry := 0x40, segs := [(0, seg 24)] } })
    (fun t => (ctxAt t.dev 0).st == .ready && (ctxAt t.dev 0).pc == 0x40) = true := by decide +kernel
theorem test_mt_wrong : runs (.mtStart (.host 0) 0) (inState .ready id) (fun t => (ctxAt t.dev 0).cmdErr) = true ∧
    runs (.mtResume (.host 0) 0) (inState .stopped id) (fun t => (ctxAt t.dev 0).st == .ready) = true ∧
    runs (.mtStop (.host 0) 0) (inState .waiting id) (fun t => (ctxAt t.dev 0).st == .stopped) = true := by decide +kernel
theorem test_mt_unload : runs (.mtUnload (.host 0) 0) (inState .stopped id) (fun t => (ctxAt t.dev 0).st == .empty) = true ∧
    runs (.mtUnload (.host 0) 0) (inState .stopped fun d => { d with tickets := [(0, { value := 9, ctx := 0, ended := false, status := 0 })] })
      (fun t => (ctxAt t.dev 0).st == .draining) = true := by decide +kernel

/-- An unsigned image of 256 bytes with ENTRY 0x10…08 in one relocated segment, number 1, and a signer. -/
def image (signer : Nat) : List Byte :=
  record 256 [(0, 4, 0x544C4F48), (4, 2, 1), (8, 4, 256), (16, 8, 0x1000000000000008), (24, 1, 1), (25, 1, 7), (26, 2, 5), (28, 1, 127), (29, 1, signer),
    (30, 1, 1), (32, 4, 64), (64, 8, 0x8005000000000000), (72, 8, 0xFF), (80, 1, 1), (81, 1, 1)]
/-- Context 0 LOADING bytes from buffer 0. -/
def loading (b : List Byte) : State :=
  on fun d => setCtx (poke 0x10000 b (yardOf 0x8000 d)) 0 { HoltCtx.reset with st := .loading, load := some { handle := handle0 } }
theorem test_load_reads : (bufRead (loading (image 0)).dev 24 handle0 0 64).2 = some ((image 0).take 64) ∧
    (bufRead (loading (image 0)).dev 24 handle0 64 24).2 = some (((image 0).drop 64).take 24) ∧
    (bufRead (loading (image 0)).dev 24 handle0 0 256).2 = some (image 0) := by decide +kernel
theorem test_load_ok : imageHeaderOk ((image 0).take 64) 65536 = true ∧
    imageTableOk (loading []).dev ((image 0).take 64) 0x10000 [((image 0).drop 64).take 24] = true ∧
    runs (.loadComplete 0 (sig false)) (loading (image 0)) (fun t => (ctxAt t.dev 0).st == .loaded && (ctxAt t.dev 0).prioMax == 7 &&
      (segSlot (ctxAt t.dev 0) 1).base == 0x10000) = true := by decide +kernel
theorem test_load_lost : runs (.yardFree (.host 0) handle0) (loading (image 0)) (fun t => (ctxAt t.dev 0).loadStatus == 0x42 &&
    (ctxAt t.dev 0).st == .empty) = true := by decide +kernel
/-- An image of a signer at version v, before its signature block. -/
def signed (signer v : Nat) : List Byte := (image signer).take 12 ++ leBytes 4 v ++ (image signer).drop 16
theorem test_load_signed : runs (.loadComplete 0 (sig true)) (loading (signed 1 0)) (fun t => (ctxAt t.dev 0).st == .loaded) = true ∧
    runs (.loadComplete 0 (sig false)) (loading (signed 1 0)) (fun t => (ctxAt t.dev 0).loadStatus == 0x70) = true ∧
    runs (.loadComplete 0 (sig true)) (loading (signed 2 0)) (fun t => (ctxAt t.dev 0).loadStatus == 0x71) = true := by decide +kernel
theorem test_loaders : loadersOf (loading []).dev 0 = [0] ∧ loadersOf (on (yardOf 0x8000)).dev 0 = [] := by decide +kernel
theorem test_load_header : imageHeaderOk ((image 3).take 64) 65536 = false ∧ imageHeaderOk ((image 1).take 64) 65536 = true := by decide +kernel
theorem test_load_error : (bufRead { (loading []).dev with mem := { (loading []).dev.mem with badBlocks := [0x10000] } } 24 handle0 0 64).2 = none := by
  decide +kernel
theorem test_load_signer : keySigner State.reset.fuses 1 = true ∧ keySigner State.reset.fuses 2 = false := by decide +kernel

theorem test_unload_keeps : shownOf (on (yardOf 0)).dev 0 0 = false := by decide +kernel
/-- A thread record of context 0 for ring 5. -/
def threadRec : ThreadRec := { ctx := 0, func := 0, ring := 5, status := 0x22, time := 77, operand := 0, pc := 0x1000000000000040, cause := 2, detail := 2 }
theorem test_thread_record : runs (.threadRecordWrite 0) (on fun d => { ringOn 5 0xC000 0 [] d with threadRecs := [threadRec] }) (fun t =>
    t.dev.threadRecs == [] && (ringAt t.dev 5).entries.map (fun e => (fieldAt e.data 0 4, fieldAt e.data 24 6)) == [(0xFFFFF000, 0x10000000040)]) = true := by
  decide +kernel
theorem test_thread_record_waits : runs (.threadRecordWrite 0) (on fun d => { d with threadRecs := [threadRec] }) (fun t => t.dev.threadRecs.length == 1) = true := by
  decide +kernel

/-- A CLOSE of clip 0 as it is dispatched. -/
def close0 : WorkOrder := work .magw .dispatched [(64, 1, 3)]
theorem test_accept : let r := readAll (busy close0 State.reset.dev) close0
    acceptStatus r.1 { r.2 with unit := placeUnit r.1 r.2 } = 0 ∧
    runs (.woAccept 9) (on (busy close0)) (fun t => (woAt t.dev 9).map (·.phase) == some .queued) = true := by decide +kernel
theorem test_accept_refused : let w := work .magw .dispatched [(64, 1, 4)]
    let r := readAll (busy w State.reset.dev) w
    acceptStatus r.1 { r.2 with unit := placeUnit r.1 r.2 } = 0x31 ∧ funcBusy State.reset.dev 0 = false ∧
    runs (.woAccept 9) (on (busy w)) (fun t => owed t == [(9, true, 0x31)]) = true := by decide +kernel
theorem test_accept_handles : let w := work .magw .dispatched [(64, 1, 2), (66, 1, 1), (67, 1, 1), (112, 4, 0x200000)]
    handlesStatus State.reset.dev 0 (allHandles w) = 0x43 ∧ acceptStatus State.reset.dev w = 0x43 := by decide +kernel
theorem test_accept_context : acceptStatus State.reset.dev (work .magw .dispatched [(64, 1, 3), (16, 2, 1)]) = 0x42 := by decide +kernel

theorem test_cancel_grant : ctlGrant State.reset.dev (.host 0) 0x204 4 true = true ∧ isHeld (busy close0 State.reset.dev) 9 = false ∧
    woNoCancel close0 = false := by decide +kernel
theorem test_cancel_miss : runs (.woCancel (.host 0) 10) (on (busy close0)) (fun t => t.dev.cancelMiss == 1) = true := by decide +kernel
theorem test_cancel : runs (.woCancel (.host 0) 9) (on (busy close0)) (fun t => owed t == [(9, true, 0x10)] && t.dev.cancelDone == 1) = true := by decide +kernel
theorem test_cancel_running : runs (.woCancel (.host 0) 9) (on (busy { close0 with phase := .running })) (fun t =>
    (woAt t.dev 9).map (·.abort) == some (some .cancel)) = true := by decide +kernel
theorem test_deadline : runs (.deadlineExpire 9) (on fun d => { busy (work .magw .queued [(64, 1, 3), (3, 1, 1), (8, 8, 5)]) d with time := 5 }) (fun t =>
    owed t == [(9, true, 0x12)]) = true := by decide +kernel
theorem test_deadline_running : let w := work .magw .running [(64, 1, 3), (3, 1, 2), (8, 8, 5)]
    runs (.deadlineExpire 9) (on fun d => { busy w d with time := 5 }) (fun t => (woAt t.dev 9).map (·.abort) == some (some .deadline)) = true := by decide +kernel
theorem test_abort : runs (.abortAtBoundary 9 { n := 0, host := [] }) (on (busy { work .nettx .running [] with abort := some .function })) (fun t => owed t == [(9, true, 0x11)]) = true := by
  decide +kernel
theorem test_stream_waits : streamWaits (busy close0 State.reset.dev) close0 = false ∧
    let w := work .enc .dispatched [(32, 4, 0x100003)]
    streamWaits (on fun d => { busy w d with wos := [{ w with ticket := 8 }, w] }).dev w = true := by decide +kernel
theorem test_record : runs (.completionRecordWrite 9) (on fun d => { busy close0 d with time := 0x1234, recs := [{ ticket := 9, ring := 5, func := 0, data := record 32 [(0, 4, 9), (4, 1, 0x10)], final := true }] })
    (fun t => (ringAt t.dev 5).entries.map (fun e => (fieldAt e.data 0 4, fieldAt e.data 4 1, fieldAt e.data 8 8)) == [(9, 0x10, 0x1234)] && woAt t.dev 9 == none) = true := by
  decide +kernel
theorem test_last_flr : ctlGrant State.reset.dev (.host 0) 0x20C 4 false = true ∧
    runs (.woLastPfFlrRead (.host 0)) (on fun d => { d with pfLost := 255, pfCancelled := 3 }) (fun t => t.dev.pfLost == 0 &&
      t.dev.out.contains (.hostData 0 [3, 0, 0, 0xFF] false)) = true := by decide +kernel
/-! Encoding, engines, microcode, decoding, analysis and planes. -/

/-- A LINEAR surface of 16 × 16 samples of a format in buffer 1, its descriptor's other fields 0. -/
def surf (fmt : Nat) : List Byte := record 64 [(0, 4, 0x100001), (8, 4, 64), (12, 2, 16), (14, 2, 16), (16, 1, fmt)]

/-- An ENC or ENCR of one CTU in ring mode to ring 6, verified by engine 5, on engine 0. -/
def encWork (k : WoKind) (ph : WoPhase) : WorkOrder :=
  { work k ph [(21, 1, 1), (32, 4, 0x100003), (72, 1, 1), (73, 1, 1), (75, 1, 5), (76, 1, 1), (79, 1, 1), (82, 2, 6)] with surfIn := surf 0x01 }
/-- The stream whose next picture is that of ticket 9. -/
def encStream (busy : Option Nat) : EncStream :=
  { params := [], ended := false, keyNext := true, initNext := false, issued := 1, pos := 0
    pics := [{ ticket := 9, disp := 0, gop := (1, 0, false), ctrl := 0, endSeq := false, init := true, fixed := none, coded := false }], busy := busy, count := 3, debt := 0, full := 0
    fref := 0, memos := [], refs := [], order := [9], held := [] }
/-- What the header of an IDR picture signals. -/
def pic0 : PicSyntax :=
  { kind := .idr, type := 0, order := 0, pic := 0, refs := [], qp := 0, dependentRow := none, entryPoints := [], noEndUpdate := false
    regularFilter := false, highPrecision := false, deltaRes := 0, endSeq := false }
/-- A CU of the picture's CTU as an engine has decided it, of n bits. -/
def cu0 (n : Nat) : CuOut :=
  { cu := { blk := { x := 0, y := 0, w := 16, h := 16 }, parts := [], chroma := 0, amvr := 0, merge := none, lossless := false }, bits := n, err := 0, recoded := false, skip := false, sad := none, cost := 0, qp := 30
    entropy := 0, bytes := [7], recon := [genRows 16 16 (fun _ _ => 5)] }
/-- The run of ticket 9, its one tile with n CTUs done. -/
def encRun (n : Nat) (coded verify : Bool) : EncRun :=
  { ticket := 9, key := 0x100003, type := 0, pic := 3, disp := 0, lists := [], cus := [], recon := [genRows 16 16 (fun _ _ => 0)], head := pic0, opened := true, target := none, limit := none, start := 0, fieldUsed := false, fieldMiss := false, roi := []
    budgets := [], tiles := [(0, { TileRun.reset with started := true, ctu := n })], maxErr := 0, recoded := 0, fault := false, qpSum := 0, qpCount := 0
    classes := [], header := 0, suffix := 0, cursor := 0, part := [], open_ := false, units := 0, queue := [], pushed := 0, coded := coded
    verify := verify, bad := 0 }
/-- The encoder with a work order, its stream, runs, and engines 0 and 5 at work on ticket 9 or idle. -/
def encoder (w : WorkOrder) (b : Option Nat) (runs : List EncRun) (at_ : List Nat) : State :=
  on fun d => let d := ringOn 6 0xC000 0 [] (busy w d)
    { d with codec := { d.codec with encs := [(0x100003, encStream b)], runs := runs }
             engines := at_.map (fun u => (u, { cur := some 9, susp := [], hold := false })) }

/-- The run inside its CTU: one CU is committed, and those to come are decided. -/
def planned (l : List CuOut) : EncRun :=
  { encRun 0 false false with tiles := [(0, { TileRun.reset with started := true, acc := { CtuAcc.reset with cus := 1 }, plan := l })] }
theorem test_enc_ready : (encReady (encoder (encWork .enc .queued) none [] []).dev (encWork .enc .queued)).isSome = true ∧
    encReady (encoder (encWork .enc .queued) (some 8) [] []).dev (encWork .enc .queued) = none ∧
    encRunAt (encoder (encWork .enc .queued) none [] []).dev 9 = none := by decide +kernel
theorem test_enc_cu : tileOpen (encoder (encWork .enc .running) (some 9) [encRun 0 false false] [0]).dev (encWork .enc .running) (encRun 0 false false) 0 = true ∧
    runs (.encCu 9 0 0) (encoder (encWork .enc .running) (some 9) [planned [cu0 100, cu0 7]] [0]) (fun t =>
      (encRunAt t.dev 9).map (fun r => ((runTile r 0).acc.bits, (runTile r 0).plan.length)) == some (100, 1)) = true := by decide +kernel
theorem test_enc_ctu : let s := encoder (encWork .enc .running) (some 9) [planned [cu0 100]] [0]
    tileOpen s.dev (encWork .enc .running) (planned [cu0 100]) 0 = true ∧ encRing (encWork .enc .running) = true ∧
    ctuPlan s.dev (encWork .enc .running) (planned [cu0 100]) (runBudget (encWork .enc .running) (planned [cu0 100]) 0) 0 = [cu0 100] ∧
    breaksHard (encWork .enc .running) (planned [cu0 100]) (runBudget (encWork .enc .running) (planned [cu0 100]) 0) 0 100 = false := by decide +kernel
theorem test_enc_buffer :
    let w := { work .enc .running [(21, 1, 1), (32, 4, 0x100003), (72, 1, 1), (73, 1, 1)] with surfIn := surf 0x01 }
    let s := encoder w (some 9) [planned [cu0 100]] [0]
    tileOpen s.dev w (planned [cu0 100]) 0 = true ∧ encRing w = false ∧ ctuPlan s.dev w (planned [cu0 100]) (runBudget w (planned [cu0 100]) 0) 0 = [cu0 100] := by
  decide +kernel
theorem test_enc_coded : tileDone (encWork .enc .running) (encRun 1 false false) 0 = true ∧
    runs (.encPictureCoded 9 ()) (encoder (encWork .enc .running) (some 9) [encRun 1 false false] [0]) (fun t =>
      (encRunAt t.dev 9).map (·.coded) == some true) = true := by decide +kernel
theorem test_enc_push : runs (.encRingPush 9) (encoder (encWork .enc .running) (some 9) [{ encRun 0 false false with queue := [ent 7] }] [0]) (fun t =>
    (ringAt t.dev 6).entries == [ent 7]) = true := by decide +kernel
theorem test_encr_row : runs (.encrRowStart 9 0) (encoder (encWork .encr .running) (some 9) [{ encRun 0 false false with tiles := [] }] [0]) (fun t =>
    (encRunAt t.dev 9).map (fun r => (runTile r 0).started) == some true) = true := by decide +kernel
theorem test_verify : runs (.verifyEnd 9 []) (encoder (encWork .enc .running) none [encRun 1 true true] [5]) (fun t => owed t == [(9, true, 0x60)]) = true := by
  decide +kernel

/-- Queued work of priority p that is ticket 10's. -/
def rival (p : Nat) : WorkOrder := { encWork .encr .queued with ticket := 10, effPrio := p, seq := 1, raw := (work .dec .queued [(21, 1, 1), (32, 4, 0x100004)]).raw, kind := .dec }
/-- Engine 0 runs ticket 9 between two pictures' work, and ticket 10 waits. -/
def contested (p : Nat) : State := on fun d => { busy (encWork .enc .running) d with
  wos := [encWork .enc .running, rival p], engines := [(0, { cur := some 9, susp := [], hold := false })] }
theorem test_preempt : mayPreempt (contested 6).dev 0 0 10 = true ∧ atBoundary (contested 6).dev 0 9 = true ∧
    runs (.preempt 0 10) (contested 6) (fun t => engineAt t.dev 0 == { cur := some 10, susp := [9], hold := false }) = true := by decide +kernel
theorem test_preempt_low : runs (.preempt 0 10) (contested 5) (fun t => (engineAt t.dev 0).cur == some 9) = true := by decide +kernel
theorem test_prog_boundary : let s := encoder (encWork .enc .running) (some 9) [planned [cu0 7]] [0]
    atBoundary s.dev 0 9 = false ∧
    atBoundary { s.dev with codec := { s.dev.codec with progs := [(microKey 0 9, { addr := 5, routine := 1, steps := 3 })] } } 0 9 = true := by decide +kernel
theorem test_resume : runs (.suspendedResume 0) (on fun d => { busy (encWork .enc .running) d with engines := [(0, { cur := none, susp := [9], hold := false })] })
    (fun t => (engineAt t.dev 0).cur == some 9) = true := by decide +kernel
theorem test_prog_step : hasRoutine (encoder (encWork .enc .running) none [] [0]).dev (encWork .enc .running) 1 = true ∧
    (microOf (encoder (encWork .enc .running) none [] [0]).dev 0 9).routine = 0 := by decide +kernel
theorem test_parity : runs (.ceParityFault 0 true 0x3FF 3) (encoder (encWork .enc .running) none [] [0]) (fun t =>
    mchkAt t.dev 0 == { valid := true, nano := true, addr := 0x3FF, count := 1, lanes := 3 } && (engineAt t.dev 0).cur == none) = true := by decide +kernel

/-- A patch image of 64 bytes rounded to 256, without entries, in buffer 0, owned by the physical function. -/
def patchBytes : List Byte := record 256 [(0, 4, 0x44434D51), (4, 2, 1), (6, 2, 0x0101), (8, 4, 256), (12, 4, 3), (16, 2, 7), (18, 1, 1), (24, 4, 64), (28, 4, 64)]
theorem test_patch_grant : ctlGrant State.reset.dev (.host 0) 0x2000114 4 true = true ∧ ctlGrant State.reset.dev (.host 0) (0x2000114 + 11 * 0x100000) 4 true = true ∧
    isPf State.reset.dev (.host 0) = true := by decide +kernel
theorem test_patch_mask : runs (.trussPatchGo (.host 0) 11 0) (on (yardOf 0x8000)) (fun t => (patchAt t.dev 11).status == 0x31) = true ∧
    runs (.trussPatchGo (.host 0) 0 1) (on (yardOf 0x8000)) (fun t => (patchAt t.dev 0).status == 0x43) = true := by decide +kernel
theorem test_patch_ok : patchOk (patchBytes ++ List.replicate 3456 0) 65536 = true ∧ keyQueleivo State.reset.fuses = true := by decide +kernel
theorem test_patch_key : keyQueleivo { State.reset.fuses with lcA := 0xFFFF, lcB := 0x1 } = false := by decide +kernel
/-- A load of truss 0 whose image has been read. -/
def patching (ready : Bool) : State := on fun d => setPatch d 0 { Patch.reset with busy := true, ready := ready, mask := 1, image := patchBytes }
theorem test_patch_verify : runs (.patchVerifyDone 0 (sig true)) (patching false) (fun t => (patchAt t.dev 0).ready && (engineAt t.dev 0).hold && !(engineAt t.dev 1).hold) = true ∧
    runs (.patchVerifyDone 0 (sig false)) (patching false) (fun t => (patchAt t.dev 0).status == 0x70) = true := by decide +kernel
theorem test_patch_apply : runs (.patchApply 0) (patching true) (fun t => (tget Retained.reset 0 t.dev.codec.store).id == 7 &&
    (tget Retained.reset 1 t.dev.codec.store).id == 0 && t.dev.intc.latch.contains 80) = true := by decide +kernel

/-- A DEC of one 16 × 16 MONO16 picture into one slot, on engine 0. -/
def decWork (ph : WoPhase) : WorkOrder :=
  { work .dec ph [(21, 1, 1), (32, 4, 0x100003), (69, 1, 1), (70, 1, 1)] with extra := [(88, surf 0x01)] }
/-- Its head. -/
def decHead : DecHead := { dh0 with profile := 5, chroma := 0, depth := 16, width := 16, height := 16, ctu := 16 }
/-- The decoder at work on it. -/
def decRun : DecRun :=
  { ticket := 9, key := 0x100003, head := decHead, slot := 0, refs := [], bytes := 10, planes := [], ctus := [], stopped := false, error := false, maxErr := 0, firstBad := 0
    badTiles := [] }
/-- The decoder. -/
def decoder (ph : WoPhase) (runs : List DecRun) (at_ : List Nat) : State :=
  on fun d => let d := busy (decWork ph) d
    { d with codec := { d.codec with decRuns := runs }, engines := at_.map (fun u => (u, { cur := some 9, susp := [], hold := false })) }
theorem test_dec_ready : decReady (decoder .queued [] []).dev (decWork .queued) = true ∧ decRing (decWork .queued) = false ∧
    headOk (decWork .queued) decHead = true ∧ headOk (decWork .queued) dh0 = false ∧ pickSlotFor DecStream.reset [] (decWork .queued) = some 0 := by decide +kernel
theorem test_dec_start : runs (.decPictureStart 9 decHead) (decoder .queued [] []) (fun t => (decAt t.dev 9).map (·.slot) == some 0) = true := by decide +kernel
theorem test_dec_refused : runs (.decPictureStart 9 dh0) (decoder .queued [] []) (fun t => owed t == [(9, true, 0x31)]) = true := by decide +kernel
theorem test_dec_full : pickSlotFor { DecStream.reset with slots := [(0, { order := 0, ref := true, awaiting := false, shown := true, concealed := false, sub := false, flags := 0, aliases := [], late := 0, size := (16, 16) })] } []
    (decWork .queued) = none := by decide +kernel
theorem test_dec_ctu : decOpen decHead decRun 0 = true ∧ decOpen decHead decRun 1 = false ∧
    runs (.decCtu 9 0 ct0) (decoder .running [decRun] [0]) (fun t => (decAt t.dev 9).map (fun r => r.ctus.map (fun c => (c.1, c.2.map))) == some [(0, 0)]) = true := by
  decide +kernel
theorem test_dec_error : let w := { decWork .running with raw := record 256 [(0, 1, 2), (1, 1, 1), (4, 2, 5), (21, 1, 1), (32, 4, 0x100003), (66, 1, 1), (69, 1, 1), (70, 1, 1)] }
    woField w 66 1 = 1 ∧ runs (.decCtu 9 0 { ct0 with error := true }) { decoder .running [decRun] [0] with dev := { (decoder .running [decRun] [0]).dev with wos := [w] } }
      (fun t => (decAt t.dev 9).map (·.stopped) == some true) = true := by decide +kernel

theorem test_dec_conceal : runs (.decCtu 9 0 { ct0 with error := true }) (decoder .running [decRun] [0]) (fun t =>
    (decAt t.dev 9).map (fun r => (r.error, r.ctus.map (fun c => c.2.concealed))) == some (true, [true])) = true ∧ restOfSegment decHead 0 0 = true := by decide +kernel
theorem test_dec_unit : ((takeUnit (decoder .queued [] []).dev (decWork .queued) decHead).map (fun e => e.2.2)) = some 0 ∧
    headBroken 0 DecStream.reset decHead = false ∧ headBroken 0 DecStream.reset { decHead with ctu := 0 } = true ∧
    takeUnit (decoder .queued [] []).dev { decWork .queued with raw := record 256 [(0, 1, 2), (21, 1, 1), (32, 4, 0x100003), (65, 1, 1), (69, 1, 2), (70, 1, 1)] }
      { decHead with packets := 1 } = none := by decide +kernel
theorem test_dec_extent : let w := { decWork .queued with extra := [(76, leBytes 8 1), (77, leBytes 4 0x200000 ++ leBytes 4 0 ++ leBytes 4 5 ++ leBytes 4 0), (88, surf 0x01)] }
    ((takeUnit (decoder .queued [] []).dev w decHead).map (fun e => e.2.2)) = some 0x43 := by decide +kernel
/-- An AV1 DEC that only shows frame 3. -/
def showWork : WorkOrder := { decWork .queued with raw := record 256 [(0, 1, 2), (1, 1, 1), (4, 2, 5), (21, 1, 1), (32, 4, 0x100003), (64, 1, 2), (69, 1, 2), (70, 1, 0)] }
/-- What it finds in its headers. -/
def showHead : DecHead := { decHead with profile := 0x23, level := 31, depth := 12, ctu := 64, existing := some 3 }
/-- The decoder with that order and its AV1 frames. -/
def shower (f : Table AvFrame) : State :=
  on fun d => let d := busy showWork d
    { d with codec := { d.codec with decs := [(0x100003, { DecStream.reset with frames := f })] } }
theorem test_dec_show : decReady (shower []).dev showWork = true ∧ decCodec showWork = 2 ∧
    runs (.decPictureStart 9 { showHead with ctu := 0 }) (shower []) (fun t => owed t == [(9, true, 0x51)]) = true ∧
    runs (.decPictureStart 9 { showHead with ctu := 0 }) (shower [(3, { slot := some 1, order := 0, sub := true })]) (fun t => owed t == [(9, true, 0x50)]) = true ∧
    runs (.decPictureStart 9 { showHead with ctu := 0 }) (shower [(3, { slot := some 1, order := 0, sub := false })]) (fun t => owed t == [(9, true, 0)]) = true := by
  decide +kernel
theorem test_dec_unfinished : decUnfinished decRun = true ∧ decUnfinished { decRun with stopped := true } = false ∧
    runs (.decPictureEnd 9 () () ()) (decoder .running [decRun] [0]) (fun t => (decAt t.dev 9).isSome) = true := by decide +kernel
/-- The decoder with its one CTU decoded, 16 × 16 samples to write, and its slot in buffer 1. -/
def decFull : State :=
  let s := decoder .running [{ decRun with ctus := [(0, { concealed := false, mvx := 0, mvy := 0, map := 0 })], planes := [genRows 16 16 (fun x _ => x)] }] [0]
  { s with dev := setBuf (yardOf 0 s.dev) 1 { Buf.reset with st := .owned, gen := 1 } }
theorem test_dec_end : allEngines decFull.dev (decWork .running) = true ∧
    (decAt decFull.dev 9).map (fun r => (decStore decFull.dev (decWork .running) r 3 true).2) = some true ∧
    (decAt decFull.dev 9).map (fun r => (decStore (setReg decFull.dev 0x4010004 0 0) (decWork .running) r 3 true).2) = some false ∧
    runs (.decPictureEnd 9 () () ()) decFull (fun t => owed t == [(9, true, 0)]) = true := by decide +kernel

/-- An ANA of a 16 × 16 MONO16 surface, and its map of vectors in buffer 2. -/
def anaWork (ph : WoPhase) : WorkOrder :=
  { work .ana ph [(21, 1, 1), (28, 4, 0x100002), (64, 1, 1)] with surfIn := surf 0x01, unit := 135 }
/-- The analysis unit at work, the source in buffer 1. -/
def analyser (ph : WoPhase) (runs : List AnaRun) (at_ : List Nat) : State :=
  on fun d => let d := setBuf (setBuf (yardOf 0 (busy (anaWork ph) d)) 1 { Buf.reset with st := .owned, gen := 1 }) 2 { Buf.reset with st := .owned, gen := 1 }
    { d with codec := { d.codec with anaRuns := runs }, engines := at_.map (fun u => (u, { cur := some 9, susp := [], hold := false })) }
theorem test_ana_start : canStart (analyser .queued [] []).dev (anaWork .queued) = true ∧
    runs (.anaStart 9) (analyser .queued [] []) (fun t => t.dev.codec.anaRuns == [{ ticket := 9, asInit := true, forced := false }]) = true := by decide +kernel
theorem test_ana_read : let s := analyser .running [{ ticket := 9, asInit := true, forced := false }] [135]
    (anaRead s.dev (anaWork .running)).2 = true ∧ (bufWrite s.dev (anaReq (anaWork .running)) 0x100002 4096 (List.replicate 64 0)).2 = true ∧
    (anaRead { s.dev with mem := { s.dev.mem with badBlocks := [0x20000] } } (anaWork .running)).2 = false := by decide +kernel

/-- A PIX that copies a 16 × 16 MONO16 surface in buffer 1 to one in buffer 2. -/
def pixWork (ph : WoPhase) : WorkOrder :=
  { work .pix ph [(21, 1, 1)] with surfIn := surf 0x01, surfOut := record 64 [(0, 4, 0x100002), (8, 4, 64), (12, 2, 16), (14, 2, 16), (16, 1, 1)], unit := 96 }
/-- The pixel engine, idle or at work on it. -/
def planer (ph : WoPhase) (at_ : List Nat) : State :=
  on fun d => { yardOf 0 (busy (pixWork ph) d) with engines := at_.map (fun u => (u, { cur := some 9, susp := [], hold := false })) }
theorem test_pix_start : canStart (planer .queued []).dev (pixWork .queued) = true ∧
    runs (.pixStart 9 8) (planer .queued []) (fun t => (engineAt t.dev 96).cur == some 9) = true := by decide +kernel
theorem test_pix_rows : (pixAdvance (planer .running [96]).dev (pixWork .running) 8).2 = true ∧ badTiles (planer .running [96]).dev (surf 1) = 0 ∧
    (pixAdvance (planer .running [96]).dev (pixWork .running) 16).2 = true ∧
    (pixAdvance { (planer .running [96]).dev with mem := { (planer .running [96]).dev.mem with badBlocks := [0x20000] } } (pixWork .running) 16).2 = false := by
  decide +kernel
/-! Outputs, sensors, magazine. -/

/-- A frame program without layers. -/
def prog0 : FrameProg := { ticket := 9, ctx := 0, func := 0, head := record 128 [], layers := [], wbSurf := [], wbBuf := none, wbProg := none }
/-- SDI output n of 1,920 × 1,080 at 24 Hz in force. -/
def sdiOn (n : Nat) (f : MortarOut → MortarOut) : State :=
  on fun d => setOut (setReg (setSdi d n { SdiOut.reset with cfg := 0x91000000 }) (0xC00000 + 16 * n) 0 0x91000000) n (f MortarOut.reset)
theorem test_out_boundary : sdiEn (sdiReg (sdiOn 3 id).dev 3) = true ∧ sdiEn (sdiReg State.reset.dev 5) = false ∧
    runs (.mortarFrameBoundary 3) (sdiOn 3 fun o => { o with queue := [prog0], line := 7 }) (fun t => (outAt t.dev 3).prog == some prog0 &&
      (outAt t.dev 3).frames == 1 && (outAt t.dev 3).line == 0) = true := by decide +kernel
theorem test_out_resume : runs (.mortarFrameBoundary 3) (sdiOn 3 fun o => { o with resume := true, prev := [(prog0, [])] }) (fun t =>
      (outAt t.dev 3).prog == some prog0) = true ∧
    runs (.mortarFrameBoundary 5) (on fun d => setOut d 5 { MortarOut.reset with blank := true, prog := some prog0 }) (fun t => (outAt t.dev 5).prog == none) = true := by
  decide +kernel
theorem test_out_line : (rasterOf (sdiAt (sdiOn 3 id).dev 3).cfg).2 = 1080 ∧
    runs (.mortarLineCompose 3 0 false) (sdiOn 3 fun o => { o with line := 1079 }) (fun t => (outAt t.dev 3).line == 1080) = true ∧
    runs (.mortarLineCompose 3 0 false) (sdiOn 3 fun o => { o with line := 1080 }) (fun t => (outAt t.dev 3).line == 1080) = true := by decide +kernel
theorem test_sdi_frame : runs (.sdiFrameSend 3) (sdiOn 3 id) (fun t => (sdiAt t.dev 3).due == 41666666) = true ∧
    alignedNear (sdiOn 3 id).dev 3 1 41666666 = 41666666 := by decide +kernel
theorem test_sdi_phase : runs (.sdiFrameSend 0) (on fun d => setReg (setSdi d 0 { SdiOut.reset with cfg := 0x91000000 }) 0xC00004 0 10001) (fun t =>
    (sdiAt t.dev 0).realign == 1 && (sdiAt t.dev 0).err == 0) = true ∧
    runs (.sdiFrameSend 0) (on fun d => setReg (setSdi d 0 { SdiOut.reset with cfg := 0x91000000 }) 0xC00004 0 10000) (fun t =>
    (sdiAt t.dev 0).realign == 0 && (sdiAt t.dev 0).err == -10000) = true := by decide +kernel
theorem test_sdi_pll : runs (.sdiPllUpdate 0) (on fun d => setSdi d 0 { SdiOut.reset with cfg := 0x91000000, due := 1000, err := -250 }) (fun t =>
    (sdiAt t.dev 0).err == -150 && (sdiAt t.dev 0).due == 1100) = true := by decide +kernel
theorem test_sdi_cfg : ctlGrant State.reset.dev (.host 0) 0xC00030 4 true = true ∧ sdiComboOk 0x91000000 = true ∧ sdiComboOk 0x85000000 = false ∧
    runs (.sdiCfgWrite (.host 0) 3 0x85000000) State.reset (fun t => (sdiAt t.dev 3).cfgErr) = true := by decide +kernel
theorem test_ip_cfg : ctlGrant State.reset.dev (.host 0) 0xA00190 4 true = true ∧ ipComboOk 0x8900F000 = true ∧ ipComboOk 0x8A00F000 = false ∧
    runs (.ethIpCfgWrite (.host 0) 1 0x8A00F000) State.reset (fun t => (sdiAt t.dev 5).cfgErr) = true := by decide +kernel

/-- An INGEST of RAW16, 16 samples a line and 16 lines, from port 0, timeout 100 µs, skew 1 µs. -/
def ingestWork : WorkOrder :=
  work .ingest .running [(64, 1, 1), (66, 1, 0x2E), (67, 1, 2), (68, 2, 16), (70, 2, 16), (72, 4, 65536), (76, 4, 4096), (80, 4, 1024), (84, 2, 1), (88, 4, 100)]
/-- A frame in progress in buffer 0. -/
def frame0 : InFrame :=
  { number := 4, handle := some handle0, startAt := 0, firstFs := 77, stamp := none, sensorFn := 0, joined := 1, ended := 0, rows := [], rowCrc := [], bad := 0
    checks := [], metaLen := 0, metaLost := 0, progress := 0 }
/-- The INGEST's run. -/
def ingestRun (f : Option InFrame) : IngestRun :=
  { ticket := 9, mask := 1, gang := 0, vc := 0, started := true, nextNum := 5, frames := 2, dropped := 0, frame := f, progPhys := none }
/-- Port 0 enabled and the INGEST running. -/
def ingesting (f : Option InFrame) : State :=
  on fun d => let d := setReg (yardOf 0 (busy ingestWork d)) 0xD00000 0 0x84001388
    { d with ingest := { d.ingest with runs := [ingestRun f] } }
theorem test_csi_cfg : ctlGrant State.reset.dev (.host 0) 0xD00070 4 true = true ∧ csiLocked (ingesting none).dev 0 = true ∧ csiLocked State.reset.dev 7 = false ∧
    csiCfgOk 0x84001388 = true ∧ csiCfgOk 0x83001388 = false ∧ runs (.csiPortCfgWrite (.host 0) 7 0x83001388) State.reset (fun t => (csiAt t.dev 7).cfgErr) = true := by
  decide +kernel
theorem test_csi_sync : runs (.csiHsSync 0 true) (ingesting none) (fun t => (csiAt t.dev 0).lock) = true ∧ csiEn (ingesting none).dev 0 = true := by decide +kernel
theorem test_run_for : runFor (ingesting none).dev 0 0 = some (ingestRun none) ∧ runAt (ingesting none).dev 9 = some (ingestRun none) ∧
    woAt (ingesting none).dev 9 = some ingestWork := by decide +kernel
theorem test_csi_start : runs (.csiFrameStart 0 0 8 false) (ingesting none) (fun t => (runAt t.dev 9).map (fun r => (r.nextNum, r.frame.map (·.number))) == some (6, some 5)) = true ∧
    runs (.csiFrameStart 0 0 8 false) (ingesting (some { frame0 with joined := 2 })) (fun t =>
      (runAt t.dev 9).map (fun r => r.frame.map (·.joined)) == some (some 3)) = true := by decide +kernel
theorem test_csi_line : storable (ingesting none).dev 33 handle0 (15 * 64) (rowBytes ingestWork (record 32 [(0, 2, 0x3412)])).length = true ∧
    runs (.csiLine 0 0 0x2E 16 (record 32 [(0, 2, 0x3412)]) true false false) (ingesting (some frame0)) (fun t =>
      (runAt t.dev 9).map (fun r => r.frame.map (·.rows)) == some (some [15]) && bytesAt t.dev (0x10000 + 15 * 64) 2 == [0x34, 0x12]) = true := by decide +kernel
theorem test_csi_line_dropped : runs (.csiLine 0 0 0x2E 16 (record 32 []) true false false) (ingesting (some { frame0 with handle := none })) (fun t =>
    (runAt t.dev 9).map (fun r => r.frame.map (·.stamp)) == some (some (some t.dev.time)) && t.dev.ingest.overrun == 0) = true := by decide +kernel
theorem test_csi_line_bad : runs (.csiLine 0 0 0x2E 17 (record 32 []) true false false) (ingesting (some frame0)) (fun t =>
      (runAt t.dev 9).map (fun r => r.frame.map (fun f => (f.rows, f.bad))) == some (some ([], 1))) = true ∧
    runs (.csiLine 0 0 0x2E 1 (record 32 []) true true false) (ingesting (some frame0)) (fun t => t.dev.ingest.overrun == 1) = true := by decide +kernel
theorem test_csi_meta : igCtrl ingestWork 1 = true ∧ runs (.csiMetaPacket 0 0 0x37 (record 16 []) true false) (ingesting (some frame0)) (fun t =>
      (runAt t.dev 9).map (fun r => r.frame.map (·.metaLen)) == some (some 24)) = true ∧
    runs (.csiMetaPacket 0 0 0x30 (record 16 []) true false) (ingesting (some { frame0 with metaLen := 1001 })) (fun t =>
      (runAt t.dev 9).map (fun r => r.frame.map (·.metaLost)) == some (some 1)) = true := by decide +kernel
theorem test_csi_end : arrivalsHeld (ingesting (some frame0)).dev 9 = 0 ∧ runs (.csiFrameEnd 0 0 false) (ingesting (some { frame0 with joined := 3 })) (fun t =>
      (runAt t.dev 9).map (fun r => r.frame.map (·.ended)) == some (some 1)) = true ∧
    runs (.csiFrameEnd 0 0 false) (ingesting (some frame0)) (fun t => t.dev.recs.map (fun q => (q.final, fieldAt q.data 16 8, fieldAt q.data 24 4, fieldAt q.data 28 4))
      == [(false, 77, 4, handle0)]) = true := by decide +kernel
theorem test_frame_timeout : runs (.frameTimeout 9) { ingesting (some frame0) with dev := { (ingesting (some frame0)).dev with up := 100000 } } (fun t =>
    (runAt t.dev 9).map (·.frame) == some none) = true ∧
    runs (.frameTimeout 9) { ingesting (some frame0) with dev := { (ingesting (some frame0)).dev with up := 99999 } } (fun t =>
    (runAt t.dev 9).map (·.frame) == some (some frame0)) = true := by decide +kernel
/-- A trigger sequence due at 1,000. -/
def trig0 : Trig := { base := 0, period := 1000, width := 50, ticket := 9, due := 1000, low := none, next := none }
theorem test_trig : runs (.trigPulse 3) (on fun d => { d with time := 1000, ingest := { d.ingest with trigs := [(3, trig0)] } }) (fun t =>
    tfind 3 t.dev.ingest.trigs == some { trig0 with low := some 50, due := 2000 } && t.dev.out.contains (.pin "SYNC_OUT3" true)) = true ∧
    runs (.trigPulse 3) (on fun d => { d with up := 50, ingest := { d.ingest with trigs := [(3, { trig0 with low := some 50 })] } }) (fun t =>
    t.dev.out.contains (.pin "SYNC_OUT3" false)) = true := by decide +kernel

/-- An open clip on namespace 1 of controller 0. -/
def clip0 : Clip :=
  { func := 0, ctx := 0, members := [{ port := 0, ctrl := 0, nsid := 1, base := 0, len := 65536 }], unit := 32, cap := 65536, clipId := List.replicate 16 7, keySlot := 1
    keyId := 1, key := 5, openTime := 0, link := 3, linked := 0, nextSeq := 0, nextCba := 0, recs := [], lastSeal := none, interval := 1000000000
    nextSeal := 1000000000, sealFailed := false, overflowNext := 0, closing := none, finalDone := false, flushing := false, voids := 0, completes := 0 }
/-- A record of it in flight for ticket 9. -/
def rec0 : ClipRec := { final := [], sent := none, seq := 0, cba := 0, blocks := 1, kind := 1, ticket := some 9, header := record 256 [], tag := 1, st := .flight, status := 0, nvme := 0 }
/-- PROVISIONED fuses with an enrolled maker. -/
def fuses1 : Fuses := { State.reset.fuses with lcA := 0x1111, lcB := 0x1111, makerSet := true, dusSet := true }
/-- A magazine with controller 0 ready, clip slot 2 holding a clip, the device key available. -/
def mag (w : WorkOrder) (c : Option Clip) : State :=
  { on fun d => let d := yardOf 0 (busy w d)
      { d with mag := { d.mag with ports := [(0, { RootPort.reset with upA := true, onA := 1, ready := 1, nsBlocks := [(1, 1000000)] })]
                                   clips := c.toList.map (fun x => (2, x)) }
               ks := { d.ks with record := true, devFpr := List.replicate 48 1, slots := [(1, { key := 5, keyId := 1, clipId := List.replicate 16 7, func := 0, imported := false, opened := false, destroy := false })] } } with
    fuses := fuses1 }
/-- A MAGW of an operation on clip 2. -/
def magw (op : Nat) (ph : WoPhase) (more : List (Nat × Nat × Nat)) : WorkOrder := work .magw ph ([(64, 1, op), (65, 1, 2)] ++ more)
theorem test_link_up : runs (.magLinkUp 1 0 4 [nv0]) State.reset (fun t => (rpAt t.dev 1).upA && (rpAt t.dev 1).onA == 1) = true ∧ (rpAt State.reset.dev 1).onB = 0 := by
  decide +kernel
theorem test_link_down : runs (.magLinkDown 0 0 (some 0)) (mag (magw 2 .running []) (some { clip0 with recs := [rec0], nextSeq := 1 })) (fun t =>
    (rpAt t.dev 0).ready == 0 && owed t == [(9, true, 0x80)]) = true ∧ touches clip0 0 1 0 = true := by decide +kernel
/-- An OPEN whose member table names controller 0's namespace 1. -/
def open0 : WorkOrder :=
  { magw 1 .queued [(68, 1, 1), (69, 1, 5), (88, 4, 1), (72, 8, 0x0707070707070707), (80, 8, 0x0707070707070707)] with extra := [(104, record 16 [(4, 4, 1), (14, 2, 1)])] }
theorem test_open : magwNext (mag open0 none).dev 9 1 = some open0 ∧ membersOf (tget [] 104 open0.extra) 1 = clip0.members.map some ∧ membersOk (mag open0 none).dev clip0.members = true ∧
    (open0.raw.drop 72).take 16 = List.replicate 16 7 ∧ keyDsk (mag open0 none).fuses (mag open0 none).dev = true ∧
    runs (.magwOpen 9) (mag open0 none) (fun t => (clipAt t.dev 2).map (·.cap) == some 65536 && owed t == [(9, true, 0)]) = true := by decide +kernel
theorem test_open_twice : runs (.magwOpen 9) (mag open0 (some clip0)) (fun t => owed t == [(9, true, 0x31)]) = true := by decide +kernel
/-- A WRITE of 16 bytes from buffer 0. -/
def write0 : WorkOrder := magw 2 .queued [(66, 1, 1), (112, 4, handle0), (120, 4, 16)]
/-- The magazine with the WRITE's bytes. -/
def writing (c : Clip) : State := { mag write0 (some c) with dev := poke 0x10000 (List.replicate 16 9) (mag write0 (some c)).dev }
theorem test_write_fails : magwNext (writing clip0).dev 9 2 = some write0 ∧ membersReady (writing clip0).dev clip0 = true ∧
    runs (.magwWrite 9) (writing { clip0 with sealFailed := true }) (fun t => owed t == [(9, true, 0x70)]) = true ∧
    runs (.magwWrite 9) (writing { clip0 with members := [{ port := 1, ctrl := 0, nsid := 1, base := 0, len := 65536 }] }) (fun t => owed t == [(9, true, 0x80)]) = true ∧
    runs (.magwWrite 9) (writing { clip0 with nextCba := 65536 - 256 }) (fun t => owed t == [(9, true, 0x20)]) = true := by decide +kernel
theorem test_write : (readPieces 34 (mwSrc write0) (writing clip0).dev).2 = some (List.replicate 16 9) ∧ recBlocks 16 = 1 ∧ recBlocks 3776 = 1 ∧ recBlocks 3777 = 2 := by
  decide +kernel
theorem test_close : magwNext (mag (magw 3 .queued []) (some clip0)).dev 9 3 = some (magw 3 .queued []) ∧
    runs (.magwClose 9) (mag (magw 3 .queued []) (some { clip0 with recs := [rec0], nextSeq := 1 })) (fun t => (clipAt t.dev 2).map (·.closing) == some (some 9)) = true ∧
    runs (.magwClose 9) (mag (magw 3 .queued []) (some clip0)) (fun t => (clipAt t.dev 2).map (fun c => (c.finalDone, c.recs.map (·.kind))) == some (true, [4])) = true := by
  decide +kernel
theorem test_complete : runs (.magRecordComplete 2 0 0) (mag (magw 2 .running []) (some { clip0 with recs := [rec0], nextSeq := 1 })) (fun t =>
      (clipAt t.dev 2).map (fun c => (c.linked, c.completes)) == some (1, 1) && owed t == [(9, true, 0)]) = true ∧
    runs (.magRecordComplete 2 0 1) (mag (magw 2 .running []) (some { clip0 with recs := [rec0], nextSeq := 1 })) (fun t =>
      (clipAt t.dev 2).map (fun c => (c.linked, c.voids)) == some (1, 1)) = true := by decide +kernel
theorem test_seal : sealReady (mag (magw 3 .queued []) (some { clip0 with recs := [{ rec0 with kind := 4, st := .reserved }] })).dev 2 = some { rec0 with kind := 4, st := .reserved } := by
  decide +kernel
theorem test_flush_done : runs (.magwCloseFlushDone 2 0) (mag (magw 3 .running []) (some { clip0 with closing := some 9, flushing := true })) (fun t =>
    clipAt t.dev 2 == none && owed t == [(9, true, 0)]) = true ∧ inEmergency (mag open0 none).dev 2 = false := by decide +kernel
theorem test_emergency : freshClips (mag open0 (some clip0)).dev (fun _ => true) = [2] ∧ ctlGrant State.reset.dev (.host 0) 0xF00020 4 true = true ∧
    runs .magEmergNFall (mag open0 (some clip0)) (fun t => t.dev.mag.emerg == [{ reason := 1, clips := [2], startAt := 0 }]) = true ∧
    runs (.emergencyCloseDone []) { mag open0 (some clip0) with dev := { (mag open0 (some clip0)).dev with mag := { (mag open0 (some clip0)).dev.mag with emerg := [{ reason := 7, clips := [2], startAt := 0 }] } } }
      (fun t => clipAt t.dev 2 == none && t.dev.mag.trailers == 4 && t.dev.mag.reason == 7) = true := by decide +kernel
theorem test_mag_cfg : ctlGrant State.reset.dev (.host 0) 0xF00000 4 true = true ∧
    runs (.magCfgWrite (.host 0) 0x00400003) State.reset (fun t => magRingBase t.dev == 64 && magCfg t.dev % 4 == 3) = true := by decide +kernel

/-! Memory: DRAM channels, Ashlar banks, the Yard, rings, DMA. -/

/-- A DRAM access at an address. -/
def req (n a : Nat) (w : Bool) : DramReq := { seq := n, requester := 35, addr := a, write := w, data := if w then [7, 8] else [], size := 2, at_ := 0 }
/-- Reset with 64 MiB of DRAM and channel 0 changed. -/
def chan0 (f : Chan → Chan) : State := on fun d => poke 0x40 [1, 2, 3] (setChan (setReg d 0x4010004 0 64) 0 (f Chan.reset))
theorem test_dram_queue : chanOf (chan0 id).dev 0x40 = 0 ∧ usableBytes (chan0 id).dev = 2 ^ 26 ∧
    runs (.dmcAccess 35 0x40 false [] 2) (chan0 id) (fun t => (chanAt t.dev 0).reads == [{ req 0 0x40 false with at_ := 0 }]) = true ∧
    runs (.dmcAccess 35 0x40 true [9] 1) (chan0 id) (fun t => (chanAt t.dev 0).writes.map (·.data) == [[9]]) = true ∧
    runs (.dmcAccess 35 0x4000000 false [] 4) (chan0 id) (fun t => t.dev.mem.served == [(0, 35, [])]) = true ∧
    runs (.dmcAccess 35 0x40 false [] 2) (chan0 fun x => { x with reads := List.replicate 64 (req 0 0 false) }) (fun t =>
      (chanAt t.dev 0).reads.length == 64 && (chanAt t.dev 0).wait.length == 1) = true := by decide +kernel
theorem test_dram_read : (let s := chan0 fun x => { x with reads := [req 5 0x40 false] }
    dramChoice s.dev (chanAt s.dev 0) = some (req 5 0x40 false) ∧ (memCheck s.dev (reqOf 35) false false 0x40 2).2 = .ok ∧
    runs (.dmcSchedule 0 .none) s (fun t => t.dev.mem.served == [(5, 35, [1, 2])]) = true) := by decide +kernel
theorem test_dram_write : (let s := chan0 fun x => { x with writes := [req 5 0x41 true], drain := true }
    dramChoice s.dev (chanAt s.dev 0) = some (req 5 0x41 true) ∧ (memCheck s.dev (reqOf 35) false true 0x41 2).2 = .ok ∧
    runs (.dmcSchedule 0 .none) s (fun t => bytesAt t.dev 0x40 3 == [1, 7, 8]) = true) := by decide +kernel
/-- Channel 0 with a read of sealed region 1 (the first 32 MiB) in its queue. -/
def sealedRead : State := on fun _ => setReg (setReg (chan0 fun x => { x with reads := [req 5 0x40 false] }).dev 0x4010408 0 0xC0000000) 0x401040C 0 31
theorem test_dram_bad : isSealedAddr sealedRead.dev 0 = true ∧ inMacArea sealedRead.dev 0x40 = false ∧
    runs (.dmcSchedule 0 .mac) sealedRead (fun t => t.dev.mem.served == [(5, 35, [])] && t.dev.mem.badUnits == [0]) = true ∧
    runs (.dmcSchedule 0 (.double 9)) sealedRead (fun t => t.dev.mem.served == [(5, 35, [])] && tget 0 0x40 t.dev.mem.syndromes == 9 &&
      (dmcAt t.dev 0).log.map (·.syndrome) == [9]) = true ∧
    runs (.dmcSchedule 0 .link) sealedRead (fun t => (dmcAt t.dev 0).uncorr == 1 && t.dev.mem.badBlocks == []) = true := by decide +kernel
theorem test_dram_test_port : runs (.dmcAccess 47 0x40 false [] 2) { chan0 id with fuses := { (chan0 id).fuses with lcA := 0x3333, lcB := 0x3333 } } (fun t =>
    lcState t.fuses == some 2 && t.dev.mem.served == [(0, 47, [])]) = true := by decide +kernel
theorem test_dram_forced : runs (.dmcSchedule 0 .none) (chan0 fun x => { x with postponed := 8, owed := [(3, 1)], reads := [req 5 0x40 false] }) (fun t =>
    (dmcAt t.dev 0).forced == 1 && (chanAt t.dev 0).postponed == 7 && (chanAt t.dev 0).reads.length == 1) = true := by decide +kernel
theorem test_power_down : runs (.dmcPowerDown 0) { chan0 id with dev := { (chan0 id).dev with up := 1000 } } (fun t => (chanAt t.dev 0).powerDown) = true ∧
    runs (.dmcPowerDown 0) { chan0 id with dev := { (chan0 id).dev with up := 999 } } (fun t => !(chanAt t.dev 0).powerDown) = true := by decide +kernel
theorem test_refresh : bankBusy (chan0 fun x => { x with reads := [req 5 0x40 false] }).dev { Chan.reset with reads := [req 5 0x40 false] } 0 = true ∧
    runs (.refreshDue 0 0) (chan0 fun x => { x with reads := [req 5 0x40 false] }) (fun t => (chanAt t.dev 0).postponed == 1) = true ∧
    runs (.refreshDue 0 1) (chan0 fun x => { x with reads := [req 5 0x40 false] }) (fun t => (chanAt t.dev 0).postponed == 0) = true ∧
    runs (.refreshDue 0 0) (chan0 fun x => { x with ahead := 2 }) (fun t => (chanAt t.dev 0).ahead == 1) = true := by decide +kernel
theorem test_mr4 : runs (.mr4Poll 0 2) (chan0 id) (fun t => (chanAt t.dev 0).checkDue == some 0) = true ∧
    runs (.mr4Poll 0 1) (chan0 id) (fun t => (chanAt t.dev 0).checkDue == none && (chanAt t.dev 0).mr4 == 1) = true := by decide +kernel
theorem test_scrub : runs (.scrubRead 0 (.double 3)) (chan0 id) (fun t => (dmcAt t.dev 0).uncorr == 1 && t.dev.mem.badBlocks == [0]) = true ∧
    runs (.scrubRead 0 (.single 3)) (chan0 id) (fun t => (dmcAt t.dev 0).corr == 1 && t.dev.mem.badBlocks == []) = true ∧
    runs (.scrubRead 0 .none) (chan0 id) (fun t => tget 0 0 t.dev.mem.scrubAt == 1) = true := by decide +kernel
theorem test_retrain_check : runs (.retrainCheck 0 true true) (chan0 id) (fun t => (chanAt t.dev 0).retryAt == none) = true ∧
    runs (.retrainCheck 0 true true) (chan0 fun x => { x with checkDue := some 0 }) (fun t => (chanAt t.dev 0).retryAt == some 1000000 && (chanAt t.dev 0).fails == 1) = true ∧
    runs (.retrainCheck 0 false false) (chan0 fun x => { x with checkDue := some 0 }) (fun t => (chanAt t.dev 0).checkDue == none) = true ∧
    runs (.retrainRetry 0 false) (chan0 fun x => { x with retryAt := some 0, fails := 2 }) (fun t => (chanAt t.dev 0).fails == 0) = true ∧
    runs (.retrainRetry 0 false) (chan0 fun x => { x with retryAt := some 1, fails := 2 }) (fun t => (chanAt t.dev 0).fails == 2) = true := by decide +kernel
/-- An entry of a controller's error log. -/
def logged : DmcEntry := { time := 1, addr := 2, type := 1, channel := 0, requester := 35, flags := 0, syndrome := 3, location := 4, count := 1 }
theorem test_log_pop : ctlGrant (chan0 id).dev (.host 0) 0x4000010 4 true = true ∧
    runs (.dmcLogPop (.host 0) 0) (on fun d => setDmc d 0 { Dmc.reset with log := [logged, { logged with addr := 9 }] }) (fun t =>
      (dmcAt t.dev 0).log == [{ logged with addr := 9 }] && (dmcAt t.dev 0).head == 1) = true := by decide +kernel
theorem test_region : regionOk (chan0 id).dev 5 0x80000010 0x2F = true ∧ regionOk (chan0 id).dev 5 0x80000010 0xF = false ∧
    runs (.memRegionWrite 5 0x80000010 0x2F) (chan0 id) (fun t => (regionRegs t.dev 5).1 == 0x80000010 && (regionRegs t.dev 5).2 % 2 ^ 30 == 0x2F) = true ∧
    runs (.memRegionWrite 5 0x80000010 0xF) (chan0 id) (fun t => (regionRegs t.dev 5).1 == 0 && bitOf (regionRegs t.dev 5).2 31) = true := by decide +kernel

/-- Bank 3 with owner core 1 (code 0x11), changed; Holt core 1 is requester 25. -/
def bank3 (f : Bank → Bank) : State := on fun d => poke 0x080000C00010 [5] (setBank d 3 (f { Bank.reset 3 with owner := 0x11 }))
theorem test_ashlar_ops : regionOf (bank3 id).dev 0x080000C00010 = .ashlar 3 ∧ (memCheck (bank3 id).dev (reqOf 25) false true 0x080000C00010 4).2 = .ok ∧
    runs (.ashlarAccess 25 64 0x080000C00010 (.add 4 3) .none) (bank3 id) (fun t => t.dev.mem.served == [(0, 25, [5, 0, 0, 0])] && bytesAt t.dev 0x080000C00010 1 == [8]) = true ∧
    runs (.ashlarAccess 25 64 0x080000C00010 (.cas 4 6 3) .none) (bank3 id) (fun t => bytesAt t.dev 0x080000C00010 1 == [5]) = true ∧
    runs (.ashlarAccess 25 64 0x080000C00010 (.swap 4 3) .none) (bank3 id) (fun t => bytesAt t.dev 0x080000C00010 1 == [3]) = true ∧
    runs (.ashlarAccess 25 64 0x080000C00010 (.load 4) .double) (bank3 id) (fun t => t.dev.mem.served == [(0, 25, [])] && t.dev.mem.badWords == [0x080000C00010]) = true := by decide +kernel
theorem test_ashlar_refused : ownerAdmits 0x11 (reqOf 24) = false ∧
    runs (.ashlarAccess 24 64 0x080000C00010 (.load 4) .none) (bank3 id) (fun t => t.dev.mem.viol == 1 && t.dev.mem.violBank == 3 && t.dev.mem.violReq == 24) = true ∧
    runs (.ashlarAccess 25 64 0x080000C00010 (.store [1]) .single) (bank3 fun b => { b with wiping := true }) (fun t =>
      (bankAt t.dev 3).held.length == 1 && t.dev.mem.served == []) = true := by decide +kernel
theorem test_owner_write : ctlGrant State.reset.dev (.host 0) 0x500000C 4 true = true ∧ isPf State.reset.dev (.host 0) = true ∧ ownerCodeOk 0x40 = true ∧ ownerCodeOk 0x18 = false ∧
    runs (.ashlarOwnerWrite (.host 0) 3 0x140) (bank3 id) (fun t => (bankAt t.dev 3).owner == 0x40 && (bankAt t.dev 3).pending && (bankAt t.dev 3).wipeNext) = true ∧
    runs (.ashlarOwnerWrite (.host 0) 3 0x18) (bank3 id) (fun t => (bankAt t.dev 3).owner == 0x11 && (bankAt t.dev 3).err) = true := by decide +kernel
theorem test_bank_change : runs (.ashlarDrainDone 3) (bank3 fun b => { b with pending := true, wipeNext := true }) (fun t => (bankAt t.dev 3).wiping && !(bankAt t.dev 3).pending) = true ∧
    runs (.ashlarDrainDone 3) (bank3 fun b => { b with pending := true }) (fun t => !(bankAt t.dev 3).wiping && !(bankAt t.dev 3).pending) = true ∧
    runs (.ashlarWipeDone 3) (bank3 fun b => { b with wiping := true }) (fun t => bytesAt t.dev 0x080000C00010 1 == [0]) = true := by decide +kernel
theorem test_abs_wipe : runs (.absWipeDone (some 8)) (on fun d => { d with mem := { d.mem with absWiping := true } }) (fun t =>
    t.dev.mem.absWiped && t.dev.plumb.recs.any (fun e => e.2.source == 432 && e.2.detail == 8)) = true ∧ openSlot State.reset.dev 432 = none := by decide +kernel

theorem test_yard_en : ctlGrant State.reset.dev (.host 0) 0x600000 4 true = true ∧ yardChecks (on (yardOf 0x8000)).dev = true ∧
    runs (.yardCtrlEn (.host 0)) (on fun d => { yardOf 0x8000 d with yard := { (yardOf 0x8000 d).yard with en := false } }) (fun t => t.dev.yard.en) = true ∧
    runs (.yardCtrlEn (.host 0)) (on fun d => setReg d 0x600100 (12 * 2 ^ 25) (2 ^ 31 + 30 * 2 ^ 25 + 1)) (fun t => !t.dev.yard.en && t.dev.yard.err) = true := by
  decide +kernel
theorem test_yard_alloc : pickBuf (on (yardOf 0x8000)).dev 100 = some 1 ∧
    runs (.yardAlloc (.host 0)) (on (yardOf 0x8000)) (fun t => (bufAt t.dev 1).st == .owned && (bufAt t.dev 1).owner == 0x8000 && (bufAt t.dev 1).gen == 1) = true ∧
    pickBuf State.reset.dev 100 = none ∧ runs (.yardAlloc (.host 0)) State.reset (fun t => (yardHost t.dev 0).status == 0x40) = true := by decide +kernel
theorem test_yard_free : handleCurrent (on (yardOf 0x8000)).dev handle0 = true ∧ handleCurrent (on (yardOf 0x8000)).dev 0x200000 = false ∧
    runs (.yardFree (.host 0) 0x100000) (on (yardOf 0x8000)) (fun t => (bufAt t.dev 0).st == .free && (yardHost t.dev 0).status == 0) = true ∧
    runs (.yardFree (.host 0) 0x200000) (on (yardOf 0x8000)) (fun t => (yardHost t.dev 0).status == 0x43 && t.dev.plumb.recs.any (fun e => e.2.source == 439)) = true ∧
    runs (.yardFree (.host 0) 0x100000) (on (yardOf 0)) (fun t => (yardHost t.dev 0).status == 0x42) = true := by decide +kernel
/-- `yardOf` for function 0, with XFER_OWNER. -/
def xferTo (o : Nat) : State := on fun d => let d := yardOf 0x8000 d
  { d with yard := { d.yard with hosts := [(0, { size := 0, xferOwner := o, op := 0, status := 0 })] } }
theorem test_yard_xfer : ownerOk 5 = true ∧ ownerOk 0xFFFF = false ∧
    runs (.yardXfer (.host 0) 0x100000) (xferTo 5) (fun t => (bufAt t.dev 0).owner == 5) = true ∧
    runs (.yardXfer (.host 0) 0x100000) (xferTo 0xFFFF) (fun t => (bufAt t.dev 0).owner == 0x8000 && (yardHost t.dev 0).status == 0x42) = true ∧
    ctlGrant State.reset.dev (.host 0) 0x60004C 4 true = true := by decide +kernel
theorem test_low_water : runs (.yardLowWaterWrite (.host 0) 0 8) (on (yardOf 0x8000)) (fun t => t.dev.yard.low == [0] && t.dev.intc.latch.contains 96) = true ∧
    runs (.yardLowWaterWrite (.host 0) 0 7) (on (yardOf 0x8000)) (fun t => t.dev.yard.low == []) = true ∧ intcLost (on (yardOf 0x8000)).dev 96 = false := by decide +kernel
/-- Function 0's aperture 0 on address 0, buffer 0 its own. -/
def aperture : State := on fun d => poke 0x10000 [3, 4] (setReg (setReg (yardOf 0x8000 d) 0xE10C00 0 0) 0xE10C04 0 0x80000000)
theorem test_bar2 : apertureAddr aperture.dev 0 0x10000 = some 0x10000 ∧ windowOk aperture.dev 0x8000 0x10000 = true ∧ windowOk aperture.dev 0x8000 0x20000 = false ∧
    (memCheck aperture.dev (reqOf 41) false false 0x10000 2).2 = .ok ∧ runs (.hostBar2Access 0 0x10000 2 none) aperture (fun t => t.dev.out == [.hostData 0 [3, 4] false]) = true ∧
    runs (.hostBar2Access 0 0x10000 2 (some [9])) aperture (fun t => bytesAt t.dev 0x10000 2 == [9, 4]) = true ∧
    runs (.hostBar2Access 0 0x20000 2 none) aperture (fun t => t.dev.yard.winCount == 1 && t.dev.out == [.hostData 0 [0, 0] true]) = true := by decide +kernel

/-- Ring 3, disabled, of function 0 and context 7, with buffer 0 as its store. -/
def ring3 (f : Ring → Ring) : State := on fun d => setRing (yardOf 0x8000 d) 3 (f { Ring.reset with producer := 7, consumer := 0x8000, store := handle0 })
theorem test_ring_enable : ctlGrant (ring3 id).dev (.host 0) 0x710064 4 true = true ∧ isAdmin (ring3 id).dev (.host 0) = true ∧ ringEnOk (ring3 id).dev 3 0 5 = true ∧
    ringEnOk (ring3 id).dev 3 0 21 = false ∧
    runs (.ringEnable (.host 0) 3 0x85000000) (ring3 id) (fun t => (ringAt t.dev 3).en && (ringAt t.dev 3).sizeLog2 == 5 && (bufAt t.dev 0).st == .ring) = true ∧
    runs (.ringEnable (.host 0) 3 0x95000000) (ring3 id) (fun t => !(ringAt t.dev 3).en && (ringAt t.dev 3).err) = true := by decide +kernel
theorem test_ring_disable : runs (.ringDisable (.host 0) 3 0x04000000) (ring3 fun x => { x with en := true, entries := [ent 1], wr := 1, wr2 := 1, head := 1 }) (fun t =>
    !(ringAt t.dev 3).en && (ringAt t.dev 3).entries == [] && (bufAt t.dev 0).st == .owned && (bufAt t.dev 0).owner == 0x8000) = true := by decide +kernel
theorem test_ring_reset : runs (.ringReset (.host 0) 3 0xC4000000) (ring3 fun x => { x with en := true, entries := [ent 1], wr := 1, wr2 := 1, head := 1 }) (fun t =>
    (ringAt t.dev 3).noticeP && (ringAt t.dev 3).resetC && (ringAt t.dev 3).token && t.dev.ringResets == 1 && t.dev.ringLast == 3) = true := by decide +kernel
theorem test_ring_refill : runs (.ringRefill 3) (ring3 fun x => { x with en := true, entries := List.replicate 9 (ent 1), wr := 9, wr2 := 9, head := 2 }) (fun t =>
    (ringAt t.dev 3).head == 8) = true := by decide +kernel
/-- Ring 3 between function 0 as consumer and a producer. -/
def hostRing (p : Nat) (es : List Entry) : State := on fun d => ringOn 3 p 0x8000 es (yardOf 0x8000 d)
theorem test_host_push : runs (.hostPushMid 0 3 (List.replicate 32 4)) (hostRing 0x8000 []) (fun t => (ringAt t.dev 3).entries == [{ ent 4 with sop := false, eop := false }]) = true ∧
    runs (.hostPushSop 0 3 (List.replicate 32 4)) (hostRing 0x8000 (List.replicate 16 (ent 1))) (fun t => (ringAt t.dev 3).entries.length == 16 && (ringAt t.dev 3).drop == 1) = true ∧
    runs (.hostPushEop 0 3 (List.replicate 32 4)) (hostRing 7 []) (fun t => (ringAt t.dev 3).entries == []) = true := by decide +kernel
theorem test_host_pop : runs (.hostPop 0 3 32) (hostRing 7 [ent 4]) (fun t => t.dev.out == [.hostData 0 (List.replicate 32 4) false] && (ringAt t.dev 3).entries == []) = true ∧
    runs (.hostPop 0 3 32) (hostRing 7 []) (fun t => (ringAt t.dev 3).hostWait == [2000]) = true ∧
    runs (.hostPop 0 3 16) (hostRing 7 [ent 4]) (fun t => t.dev.out == [.hostData 0 (List.replicate 16 0) false]) = true ∧
    (ringAt (hostRing 7 [ent 4]).dev 3).front = some (ent 4) ∧ (ringAt (hostRing 7 [ent 4]).dev 3).sound = true := by decide +kernel
theorem test_host_pop_end : runs (.hostPopTimeout 3) (ring3 fun x => { x with en := true, hostWait := [0, 5] }) (fun t => t.dev.out == [.hostData 0 emptyToken false] && (ringAt t.dev 3).hostWait == [5]) = true ∧
    runs (.hostPushEop 0 3 (List.replicate 32 4)) (on fun _ => setRing (hostRing 0x8000 [{ ent 1 with eop := false }]).dev 3 { ringAt (hostRing 0x8000 [{ ent 1 with eop := false }]).dev 3 with hostWait := [0, 5, 6] }) (fun t =>
      t.dev.out == [.hostData 0 (List.replicate 32 1) false, .hostData 0 (List.replicate 32 4) false] && (ringAt t.dev 3).hostWait == [6]) = true ∧
    runs (.hostPop 0 3 32) (ring3 fun x => { x with en := true, token := true }) (fun t => t.dev.out == [.hostData 0 resetToken false]) = true ∧
    runs (.hostRingStatusRead 0 3) (ring3 fun x => { x with en := true, resetC := true }) (fun t => !(ringAt t.dev 3).resetC && t.dev.out == [.hostData 0 (leBytes 4 0x4000000) false]) = true := by
  decide +kernel

/-- A queued DMA work order whose chain starts at offset 0 of buffer 0, on channel 0. -/
def dma0 (ph : WoPhase) : WorkOrder := { work .dma ph [] with extra := [(66, leBytes 8 0x10000 ++ leBytes 8 0xFFFF ++ [0])] }
/-- A linear copy of 4 bytes from 0x40 to 0x80 of buffer 0, with a link. -/
def copy4 (link : Nat) : List Byte :=
  record 64 [(4, 4, handle0), (8, 4, handle0), (16, 8, 0x40), (24, 8, 0x80), (32, 4, 4), (56, 8, link)]
/-- Channel 0 and a DMA's memory. -/
def dmas (w : WorkOrder) (f : DmaChan → DmaChan) (b : List Byte) : State :=
  on fun d => poke 0x10000 b (poke 0x10040 [1, 2, 3, 4] (setDma (busy w (yardOf 0 d)) 0 (f DmaChan.reset)))
/-- A running channel on a chain of two descriptors. -/
def running (x : DmaChan) : DmaChan := { x with st := .run, ticket := 9, base := 0x10000, limit := 0xFFFF }
theorem test_dma_start : dmaNext (dmas (dma0 .queued) id []).dev 0 = some (dma0 .queued) ∧ runs (.dmaDescFetch 0) (dmas (dma0 .queued) id (copy4 1)) (fun t =>
    (dmaAt t.dev 0).st == .run && (dmaAt t.dev 0).base == 0x10000) = true := by decide +kernel
theorem test_dma_fetch : (let s := dmas (dma0 .running) running (copy4 1)
    woAt s.dev 9 = some (dma0 .running) ∧ (chainRead s.dev 0 0 0 64).2 = (.ok, copy4 1) ∧ dmaDescStatus s.dev 0 (dma0 .running) (copy4 1) = 0 ∧
    runs (.dmaDescFetch 0) s (fun t => (dmaAt t.dev 0).fetched && (bufAt t.dev 0).holds == 2) = true) ∧
    runs (.dmaDescFetch 0) (dmas (dma0 .running) running (record 64 [(0, 1, 3)])) (fun t => owed t == [(9, true, 0x31)]) = true := by decide +kernel
/-- The channel with a fetched descriptor. -/
def fetched (b : List Byte) : State := dmas { dma0 .running with result := b } (fun x => { running x with fetched := true }) b
theorem test_dma_copy : (dmaTransfer (fetched (record 64 [(1, 1, 2), (4, 4, handle0), (8, 4, handle0), (16, 8, 0x40), (24, 8, 0x80), (32, 4, 4)])).dev 0 0
      (record 64 [(1, 1, 2), (4, 4, handle0), (8, 4, handle0), (16, 8, 0x40), (24, 8, 0x80), (32, 4, 4)]) [] 4).fail = none ∧
    runs (.dmaDescComplete 0 []) (fetched (record 64 [(1, 1, 2), (4, 4, handle0), (8, 4, handle0), (16, 8, 0x40), (24, 8, 0x80), (32, 4, 4)])) (fun t =>
      owed t == [(9, true, 0)] && bytesAt t.dev 0x10080 4 == [1, 2, 3, 4]) = true := by decide +kernel
theorem test_dma_last : (let s := fetched (record 64 [(1, 1, 2), (4, 4, handle0), (8, 4, handle0), (16, 8, 0x40), (24, 8, 0x80), (32, 4, 4)])
    runs (.dmaDescComplete 0 []) { s with dev := { s.dev with mem := { s.dev.mem with badBlocks := [0x10080] } } } (fun t =>
      owed t == [(9, true, 0x21)] && t.dev.recs.map (fun q => fieldAt q.data 24 4) == [0])) = true := by decide +kernel
/-- A gather of one element whose index leaves the buffer. -/
def gatherOut : List Byte :=
  record 64 [(0, 1, 1), (2, 1, 0), (3, 1, 1), (4, 4, handle0), (8, 4, 3), (12, 4, 4), (16, 8, 0xFFFE), (32, 4, 1), (36, 4, handle0), (40, 4, 0x100), (56, 8, 1)]
theorem test_dma_gather : runs (.dmaDescComplete 0 []) { fetched gatherOut with dev := poke 0x10100 [0, 0, 0, 0] (setBank (fetched gatherOut).dev 3 { Bank.reset 3 with owner := 0x40 }) } (fun t =>
    owed t == [(9, true, 0x20)] && t.dev.recs.map (fun q => fieldAt q.data 24 4) == [4]) = true := by decide +kernel
theorem test_dma_dbell : ctlGrant State.reset.dev (.host 0) 0x800108 4 true = true ∧ dmaLinkOf 0x40 = .next 64 ∧ dmaLinkOf 1 = .stop ∧ dmaLinkOf 3 = .bad ∧
    runs (.dmaDbell (.host 0) 0) (dmas (dma0 .running) running []) (fun t => (dmaAt t.dev 0).pend) = true ∧
    runs (.dmaDbell (.host 0) 0) (dmas (dma0 .running) (fun x => { running x with st := .parked }) (copy4 0x40)) (fun t =>
      (dmaAt t.dev 0).st == .run && (dmaAt t.dev 0).desc == 64) = true := by decide +kernel

/-! Networks: the switch, egress, reception and sending, Bond. -/

/-- 60 bytes of zeros. -/
def frame60 : List Byte := List.replicate 60 0
/-- Frame 4, which class 0 of a port has queued. -/
def stored (p : Nat) : Frame :=
  { data := frame60, leg2 := none, port := p, cls := 0, ports := 1, ticket := none, stamp := false, oneStep := false, tag := 0, rxTime := 55 }
/-- Its place in a queue. -/
def place : QEnt := { frame := 4, time := 0, ce := false, dead := false }
/-- Ports 0 to 3 UP, destination 0 forwarded to port 0, frame 4 stored. -/
def switched (f : Device → Device) : State :=
  on fun d => let d := setReg (setReg d 0x910004 0 0x90000000) 0x910008 0 1
    f { d with sw := { d.sw with nextId := 5, frames := [(4, stored 2)], ports := (upto 0 4).map (fun p => (p, { SwPort.reset with st := .up })) } }
theorem test_forward : fwdPorts (switched id).dev frame60 = 1 ∧ classOf (switched id).dev 1 frame60 = 0 ∧ frameIdsOk (switched id).dev = true ∧
    [0, 1, 2, 3, 4, 5, 7].filter (fun k => bitOf (fwdPorts (switched id).dev frame60) k && k != 1) = [0] ∧ 64 / 256 + 1 ≤ admitLimit (switched id).dev 0 (freeCells (switched id).dev - 1) ∧
    runs (.swFrameRx 1 frame60 true) (switched id) (fun t => (queueAt t.dev 0 0).map (·.frame) == [5] && (frameAt t.dev 5).isSome) = true := by decide +kernel
theorem test_switch_drops : runs (.swFrameRx 1 frame60 false) (switched id) (fun t => (swAt t.dev 1).rx == 1) = true ∧
    runs (.swFrameRx 1 frame60 true) (switched fun d => setReg { d with sw := { d.sw with frames := [(4, { stored 2 with data := List.replicate 9212 0 })], queues := [(0, List.replicate 57 place)] } }
      0x900100 0x18000000 0) (fun t => (swAt t.dev 0).admits == 1 && (queueAt t.dev 0 0).length == 57) = true := by
  decide +kernel
theorem test_pfc : swPortCfg (switched fun d => setReg d 0x900200 2000 0x40000000).dev 0 / 2 ^ 30 = 1 ∧
    runs (.pfcRx 0 2 [0, 100]) (switched fun d => setReg d 0x900200 2000 0x40000000) (fun t => (tfind 1 (swAt t.dev 0).paused).isSome) = true ∧
    runs (.pfcRepeat 0 1) (switched fun d => setSw d 0 { SwPort.reset with xoff := 2, repeatAt := [(1, 0)] }) (fun t =>
      t.dev.out == [.pfc 0 1 0xFFFF] && tfind 1 (swAt t.dev 0).repeatAt == some 160000) = true ∧
    runs (.pfcPauseExpire 0 1) (switched fun d => setSw d 0 { SwPort.reset with paused := [(1, 0)] }) (fun t => (swAt t.dev 0).paused == []) = true := by decide +kernel
theorem test_link : runs (.swLinkUp 1) (on fun d => setReg d 0xA00010 0x02000000 0x82000000) (fun t => (swAt t.dev 1).st == .up && (ethPort t.dev 1).link) = true ∧
    runs (.swLinkDown 0) (switched fun d => setEthPort d 0 { EthPort.reset with link := true }) (fun t => (swAt t.dev 0).st == .hold && (swAt t.dev 0).holdAt == 2000000) = true ∧
    runs (.swLinkDown 0) (switched fun d => setReg (setEthPort d 0 { EthPort.reset with link := true }) 0x900200 2000 0) (fun t => (swAt t.dev 0).st == .down) = true ∧
    runs (.holdExpire 0) (switched fun d => setQueue (setSw d 0 { SwPort.reset with st := .hold, holdAt := 0 }) 0 0 [place]) (fun t =>
      (swAt t.dev 0).st == .down && queueAt t.dev 0 0 == []) = true := by decide +kernel
theorem test_egress : classReady (switched fun d => setQueue d 0 0 [place]).dev 0 0 = true ∧ noAging (switched id).dev = true ∧
    runs (.egressFrameStart 0) (switched fun d => setQueue d 0 0 [place]) (fun t => t.dev.out == [.frame 0 frame60] && queueAt t.dev 0 0 == []) = true := by decide +kernel
theorem test_shaper : runs .shaperTick (switched fun d => setReg d 0xA01000 0 1000) (fun t => tokens t.dev 0 0 == 0 && t.dev.eth.tickAt == 1000) = true ∧
    runs .shaperTick (switched fun d => setReg (setQueue d 0 0 [place]) 0xA01000 0 1000) (fun t => tokens t.dev 0 0 == 1000) = true ∧
    runs .queueSample (switched fun d => setQueue d 0 0 [place]) (fun t => tfind 0 t.dev.eth.hwm == some (1, 0)) = true := by decide +kernel
/-- A gate list of one entry of 100 ns from now on. -/
def gated (cycle : Nat) : State := on fun d => setReg (setReg d 0xA02010 1000000 cycle) 0xA04000 0 100
theorem test_gate_change : ctlGrant (gated 2000).dev (.host 0) 0xA02000 4 true = true ∧ adminEntry (gated 2000).dev 0 0 = (100, 0) ∧
    runs (.gateChange (.host 0) 0 0x80000001) (gated 2000) (fun t => (gateAt t.dev 0).pending && (gateAt t.dev 0).startReg == 2000 && (gateAt t.dev 0).late) = true ∧
    runs (.gateChange (.host 0) 0 0x80000001) (gated 999) (fun t => !(gateAt t.dev 0).pending && (gateAt t.dev 0).err) = true := by decide +kernel
theorem test_gate_run : runs (.gateListStart 0) (on fun d => setGate { d with time := 5000 } 0 { Gate.reset with pending := true, next := [(100, 1), (200, 2)], nextCycle := 1000, startReg := 5000 }) (fun t =>
      !(gateAt t.dev 0).pending && (gateAt t.dev 0).oper == [(100, 1), (200, 2)] && (gateAt t.dev 0).entry == 0) = true ∧
    runs (.gateEntryAdvance 0) (on fun d => setGate { d with time := 5100 } 0 { Gate.reset with oper := [(100, 1), (200, 2)], cycle := 1000, start := 5000 }) (fun t =>
      (gateAt t.dev 0).entry == 1) = true := by decide +kernel
theorem test_rx : flowFor (switched id).dev (stored 2) = none ∧ runs (.rxDeliver 0) (switched fun d => setQueue d 7 0 [place]) (fun t => (swAt t.dev 7).down == 1) = true ∧
    runs (.rxDeliver 0) (switched fun d => setReg (ringOn 6 0xC000 0 [] (setQueue d 7 0 [place])) 0xA00120 0 0x80000006) (fun t =>
      (ringAt t.dev 6).entries.map (fun e => fieldAt e.data 0 2) == [60, 0, 0] && fieldAt ((ringAt t.dev 6).entries.map (·.data)).flatten 8 8 == 55) = true := by decide +kernel
/-- A NETTX in RAW mode to port 0 that reads ring 6. -/
def nettx0 : WorkOrder := work .nettx .running []
/-- It, with frames that wait and the entries of its ring. -/
def sending (w : List Frame) (es : List Entry) : State :=
  switched fun d => let d := ringOn 6 0 0 es (busy nettx0 d)
    { d with eth := { d.eth with nettx := [(9, { ring := 6, part := [], pend := w, delivered := 0, missed := 0, everMissed := false, taken := 0, rtpSeq := 0, tmpl := [] })] } }
/-- A RAW packet of 60 bytes: its header and its two entries. -/
def raw60 : List Entry :=
  [{ data := record 32 [(0, 2, 60)], sop := true, eop := false }, { data := List.replicate 32 0, sop := false, eop := false }, { data := List.replicate 32 0, sop := false, eop := true }]
theorem test_nettx : woAt (sending [] raw60).dev 9 = some nettx0 ∧ (rawFrame nettx0 (record 32 [(0, 2, 60)]) [List.replicate 32 0, List.replicate 32 0]).isSome = true ∧
    sourcePaused (sending [] raw60).dev 6 0 = false ∧ runs (.nettxPacket 9) (sending [] raw60) (fun t => (tfind 9 t.dev.eth.nettx).map (·.taken) == some 1 && (ringAt t.dev 6).entries == []) = true ∧
    runs (.nettxPacket 9) (sending [{ stored 6 with ticket := some 9 }] []) (fun t => (tfind 9 t.dev.eth.nettx).map (·.pend) == some []) = true ∧
    sourcePaused (on fun d => setReg (setReg d 0x900100 0 0x80000000) 0x900180 1 0).dev 6 0 = true := by decide +kernel
theorem test_eth_cfg : ctlGrant State.reset.dev (.host 0) 0xA00000 4 true = true ∧ ethModeOk 1 3 = true ∧ ethModeOk 1 0 = false ∧
    runs (.ethPortCfgWrite (.host 0) 0 0x9C000000) State.reset (fun t => ethPortCfg t.dev 0 == 0x9C000000) = true ∧
    runs (.ethPortCfgWrite (.host 0) 0 0x90000000) State.reset (fun t => (ethPort t.dev 0).cfgErr) = true := by decide +kernel
/-- Reset with Bond enabled as ID 5 following ID 6 on port 0, with links. -/
def bonded (ring : Bool) (f : Bond → Bond) : State :=
  on fun d => let d := setReg (setReg (setReg d 0xB00000 0 (if ring then 0xC0000005 else 0x80000005)) 0xB00010 0x20010000 0xA0010000) 0xB00020 0x20010000 0xA0010000
    let d := setReg d 0xB00040 0 0x80000006
    { d with time := 1000, bond := f { d.bond with ports := [(0, { BondPort.reset with link := true }), (1, { BondPort.reset with link := true })] } }
theorem test_eth_time : ctlGrant State.reset.dev (.host 0) 0xA00100 8 true = true ∧ bondRole State.reset.dev = 0 ∧ bondRole (bonded false id).dev = 2 ∧
    runs (.ethTimeStep (.host 0) (BitVec.ofInt 64 (-1))) State.reset (fun t => t.dev.time == 2 ^ 64 - 1) = true ∧
    runs (.ethTimeStep (.host 0) 5) (bonded false id) (fun t => t.dev.time == 1000 && t.dev.bond.extErr) = true ∧
    runs (.ethTimeRate (.host 0) 7) State.reset (fun t => ethRate t.dev == 7) = true ∧
    runs (.ethTimeRate (.host 0) 7) (bonded false id) (fun t => t.dev.bond.extErr) = true := by decide +kernel
theorem test_qhwm : runs (.ethQhwmRead (.host 0) 0 3) (on fun d => { d with eth := { d.eth with hwm := [(3, (7, 9))] } }) (fun t =>
    t.dev.out == [.hostData 0 (leBytes 4 0x70009) false] && t.dev.eth.hwm == []) = true ∧ ctlGrant State.reset.dev (.host 0) 0xA01038 4 false = true := by decide +kernel

/-- A Bond frame of a type from ID 6 to a destination. -/
def bframe (dst type ttl : Nat) (body : List Byte) : List Byte := bondFrame 6 dst type ttl 0 false body
theorem test_bond_rx : bondTakes (bonded false id).dev 0 1 (bframe 5 1 1 (record 28 [])) = true ∧
    runs (.bondSyncRx 0 (putByte (bframe 5 1 1 (record 28 [])) 24 1)) (bonded false id) (fun t => (bondPort t.dev 0).bad == 1) = true ∧
    runs (.bondSyncRx 0 (bframe 7 1 3 (record 28 []))) (bonded true id) (fun t => t.dev.out == [.bond 1 (bframe 7 1 2 (record 28 []))]) = true ∧
    runs (.bondSyncRx 0 (bframe 7 1 1 (record 28 []))) (bonded true id) (fun t => (bondPort t.dev 1).fwdDrop == 1) = true ∧
    runs (.bondSyncRx 0 (bframe 5 1 1 (record 28 [(4, 1, 9)]))) (bonded false id) (fun t => (bondPort t.dev 0).seq == 1 && t.dev.out.length == 1) = true := by decide +kernel
/-- A response to a request at 100, received at 603 and sent at 605 by the parent, of which it arrives at 1,000. -/
def answer : List Byte := bframe 5 1 1 (leBytes 1 1 ++ leBytes 3 0 ++ beBytes 8 100 ++ beBytes 8 545 ++ beBytes 8 547)
theorem test_sync : runs (.bondSyncRx 0 answer) (bonded false fun b => { b with st := .locked, asked := [100] }) (fun t =>
    t.dev.bond.offset == 4 && t.dev.bond.delay == 449 && t.dev.bond.st == .locked) = true := by decide +kernel
/-- A SCHED frame for pin 2 with SSEQ 1, base 6,000,000,000 and period 20,000,000. -/
def sched : List Byte := bframe 5 2 1 (leBytes 1 2 ++ leBytes 1 0 ++ beBytes 2 1 ++ beBytes 8 6000000000 ++ beBytes 8 20000000)
theorem test_sched : bondTakes (bonded false id).dev 0 2 sched = true ∧ firstInstant 6000000000 20000000 (6130000000 + 2000) = 6140000000 ∧
    runs (.bondSchedRx 0 sched) { bonded false id with dev := { (bonded false id).dev with time := 6130000000, ingest := { (bonded false id).dev.ingest with trigs := [(2, trig0)] } } } (fun t =>
      (tfind 2 t.dev.ingest.trigs).map (·.next) == some (some (6140000000, 6000000000, 20000000))) = true ∧
    runs (.bondSchedRx 0 sched) (bonded false fun b => { b with rx := [(2, { valid := true, late := false, sseq := 1 })] }) (fun t => (schedRx t.dev 2).sseq == 1) = true := by decide +kernel
/-- A MSG frame for a channel. -/
def msg (c kind v : Nat) : List Byte := bframe 5 3 1 (leBytes 1 c ++ leBytes 1 kind ++ beBytes 2 0 ++ beBytes 4 v)
theorem test_msg : bondTakes (bonded false id).dev 0 3 (msg 4 1 9) = true ∧ runs (.bondMsgRx 0 (msg 4 1 9)) (bonded false id) (fun t => !(mboxAt t.dev 4).full && t.dev.out.length == 1) = true ∧
    runs (.bondMsgRx 0 (msg 4 1 9)) { bonded false id with dev := setReg (bonded false id).dev 0xB00050 0 16 } (fun t => (mboxAt t.dev 4).full && (mboxAt t.dev 4).word == 9) = true ∧
    runs (.bondMsgRx 0 (msg 4 2 9)) { bonded false id with dev := setReg (bonded false id).dev 0xB00050 0 16 } (fun t => (mboxAt t.dev 4).db == 9) = true := by decide +kernel
/-- A word on its way over proxy channel 0 to channel 4 of ID 6. -/
def pmsg : ProxyMsg := { seq := 3, port := 0, word := true, dest := 6, body := leBytes 1 4 ++ leBytes 1 1 ++ leBytes 6 0, at_ := 0, tries := 0 }
theorem test_proxy : runs (.bondMsgRx 0 (bframe 5 3 1 (leBytes 1 4 ++ leBytes 1 3 ++ beBytes 2 3 ++ leBytes 4 0))) (bonded false fun b => { b with proxies := [(0, { Proxy.reset with msgs := [pmsg] })] }) (fun t =>
      (proxyAt t.dev 0).msgs == []) = true ∧
    runs (.proxyRetransmit 0) (bonded false fun b => { b with proxies := [(0, { Proxy.reset with msgs := [pmsg] })] }) (fun t => (proxyAt t.dev 0).msgs == [{ pmsg with at_ := 20000, tries := 1 }]) = true ∧
    runs (.proxyRetransmit 0) (bonded false fun b => { b with proxies := [(0, { Proxy.reset with msgs := [{ pmsg with tries := 3 }] })] }) (fun t =>
      proxyAt t.dev 0 == { msgs := [], err := true, reason := 3 }) = true := by decide +kernel
theorem test_stream : (let s := { bonded false id with dev := { (bonded false id).dev with sw := (switched id).dev.sw, regs := (switched id).dev.regs ++ (bonded false id).dev.regs } }
    bondTakes s.dev 0 4 (bframe 5 4 1 frame60) = true ∧ classOf s.dev 4 frame60 = 0 ∧ fwdPorts s.dev frame60 = 1 ∧
    runs (.bondStreamRx 0 (bframe 5 4 1 frame60)) s (fun t => (queueAt t.dev 0 0).map (·.frame) == [5]) = true) := by decide +kernel
theorem test_sync_send : runs .syncRequestSend (bonded false id) (fun t => t.dev.bond.asked == [1000] && t.dev.bond.reqAt == 62500000) = true ∧ parentPort (bonded false id).dev = 0 ∧
    runs .bondHoldoverTimeout { bonded false (fun b => { b with st := .locked }) with dev := { (bonded false (fun b => { b with st := .locked })).dev with up := 1000000000 } } (fun t =>
      t.dev.bond.st == .holdover) = true := by decide +kernel
theorem test_sched_go : ctlGrant State.reset.dev (.host 0) 0xB00090 4 true = true ∧
    runs (.bondSchedGo (.host 0) 0x91000006) { bonded false id with dev := setReg (bonded false id).dev 0xB00088 0 20000000 } (fun t => tget 0 2 t.dev.bond.sseqs == 1 &&
      t.dev.bond.reps.length == 1 && t.dev.out.length == 2) = true ∧
    runs (.bondSchedGo (.host 0) 0x91000006) (bonded false id) (fun t => bitOf (reg t.dev 0xB00090 0x42000000) 29 && t.dev.bond.reps == []) = true := by decide +kernel
theorem test_sched_repeat : runs .bondSchedRepeat (bonded false fun b => { b with reps := [{ body := [1], left := 2, at_ := 0, bcast := false, dest := 6 }] }) (fun t =>
      t.dev.bond.reps == [{ body := [1], left := 1, at_ := 10000, bcast := false, dest := 6 }]) = true ∧
    runs (.bondLinkDown 0) (bonded false fun b => { b with st := .locked }) (fun t => !(bondPort t.dev 0).link && t.dev.bond.st == .holdover) = true := by decide +kernel

/-! The host port, Keystone, faults, reset, power, registers, the block's step. -/

/-- Function 0 with its link in L0, MSI-X enabled, and a vector. -/
def hosted (f : Func) (v : Vec) (l : HLink) : State :=
  on fun d => let d := setVec (setFunc d 0 f) 0 3 v
    { d with host := { d.host with link := l, perst := false }, crp := { d.crp with stage := 3 } }
theorem test_msix_timer : runs (.msixTimerExpire 0 3) (hosted { Func.reset with msixEn := true } { Vec.reset with addr := 8, data := 5, masked := false, count := 1, timer := some 0 } .l0) (fun t =>
      t.dev.out == [.msix 0 3 8 5]) = true ∧
    runs (.msixTimerExpire 0 3) (hosted { Func.reset with msixEn := true } { Vec.reset with count := 1, timer := some 0 } .l0) (fun t => (vecAt t.dev 0 3).due) = true ∧
    canSend (hosted { Func.reset with msixEn := true } Vec.reset .l0).dev 0 = true := by decide +kernel
theorem test_host_link : runs .linkL0Entry (hosted { Func.reset with msixEn := true } { Vec.reset with addr := 8, masked := false, due := true } .l1) (fun t =>
      t.dev.host.link == .l0 && t.dev.out.contains (.msix 0 3 8 0)) = true ∧
    runs .linkL1Entry (hosted Func.reset Vec.reset .l0) (fun t => t.dev.host.link == .l1) = true ∧
    runs .pmeTurnOff State.reset (fun t => t.dev.host.pmeOff && t.dev.out == [.pmeAck]) = true := by decide +kernel
theorem test_d3 : cfgServed (hosted Func.reset Vec.reset .l0).dev 0 = true ∧ runs (.d3hotEntry 0) (hosted Func.reset Vec.reset .l0) (fun t => (funcAt t.dev 0).d == .d3hot) = true ∧
    runs (.d0Entry 0) (hosted { Func.reset with d := .d3hot, msixEn := true } { Vec.reset with addr := 8, masked := false, due := true } .l0) (fun t =>
      (funcAt t.dev 0).d == .d0 && t.dev.out == [.msix 0 3 8 0]) = true := by decide +kernel
theorem test_perst : runs .hostPerstAssert (hosted { Func.reset with d := .d3hot } Vec.reset .l0) (fun t => t.dev.host.perst && (funcAt t.dev 0).d == .d3cold && t.dev.host.link == .down) = true ∧
    runs .hostPerstAssert (hosted Func.reset Vec.reset .l0) (fun t => (funcAt t.dev 0).flr && (funcAt t.dev 5).flr) = true ∧
    runs .hostPerstRelease (on fun d => { setFunc d 0 { Func.reset with d := .d3cold } with host := { (setFunc d 0 { Func.reset with d := .d3cold }).host with perst := true } }) (fun t =>
      !t.dev.host.perst && (funcAt t.dev 0).d == .d0) = true ∧
    runs (.ideTlpFail 2) (on fun d => setIde d 2 { open_ := true, secure := true, key := 7 }) (fun t => ideAt t.dev 2 == { open_ := true, secure := false, key := 7 } &&
      t.dev.plumb.recs.any (fun e => e.2.source == 434 && e.2.detail == 2)) = true := by decide +kernel
/-- Two VFs. -/
def vfs (f : Device → Device) : State :=
  on fun d => f { d with host := { d.host with vfEnable := true, numVfs := 2 }, crp := { d.crp with stage := 3 } }
theorem test_flr : funcOn (vfs id).dev 2 = true ∧ runs (.flrInitiate 2) (vfs fun d => setVec d 2 1 { Vec.reset with due := true }) (fun t => (funcAt t.dev 2).flr && !(vecAt t.dev 2 1).due) = true ∧
    flrQuiet (vfs id).dev 2 = true ∧
    runs (.flrComplete 2) (vfs fun d => setBuf (setFunc (yardOf 0x8000 d) 2 { Func.reset with flr := true }) 0 { Buf.reset with st := .owned, owner := 0x8002, gen := 1 }) (fun t =>
      !(funcAt t.dev 2).flr && t.dev.pfLost == 1 && (bufAt t.dev 0).st == .free) = true ∧
    runs (.flrComplete 0) (vfs fun d => setFunc d 0 { Func.reset with flr := true, flrPf := true }) (fun t => !t.dev.host.vfEnable && t.dev.host.numVfs == 0) = true := by decide +kernel
theorem test_vf_enable : cfgServed (vfs id).dev 0 = true ∧ runs .vfEnableSet (vfs fun d => { d with host := { d.host with vfEnable := false } }) (fun t => t.dev.host.vfEnable) = true ∧
    runs .vfEnableClear (vfs id) (fun t => !t.dev.host.vfEnable && (funcAt t.dev 2).flr && !(funcAt t.dev 3).flr) = true ∧
    runs (.woLastPfFlrRead (.host 0)) (on fun d => { d with pfLost := 3, pfCancelled := 7 }) (fun t => t.dev.out == [.hostData 0 (leBytes 4 0x3000007) false] && t.dev.pfLost == 0) = true ∧
    ctlGrant State.reset.dev (.host 0) 0x20C 4 false = true := by decide +kernel
/-- Keystone booted, and the responder's state. -/
def attested (x : Spdm) : State := on fun d => { d with ks := { d.ks with bootOk := true }, host := { d.host with spdm := x } }
/-- The responder with a session. -/
def session : Spdm := { version := true, caps := true, algs := true, handshake := true, session := true, key := 5, transcript := [] }
theorem test_spdm : ksUp (attested session).dev = true ∧ ksUp State.reset.dev = false ∧ runs (.getVersion [1]) (attested session) (fun t => t.dev.host.spdm.version && !t.dev.host.spdm.caps && t.dev.out.length == 1) = true ∧
    runs (.getCapabilities []) (attested session) (fun t => t.dev.host.spdm.caps) = true ∧ runs (.negotiateAlgorithms [] true) (attested session) (fun t => t.dev.host.spdm.algs) = true ∧
    runs (.challenge [] 0) (attested { session with algs := false }) (fun t => t.dev.out == [.spdm (spdmMsg 0x7F 4 0 [])]) = true ∧
    runs (.getMeasurements [] 6 true) (attested session) (fun t => t.dev.out == [.spdm (spdmMsg 0x7F 1 0 [])]) = true := by decide +kernel
theorem test_spdm_session : runs (.finish [] true) (attested { session with session := false }) (fun t => t.dev.host.spdm.session && !t.dev.host.spdm.handshake) = true ∧
    runs (.endSession []) (attested session) (fun t => !t.dev.host.spdm.session && t.dev.host.spdm.key == 0) = true ∧
    runs (.ideKm 2 1 77) (attested session) (fun t => (ideAt t.dev 1).key == 77) = true ∧ runs (.ideKm 4 1 0) (attested session) (fun t => (ideAt t.dev 1).secure) = true ∧
    runs (.doeDiscovery 2) State.reset (fun t => t.dev.out == [.doe [1, 0, 2, 0]]) = true := by decide +kernel
theorem test_qp : qpOn (on fun d => { d with crp := { d.crp with resetHeld := false } }).dev = true ∧ qpOn (on fun d => { d with crp := { d.crp with resetHeld := true } }).dev = false ∧
    runs (.qpRead 0) State.reset (fun t => t.dev.out == [.qp 0x4960A100]) = true ∧
    runs .qpReadTimeLo (on fun d => { d with time := 0x500000007 }) (fun t => t.dev.out == [.qp 7] && t.dev.qpLatch == 5) = true ∧
    runs (.qpDoorbellWrite 0x803 6 false) State.reset (fun t => (mboxAt t.dev 3).db == 6) = true ∧ runs (.qpDoorbellWrite 0x823 6 false) State.reset (fun t => t.dev.qpRefused == 1 &&
      t.dev.plumb.recs.any (fun e => e.2.source == 441)) = true ∧
    runs (.qpTriggerWrite 0x905 9 false) State.reset (fun t => tget 0 5 t.dev.qpTrig == 9 && t.dev.intc.latch.contains 117) = true := by decide +kernel
/-- Sources 112 and 113 pending and enabled towards target 2. -/
def pending2 (a : Table Nat) : State :=
  on fun d => { d with intc := { d.intc with latch := [113, 112], en := [112, 113], active := a, cfg := [(112, 3 * 2 ^ 24 + 2 * 2 ^ 20), (113, 3 * 2 ^ 24 + 2 * 2 ^ 20)] } }
theorem test_claim : intcDeliverable (pending2 []).dev 112 = true ∧ intcCovers (pending2 []).dev 2 113 = true ∧ intcCovers (pending2 []).dev 3 113 = false ∧
    ctlGrant (pending2 []).dev (.host 0) (claimOff (pending2 []).dev (.host 0) 2) 4 false = true ∧ runs (.intcClaim (.host 0) 2) (pending2 []) (fun t => t.dev.out == [.hostData 0 (leBytes 4 0x80000070) false] &&
      t.dev.intc.latch == [113] && tfind 112 t.dev.intc.active == some 2) = true ∧
    runs (.intcClaim (.host 0) 3) (pending2 []) (fun t => t.dev.intc.emptyClaims == 1) = true := by decide +kernel
theorem test_complete_irq : runs (.intcComplete (.host 0) 2 0x80000070) (pending2 [(112, 2)]) (fun t => t.dev.intc.active == [] && t.dev.intc.noCause == 1) = true ∧
    runs (.intcComplete (.host 0) 3 0x80000070) (pending2 [(112, 2)]) (fun t => t.dev.intc.active == [(112, 2)] && t.dev.intc.noCause == 0) = true ∧
    ctlGrant State.reset.dev (.host 0) (claimOff State.reset.dev (.host 0) 2 + 4) 4 true = true := by decide +kernel
theorem test_irq_bits : ctlGrant State.reset.dev (.host 0) 0x30018C 4 true = true ∧ runs (.intcPendSet (.host 0) 3 0x10000) State.reset (fun t => t.dev.intc.latch == [112]) = true ∧
    runs (.intcPendClr (.host 0) 3 0x10000) (pending2 []) (fun t => t.dev.intc.latch == [113]) = true ∧ runs (.intcEnSet (.host 0) 3 0x10000) State.reset (fun t => t.dev.intc.en.contains 112) = true ∧
    runs (.intcEnClr (.host 0) 3 0x10000) (pending2 []) (fun t => t.dev.intc.en == [113]) = true ∧ runs (.intcEvent 112) State.reset (fun t => t.dev.intc.latch == [112]) = true ∧
    ctlGrant State.reset.dev (.host 0) 0x30000C 4 true = true ∧ intcLost State.reset.dev 112 = false := by decide +kernel
theorem test_mbx : isProxy State.reset.dev 5 = false ∧ ctlGrant State.reset.dev (.host 0) 0x4000A4 4 true = true ∧
    runs (.mbxSendWrite (.host 0) 5 9) State.reset (fun t => mboxAt t.dev 5 == { Mbox.reset with word := 9, full := true, db := 0x80000000 }) = true ∧
    runs (.mbxSendWrite (.host 0) 5 9) (on fun d => setMbox d 5 { Mbox.reset with word := 4, full := true }) (fun t => (mboxAt t.dev 5).drop && (mboxAt t.dev 5).word == 4) = true ∧
    runs (.mbxRecvRead (.host 0) 5) (on fun d => setMbox d 5 { Mbox.reset with word := 4, full := true }) (fun t => t.dev.out == [.hostData 0 (leBytes 8 0x100000004) false] &&
      !(mboxAt t.dev 5).full && t.dev.intc.latch.contains 325) = true ∧
    runs (.mbxDbSet (.host 0) 5 6) State.reset (fun t => (mboxAt t.dev 5).db == 6) = true ∧
    runs (.mbxDbClr (.host 0) 5 2) (on fun d => setMbox d 5 { Mbox.reset with db := 6 }) (fun t => (mboxAt t.dev 5).db == 4) = true ∧
    secureOk State.reset.dev .keystone = true := by decide +kernel
theorem test_mbx_secure :
    runs (.mbxSendWrite (.host 0) 40 9) State.reset (fun t => t.dev.plumb.recs.any (fun e => e.2.source == 441) && (mboxAt t.dev 40).word == 0) = true ∧
    funcOn State.reset.dev 0 = true ∧ funcBusy State.reset.dev 0 = false ∧
    runs (.mbxSendWrite (.holt 0) 40 9) (holt []) (fun t => t.dev.threadRecs.map (fun r => (r.cause, r.detail)) == [(7, 0)]) = true := by decide +kernel
theorem test_cross : ctlGrant State.reset.dev (.host 0) 0x400800 4 true = true ∧ crossTimeout State.reset.dev = 100000 ∧
    runs (.mbxCrossClear (.host 0) 0xFFFFFFFF) (on fun d => { d with mbox := { d.mbox with cross := 0x20001 } }) (fun t => t.dev.mbox.cross == 0x20000) = true ∧
    runs (.mbxCrossTimeout 1) (on fun d => { d with up := 100001, mbox := { d.mbox with since := [(1, 0)] } }) (fun t => t.dev.mbox.cross == 2 && t.dev.mbox.since == []) = true ∧
    runs (.mbxCrossTimeout 1) (on fun d => { d with up := 100000, mbox := { d.mbox with since := [(1, 0)] } }) (fun t => t.dev.mbox.cross == 0) = true := by decide +kernel

/-- Keystone work of an operation over `mag`, with clip-key slot 1 in use, and bytes in buffer 0. -/
def ksWork (k : WoKind) (op : Nat) (more : List (Nat × Nat × Nat)) (b : List Byte) : State :=
  { mag (work k .queued (more ++ [(64, 1, op), (68, 4, 1)])) none with dev := poke 0x10000 b (mag (work k .queued (more ++ [(64, 1, op), (68, 4, 1)])) none).dev }
theorem test_clip_new : (ksNext (ksWork .keyop 1 [] []).dev 9 .keyop 1).isSome = true ∧ keyClip fuses1 (ksWork .keyop 1 [] []).dev = true ∧ freeKeySlot (ksWork .keyop 1 [] []).dev = some 0 ∧
    runs (.clipNew 9) (ksWork .keyop 1 [] []) (fun t => owed t == [(9, true, 0)] && (slotAt t.dev 0).isSome) = true ∧
    runs (.clipNew 9) { ksWork .keyop 1 [] [] with fuses := State.reset.fuses } (fun t => owed t == [(9, true, 0x71)]) = true := by decide +kernel
theorem test_destroy : runs (.destroy 9) (ksWork .keyop 4 [] []) (fun t => slotAt t.dev 1 == none && owed t == [(9, true, 0)]) = true ∧
    runs (.destroy 9) (ksWork .keyop 4 [(68, 4, 2)] []) (fun t => owed t == [(9, true, 0x71)]) = true := by decide +kernel
theorem test_wrap : runs (.wrap 9) (ksWork .keyop 2 [] []) (fun t => owed t == [(9, true, 0x71)]) = true ∧ storable (ksWork .keyop 2 [] []).dev 32 handle0 0 5288 = true ∧
    keyDsk fuses1 (ksWork .keyop 2 [] []).dev = true ∧
    (slotAt (ksWork .keyop 2 [] []).dev 1).map (fun x => (x.func, x.imported, x.clipId.length)) = some (0, false, 16) := by decide +kernel
/-- A recipient record that signer 1 has signed, valid until 77. -/
def recip77 : List Byte := record 200 [(0, 4, 0x50434552), (4, 2, 1), (6, 1, 1), (24, 8, 77)]
theorem test_enrol : loadable (ksWork .keyop 3 [(88, 4, handle0)] []).dev 32 handle0 0 5160 = true ∧ recipOk recip77 = true ∧ keySigner fuses1 1 = true ∧
    runs (.enrol 9 (sig true)) (ksWork .keyop 3 [(88, 4, handle0)] recip77) (fun t => (t.dev.ks.recips.map (fun e => e.2.notAfter)) == [77] && owed t == [(9, true, 0)]) = true ∧
    runs (.enrol 9 (sig false)) (ksWork .keyop 3 [(88, 4, handle0)] recip77) (fun t => owed t == [(9, true, 0x70)]) = true := by decide +kernel
/-- A key import record for key 6. -/
def import6 : List Byte := record 200 [(0, 4, 0x594B5257), (4, 2, 1), (40, 4, 6)]
theorem test_import : loadable (ksWork .keyop 5 [(88, 4, handle0)] import6).dev 32 handle0 0 12496 = true ∧
    (ksNext (ksWork .keyop 5 [(88, 4, handle0)] import6).dev 9 .keyop 5).isSome = true ∧
    runs (.keyImport 9 (imp true)) { ksWork .keyop 5 [(88, 4, handle0)] import6 with fuses := State.reset.fuses } (fun t => owed t == [(9, true, 0x71)]) = true := by decide +kernel
theorem test_keyop_region : runs (.region 9) (ksWork .keyop 6 [(66, 1, 3), (67, 1, 0), (104, 4, 0), (108, 4, 0)] [7]) (fun t => (regionRegs t.dev 3).1 == 0x80000000 &&
      cellAt 0x10000 t.dev.mem.cells == none) = true ∧
    runs (.region 9) (ksWork .keyop 6 [(66, 1, 3), (67, 1, 0), (104, 4, 1), (108, 4, 0)] [7]) (fun t => owed t == [(9, true, 0x31)]) = true := by decide +kernel
theorem test_sign : (ksNext (ksWork .seal 1 [(72, 4, handle0), (80, 4, 3), (84, 4, handle0), (88, 4, 0x1000)] [1, 2, 3]).dev 9 .seal 1).isSome = true ∧
    keyDsk fuses1 (ksWork .seal 1 [] []).dev = true ∧ runs (.sign 9) { ksWork .seal 1 [(72, 4, handle0), (80, 4, 3), (84, 4, handle0), (88, 4, 0x1000)] [1, 2, 3] with fuses := State.reset.fuses } (fun t =>
      owed t == [(9, true, 0x71)]) = true ∧ storable (ksWork .seal 1 [] []).dev 32 handle0 0x1000 3656 = true := by decide +kernel
theorem test_open_record : runs (.openRecord 9) (ksWork .seal 2 [(72, 4, handle0), (84, 4, handle0), (88, 4, 0x4000)] (record 256 [(0, 4, 0x44435247), (40, 4, 1), (56, 8, 16), (76, 4, 1)])) (fun t =>
      owed t == [(9, true, 0x70)]) = true ∧ recBlocks 16 = 1 := by decide +kernel
theorem test_arb : ctlGrant State.reset.dev (.host 0) 0x100050 4 true = true ∧
    runs (.ksArbCommit (.host 0) 1 true) (on fun d => { d with ks := { d.ks with run := [(1, 5)] } }) (fun t => arbCount t.fuses 1 == 5 && arbCount t.fuses 0 == 0) = true ∧
    runs (.ksArbCommit (.host 0) 1 true) State.reset (fun t => arbCount t.fuses 1 == 0) = true := by decide +kernel
/-- Life-cycle requests for PROVISIONED, in a buffer of the PF. -/
def lcAsk (b : List Byte) : State := on fun d => poke 0x10000 b (setReg (yardOf 0x8000 d) 0x100020 0 handle0)
/-- A request for a target by signer 1. -/
def lc0 (target : Nat) : List Byte := record 128 [(0, 4, 0x51434C51), (4, 2, 1), (6, 1, target), (7, 1, 1)]
theorem test_lc : ctlGrant (lcAsk []).dev (.host 0) 0x100024 4 true = true ∧ handleStatus (lcAsk []).dev 0x8000 handle0 = 0 ∧ loadable (lcAsk []).dev 32 handle0 0 3584 = true ∧
    lcImageOk (lc0 1) = true ∧ lcPermitted State.reset.fuses 1 1 = true ∧ lcPermitted State.reset.fuses 2 1 = false ∧
    runs (.lcRequestGo (.host 0) (sig false)) (lcAsk (lc0 1)) (fun t => t.dev.ks.lcStatus == 0x70) = true ∧ runs (.lcRequestGo (.host 0) (sig true)) (lcAsk (lc0 2)) (fun t => t.dev.ks.lcStatus == 0x71) = true ∧
    runs (.lcRequestGo (.host 0) (sig true)) (on fun d => d) (fun t => t.dev.ks.lcStatus == 0x43) = true := by decide +kernel
/-- A request in progress. -/
def lcIn (r : LcReq) : State := on fun d => poke 0x10000 [1] { d with ks := { d.ks with req := some r } }
theorem test_lc_done : runs .lcRequestDone (lcIn { target := 1, maker := 0, wiped := true, blowing := false }) (fun t => t.dev.mem.cells == [] && t.dev.ks.req.any (·.blowing)) = true ∧
    runs .lcRequestDone (lcIn { target := 1, maker := 0, wiped := true, blowing := true }) (fun t => lcState t.fuses == some 1 && bitOf t.dev.crp.cause 29 && t.dev.ks.req == none) = true ∧
    runs .lcRequestDone (lcIn { target := 0x10, maker := 9, wiped := false, blowing := true }) (fun t => t.fuses.makerSet && t.fuses.makerHash == 9) = true := by decide +kernel
/-- What a state shows after a step. -/
def stepped (s : State) (p : State → Bool) : Bool := match step s with | .next t => p t | _ => false
theorem test_progress_register :
    (progressPut (on id).dev 33 0 (some 0x0F0000000300) 3 5).posted = [(0, 0x300, 5 + 3 * 2 ^ 32)] ∧
    stepped (on fun d => { d with posted := [(0, 0x300, 5 + 3 * 2 ^ 32)] }) (fun t => reg t.dev 0x300 0 == 5 && reg t.dev 0x304 0 == 3 && t.dev.posted == []) = true ∧
    ctlGrant (on id).dev (.host 1) 0x300 8 true = false ∧ secureShut (on id).dev (.host 1) 0x300 = false ∧
    stepped (on fun d => { d with posted := [(1, 0x300, 5)] }) (fun t => reg t.dev 0x300 0 == 0 && t.dev.posted == []) = true := by decide +kernel

theorem test_tamper : bitOf (tamperEn State.reset.fuses (on fun d => { d with ks := { d.ks with tamperEn := 2 } }).dev) 1 = true ∧
    runs (.tamperEvent 1) (on fun d => poke 0x10000 [1] { d with ks := { d.ks with tamperEn := 2 } }) (fun t => t.dev.ks.latched && t.dev.ks.tamper == 2 && t.dev.mem.absWiping && t.dev.mem.cells == [] &&
      t.dev.plumb.recs.any (fun e => e.2.source == 438)) = true ∧
    runs (.tamperEvent 5) (on fun d => poke 0x080000000000 [1] d) (fun t => cellAt 0x080000000000 t.dev.mem.cells == some 1) = true ∧
    runs (.tamperEvent 1) State.reset (fun t => !t.dev.ks.latched) = true ∧ runs (.tamperEvent 5) State.reset (fun t => t.dev.ks.latched) = true := by decide +kernel

/-- An open record of source 5 in slot 0. -/
def rec5 (cls : Nat) : PlumbRec :=
  { firstTime := 0, lastTime := 0, source := 5, cls := cls, merged := false, raised := false, count := 1, detail := 3, int := false, nmi := false, fault := false }
/-- Reset with Plumb changed. -/
def plumbed (f : Plumb → Plumb) : State := on fun d => { d with up := 5, plumb := f d.plumb }
theorem test_plumb_new : openSlot State.reset.dev 445 = none ∧ freeSlot State.reset.dev.plumb.recs 56 = some 0 ∧ bitsOf (plumbCfg State.reset.dev 445) 23 16 = 0 ∧
    runs (.plumbEvent 445 8) State.reset (fun t => (tfind 0 t.dev.plumb.recs).map (fun r => (r.source, r.detail, r.count)) == some (445, 8, 1)) = true ∧
    runs (.fabricTimeout 3) State.reset (fun t => (tfind 0 t.dev.plumb.recs).map (fun r => (r.source, r.detail)) == some (444, 3)) = true := by decide +kernel
theorem test_plumb_merge : openSlot (plumbed fun p => { p with recs := [(0, rec5 1)] }).dev 5 = some 0 ∧
    runs (.plumbEvent 5 9) (plumbed fun p => { p with recs := [(0, rec5 1)] }) (fun t => (tfind 0 t.dev.plumb.recs).map (fun r => (r.merged, r.detail, r.count)) == some (true, 9, 2)) = true := by
  decide +kernel
theorem test_plumb_full : runs (.plumbEvent 445 8) (plumbed fun p => { p with recs := (upto 0 64).map (fun i => (i, rec5 4)), cfg := [(445, 0)] }) (fun t => t.dev.plumb.ovf) = true ∧
    runs (.plumbEvent 445 8) (plumbed fun p => { p with cfg := [(445, 3 * 2 ^ 29)] }) (fun t => t.dev.plumb.chip == some 445) = true := by decide +kernel
theorem test_plumb_esc : runs (.plumbEvent 445 8) (plumbed fun p => { p with cfg := [(445, 2 * 2 ^ 16 + 1)] }) (fun t => escAt t.dev 445 == { count := 1, start := 5, raise := 0 }) = true ∧
    runs (.plumbEvent 445 8) (plumbed fun p => { p with cfg := [(445, 2 * 2 ^ 16 + 1)], esc := [(445, { count := 1, start := 5, raise := 0 })] }) (fun t =>
      escAt t.dev 445 == { count := 0, start := 5, raise := 1 }) = true := by decide +kernel
theorem test_plumb_close : ctlGrant State.reset.dev (.host 0) 0x200008 4 true = true ∧ runs (.plumbRecClose (.host 0) 0) (plumbed fun p => { p with recs := [(0, rec5 1)] }) (fun t => t.dev.plumb.recs == []) = true ∧
    runs (.plumbRecClose (.host 0) 0) (plumbed fun p => { p with recs := [(0, rec5 4)] }) (fun t => t.dev.plumb.recs.length == 1) = true ∧
    runs (.plumbSrcClear (.host 0) 7) (plumbed fun p => { p with esc := [(7, { count := 1, start := 5, raise := 1 })] }) (fun t => t.dev.plumb.esc == []) = true ∧
    ctlGrant State.reset.dev (.host 0) 0x20201C 4 true = true := by decide +kernel
theorem test_wdog : ctlGrant State.reset.dev (.host 0) 0x200014 4 true = true ∧ runs (.wdogKick (.host 0) 0x4B1C) (plumbed fun p => { p with wdEn := true, wdMs := 3, wdSecond := true }) (fun t =>
      t.dev.plumb.wdAt == 3000005 && !t.dev.plumb.wdSecond) = true ∧
    runs (.wdogKick (.host 0) 1) State.reset (fun t => t.dev.plumb.wdBad == 1) = true ∧
    runs .wdogExpire (plumbed fun p => { p with wdEn := true, wdMs := 3, wdAt := 5 }) (fun t => t.dev.plumb.wdSecond && t.dev.plumb.recs.any (fun e => e.2.source == 445)) = true ∧
    runs .wdogExpire (plumbed fun p => { p with wdEn := true, wdMs := 3, wdAt := 5, wdSecond := true }) (fun t => t.dev.plumb.wdStopped && t.dev.plumb.recs.any (fun e => e.2.source == 446)) = true := by
  decide +kernel
theorem test_temp_tap : runs (.tempUpdate 0x1900) State.reset (fun t => t.dev.temp == 0x1900 && t.dev.tempValid) = true ∧ runs (.tapInstruction .idcode) State.reset (fun t =>
      t.dev.out == [.tap 0x14960557]) = true ∧
    runs (.tapInstruction .extest) State.reset (fun t => t.dev.tap.bypass == !State.reset.dev.crp.resetHeld) = true ∧
    runs (.topTimeReadLo (.host 0)) (on fun d => { d with time := 0x300000002 }) (fun t => tget 0 0 t.dev.timeLatch == 3 && t.dev.out == [.hostData 0 [2, 0, 0, 0] false]) = true ∧
    ctlGrant State.reset.dev (.host 0) 8 4 false = true := by decide +kernel
theorem test_perf_ctl : ctlGrant State.reset.dev (.host 0) 0x500000 4 true = true ∧ runs (.perfFreeze (.host 0) true) State.reset (fun t => bitOf (reg t.dev 0x500000 0) 30) = true ∧
    runs (.perfClear (.host 0)) (on fun d => { d with perf := { d.perf with cnt := [(3, 9)] } }) (fun t => t.dev.perf.cnt == []) = true := by decide +kernel
theorem test_perf_dump : runs .perfDump (on fun d => setReg (setRing { d with time := 5, perf := { d.perf with cnt := [(1, 9)], dumpAt := 5 } } 5 { Ring.reset with producer := 0xC000, en := true, sizeLog2 := 8 }) 0x500004 1000 0x800503E8) (fun t =>
      (ringAt t.dev 5).entries.length == 129 && ((ringAt t.dev 5).entries.map (fun e => fieldAt e.data 8 8)).take 2 == [5, 9] && t.dev.perf.dumps == 1) = true ∧
    runs .perfDump (on fun d => setReg { d with time := 5, perf := { d.perf with dumpAt := 5 } } 0x500004 1000 0x800503E8) (fun t => t.dev.perf.dumpLost == 1) = true := by decide +kernel
/-- A sample of counter 4. -/
def sample4 : PerfSample := { counter := 4, flags := 1, time := 6, where0 := 7, where1 := 8 }
theorem test_perf_sample : runs .perfSample (on fun d => setReg (ringOn 5 0xC000 0 [] { d with perf := { d.perf with samples := [sample4] } }) 0x500008 0 0x80000005) (fun t =>
      (ringAt t.dev 5).entries.map (fun e => (fieldAt e.data 0 4, fieldAt e.data 4 2)) == [(0xFFFFFC01, 4)] && t.dev.perf.samples == []) = true ∧
    runs .perfSample (on fun d => { d with perf := { d.perf with samples := [sample4] } }) (fun t => t.dev.perf.sampleLost == 1) = true ∧
    runs .perfBwWindow (on fun d => setReg { d with time := 5, perf := { d.perf with rd := [(0, 7)], winAt := 5 } } 0x500018 1000 0x800003E8) (fun t => t.dev.perf.lastRd == [(0, 7)] && t.dev.perf.rd == []) = true := by
  decide +kernel

theorem test_por : (match exec (.por false) State.reset with | .fault e => e == .aonUndefined | _ => false) = true ∧ runs (.por true) (on fun d => { d with time := 9, up := 9 }) (fun t => t.dev.time == 0 && t.dev.crp.resetHeld && t.dev.crp.cause == 0x80000000) = true ∧
    lcBlowing State.reset.dev = none := by decide +kernel
theorem test_cold : runs (.coldReset true) (plumbed fun p => { p with recs := [(0, rec5 1), (1, rec5 4)] }) (fun t => t.dev.plumb.recs.map (·.1) == [1] && bitOf t.dev.crp.cause 30) = true ∧
    runs (.coldReset false) (on fun d => { d with crp := { d.crp with resetHeld := true } }) (fun t => !t.dev.crp.resetHeld) = true := by decide +kernel
/-- Reset with RESET_N high, changed. -/
def released (f : Device → Device) : State := on fun d => f { d with crp := { d.crp with resetHeld := false, xspiLow := none } }
theorem test_warm : runs .warmReset (released fun d => { d with time := 7, crp := { d.crp with pending := true } }) (fun t => t.dev.time == 7 && bitOf t.dev.crp.cause 28 && !t.dev.crp.pending) = true ∧
    runs .warmReset (released fun d => { d with plumb := { d.plumb with chip := some 3 } }) (fun t => t.dev.plumb.causeChip && t.dev.plumb.causeSource == 3 && bitOf t.dev.crp.cause 27) = true ∧
    ctlGrant State.reset.dev (.host 0) 0x6000010 4 true = true ∧ isAdmin State.reset.dev (.host 0) = true ∧
    runs (.crpResetCtrlWarm (.host 0) 0x57520001) State.reset (fun t => t.dev.crp.pending) = true ∧ runs (.crpResetCtrlWarm (.host 0) 0x57530001) State.reset (fun t => !t.dev.crp.pending) = true := by
  decide +kernel
/-- A firmware copy of version 1. -/
def copy1 (ok : Bool) : BootCopy := { bytes := record 64 [(0, 4, 0x5453594B), (4, 2, 1), (8, 4, 64), (12, 4, 1)], sigOk := sig ok }
/-- The same with a header that no copy has, whose signatures are not checked. -/
def noCopy : BootCopy := { bytes := record 64 [], sigOk := sig false }
/-- A boot flash with octal reads of 20 dummy cycles at 100 MHz. -/
def flash0 : BootFlash := { header := record 16 [(0, 4, 0x48445142), (4, 1, 1), (5, 2, 100)], octal := some 20 }
theorem test_boot : runs (.zeroDone true) (released id) (fun t => t.dev.crp.zeroDone && t.dev.crp.xtalOk) = true ∧ lcState State.reset.fuses = some 0 ∧
    runs (.bootStageAdvance (.firmware flash0 (copy1 true) noCopy noCopy)) (released id) (fun t => t.dev.crp.stage == 1 && t.dev.crp.xspi == .octal 100 20) = true ∧
    runs (.bootStageAdvance (.firmware flash0 noCopy (copy1 true) noCopy)) (released id) (fun t => t.dev.ks.copy == 1 && t.dev.plumb.recs.any (fun e => e.2.source == 435)) = true ∧
    runs (.bootStageAdvance (.firmware flash0 noCopy (copy1 false) noCopy)) (released id) (fun t => t.dev.crp.stage == 15 && t.dev.crp.fail == 1) = true ∧
    runs (.bootStageAdvance (.firmware flash0 (copy1 true) noCopy noCopy)) (released fun d => { d with crp := { d.crp with xspiLow := some 7 } }) (fun t => t.dev.crp.stage == 0) = true := by decide +kernel
theorem test_boot_later : runs (.bootStageAdvance (.dram [])) (released fun d => { d with crp := { d.crp with stage := 1, resetHeld := false } }) (fun t => t.dev.crp.stage == 2 && bitOf (memCfg t.dev) 31) = true ∧
    runs (.bootStageAdvance (.dram [3])) (released fun d => { d with crp := { d.crp with stage := 1, resetHeld := false } }) (fun t => t.dev.crp.stage == 15 && t.dev.crp.fail == 2) = true ∧
    memCfgOk (setBits (memCfg State.reset.dev) 27 16 0) = true ∧
    runs (.bootStageAdvance .hostReady) (released fun d => { d with crp := { d.crp with stage := 2, resetHeld := false, zeroDone := true } }) (fun t => t.dev.crp.stage == 3) = true ∧
    runs (.bootStageAdvance (.config (record 3776 []) (sig true))) (released fun d => { d with crp := { d.crp with stage := 3, resetHeld := false } }) (fun t => t.dev.crp.fail == 3) = true := by decide +kernel
/-- Reset in a power state, changed. -/
def powered (p : Pwr) (f : Device → Device) : State := released fun d => f { d with crp := { d.crp with pwr := p, resetHeld := false } }
theorem test_standby : ctlGrant State.reset.dev (.host 0) 0x6000030 4 true = true ∧ runs (.pwrReqStandby (.host 0)) (powered .active id) (fun t => t.dev.crp.pwr == .enterStandby) = true ∧
    trussBusy (powered .active id).dev = false ∧ runs .standbyEnter (powered .enterStandby id) (fun t => t.dev.crp.pwr == .standby) = true ∧
    runs (.pwrReqActive (.host 0)) (powered .standby id) (fun t => t.dev.crp.pwr == .active) = true := by decide +kernel
/-- Ready for Sleep: every function in D3hot, PME_Turn_Off received, a buffer of 256 MiB to save into. -/
def sleepy : State :=
  powered .active fun d => let d := setFunc (setReg (setReg (setReg (setReg (setReg { d with host := { d.host with pmeOff := true } } 0x4010004 0 1024) 0x600100 (12 * 2 ^ 25) (2 ^ 31 + 28 * 2 ^ 25 + 2)) 0x6000048 0 handle0) 0x4010408 0 0xC0000000) 0x401040C 0 1023) 0 { Func.reset with d := .d3hot }
    setBuf { d with yard := { d.yard with en := true } } 0 { Buf.reset with st := .owned, owner := 0x8000, gen := 1, epoch := 1 }
theorem test_sleep : sleepRefusal State.reset.dev = 3 ∧ sleepRefusal sleepy.dev = 0 ∧ isPf State.reset.dev (.host 0) = true ∧
    runs (.pwrReqSleep (.host 0)) (powered .active id) (fun t => t.dev.crp.pwr == .active && t.dev.crp.refuse == 3) = true ∧
    runs (.pwrReqSleep (.host 0)) sleepy (fun t => t.dev.crp.pwr == .saving && (bufAt t.dev 0).holds == 1) = true ∧
    runs .sleepEnter (powered .saving id) (fun t => t.dev.crp.pwr == .sleep && t.dev.out.contains (.pin "SLEEP_N" false) &&
      t.dev.mem.saved.map (fun r => r.2 - r.1) == [saveBytes]) = true := by decide +kernel
theorem test_wake : wakeOn (powered .sleep id).dev 0 = true ∧ wakeOn (powered .sleep id).dev 1 = false ∧ runs (.sleepWake 0) (powered .sleep id) (fun t => t.dev.crp.pwr == .waking) = true ∧
    runs (.sleepWake 0) (powered .saving id) (fun t => t.dev.crp.pwr == .active && t.dev.crp.refuse == 6) = true ∧
    runs (.sleepExitDone false) (powered .waking id) (fun t => bitOf t.dev.crp.cause 26) = true ∧
    coarseBound (powered .waking fun d => { d with time := 40000, crp := { d.crp with saveOk := true } }).dev = 31000 ∧
    runs (.sleepExitDone true) (powered .waking fun d => { d with time := 40000, crp := { d.crp with saveOk := true } }) (fun t => t.dev.crp.pwr == .active && t.dev.crp.coarse) = true := by decide +kernel
theorem test_aon : runs .aonSupplyLoss (plumbed fun p => { p with recs := [(1, rec5 4)] }) (fun t => t.dev.crp.aonDown && t.dev.plumb.recs == [] && t.dev.crp.latchF4.length == 1) = true ∧
    runs .aonSupplyReturn (on fun d => { d with crp := { d.crp with aonDown := true, latchF4 := [(1, rec5 4)] } }) (fun t => t.dev.plumb.recs == [(1, rec5 4)]) = true ∧
    runs .aonSupplyReturn (on fun d => { d with crp := { d.crp with aonDown := true, glitch := true } }) (fun t => bitOf t.dev.ks.tamper 4 && t.dev.ks.latched) = true := by decide +kernel
theorem test_reg : plainReg 0x200 = some (0x80001FFF, 0) ∧ mtReg 0x200 = none ∧ ctlGrant State.reset.dev (.host 0) 0x200 4 true = true ∧
    runs (.registerWrite (.host 0) 0x200 4 0xFFFFFFFF) State.reset (fun t => reg t.dev 0x200 0 == 0x80001FFF) = true ∧ ctlGrant State.reset.dev (.host 0) 0x200 2 true = false ∧
    runs (.registerWrite (.host 0) 0x200 2 0xFFFF) State.reset (fun t => reg t.dev 0x200 0 == 0) = true ∧ vfGrant (vfs id).dev 1 (canonOff 1 0x204) true = false ∧
    runs (.registerWrite (.config 0) 0 4 3) (vfs fun d => { d with host := { d.host with vfEnable := false } }) (fun t => t.dev.host.numVfs == 3) = true ∧
    runs (.registerWrite (.config 0) 1 4 1) (vfs id) (fun t => (funcAt t.dev 0).msixEn) = true := by decide +kernel
theorem test_refused_reads : ctlGrant (vfs id).dev (.host 1) 0x20C 4 false = false ∧ ctlGrant (vfs id).dev (.host 1) 0x6000030 4 true = false ∧
    runs (.woLastPfFlrRead (.host 1)) (vfs fun d => { d with pfLost := 2 }) (fun t => t.dev.out == [.hostData 1 [0, 0, 0, 0] false] && t.dev.pfLost == 2) = true := by decide +kernel
theorem test_refused_writes : whoLive (vfs id).dev (.host 1) = true ∧ whoFunc (vfs id).dev (.host 1) = some 1 ∧
    runs (.woCancel (.host 1) 9) (vfs (busy close0)) (fun t => t.dev.cancelMiss == 1 && (woAt t.dev 9).map (·.phase) == some .dispatched) = true ∧
    runs (.woCancel (.host 1) 9) (vfs (busy { close0 with func := 1 })) (fun t => t.dev.cancelMiss == 0) = true ∧
    isPatchHandle 0x2100110 = true ∧ isPf State.reset.dev .keystone = false ∧ ctlGrant State.reset.dev .keystone 0x2100110 4 true = true ∧
    (plainReg 0x2100110).isSome = true ∧ secureShut State.reset.dev (.host 0) 0x400404 = true := by decide +kernel
theorem test_assign : mtReg 0x3001040 = some (1, 0) ∧ runs (.registerWrite (.host 0) 0x3001040 4 0x30005) State.reset (fun t => reg t.dev 0x3001040 7 == 0x30005) = true ∧
    runs (.registerWrite (.host 0) 0x3001040 4 0x30005) (on fun d => setCtx d 1 { HoltCtx.reset with st := .ready }) (fun t => reg t.dev 0x3001040 7 == 7) = true := by decide +kernel

theorem test_step_front : step { State.reset with pending := [.linkL1Entry, .pmeTurnOff] } = exec .linkL1Entry { State.reset with pending := [.pmeTurnOff] } := by rfl
theorem test_idle : timeRate State.reset.dev = 0 ∧ (match step State.reset with | .next t => t.dev.up == 1 && t.dev.time == 1 && t.pending == [] | _ => false) = true := by decide +kernel
theorem test_idle_xspi : (match step (on fun d => { d with crp := { d.crp with xspiLow := some 1 } }) with
      | .next t => t.dev.crp.xspiLow == none && t.dev.out == [.pin "XSPI_RESET_N" true] | _ => false) = true ∧
    (match step (on fun d => { d with crp := { d.crp with xspiLow := some 9 } }) with | .next t => t.dev.crp.xspiLow == some 9 | _ => false) = true := by decide +kernel
theorem test_round_trip : (holtDecode 5 0x123456789ABCDEF0).wf = true ∧ holtEncode (holtDecode 5 0x123456789ABCDEF0) = some 0x123456789ABCDEF0 := by decide +kernel
theorem test_stops : stops (.por false) = true ∧ stops (.por true) = false := by decide +kernel

end Sys2Proof.Tests
end

namespace Sys2Proof.Machine

/-! The values of the ALU rows (R27, R28) as arithmetic on the numbers that the operands hold. -/

theorem sub_eq_ofInt (a b : Word) : a - b = BitVec.ofInt 64 ((a.toNat : Int) - b.toNat) := by
  rw [BitVec.sub_eq_add_neg, Int.sub_eq_add_neg, BitVec.ofInt_add, BitVec.ofInt_neg]
  simp

theorem shiftLeft_shiftOf (a b : Word) : a <<< shiftOf b = BitVec.ofNat 64 (a.toNat * 2 ^ (b.toNat % 64)) :=
  BitVec.eq_of_toNat_eq (by simp [shiftOf, Nat.shiftLeft_eq])

theorem ushiftRight_shiftOf (a b : Word) : a >>> shiftOf b = BitVec.ofNat 64 (a.toNat / 2 ^ (b.toNat % 64)) := by
  rw [shiftOf, ← Nat.shiftRight_eq_div_pow, ← BitVec.toNat_ushiftRight, BitVec.ofNat_toNat, BitVec.setWidth_eq]

theorem sshiftRight_shiftOf (a b : Word) : a.sshiftRight (shiftOf b) = BitVec.ofInt 64 (a.toInt / 2 ^ (b.toNat % 64)) := by
  have hdiv : (a.sshiftRight (b.toNat % 64)).toInt = a.toInt / 2 ^ (b.toNat % 64) := by
    rw [BitVec.toInt_sshiftRight, Int.shiftRight_eq_div_pow]; push_cast; rfl
  rw [shiftOf, ← hdiv, BitVec.ofInt_toInt]

/-- The low word of a product is the signed product modulo 2^64. -/
theorem toNat_mul_eq_emod (a b : Word) : ((a * b).toNat : Int) = a.toInt * b.toInt % 2 ^ 64 := by
  have h : a * b = BitVec.ofInt 64 (a.toInt * b.toInt) := by simp [BitVec.ofInt_mul]
  rw [h, BitVec.toNat_ofInt]
  omega

/-- High and low word make up the signed product: the high word is its floor quotient by 2^64, which fits in 64 bits. -/
theorem mulHigh_signed (a b : Word) :
    (mulHigh false a b).toInt * 2 ^ 64 + ((a * b).toNat : Int) = a.toInt * b.toInt := by
  have ha : |a.toInt| ≤ 2 ^ 63 := abs_le.mpr ⟨a.le_toInt, BitVec.toInt_lt.le⟩
  have hb : |b.toInt| ≤ 2 ^ 63 := abs_le.mpr ⟨b.le_toInt, BitVec.toInt_lt.le⟩
  have hab : |a.toInt * b.toInt| ≤ 2 ^ 63 * 2 ^ 63 := by
    rw [abs_mul]; exact mul_le_mul ha hb (abs_nonneg _) (by norm_num)
  obtain ⟨hlo, hhi⟩ := abs_le.mp hab
  have hfit : (mulHigh false a b).toInt = a.toInt * b.toInt / 2 ^ 64 :=
    BitVec.toInt_ofInt_eq_self (by norm_num) (by omega) (by omega)
  rw [hfit, toNat_mul_eq_emod]
  exact Int.ediv_mul_add_emod _ _

/-- High and low word make up the unsigned product. -/
theorem mulHigh_unsigned (a b : Word) : (mulHigh true a b).toNat * 2 ^ 64 + (a * b).toNat = a.toNat * b.toNat := by
  have hab : a.toNat * b.toNat < 2 ^ 64 * 2 ^ 64 := Nat.mul_lt_mul'' a.isLt b.isLt
  have hfit : (mulHigh true a b).toNat = a.toNat * b.toNat / 2 ^ 64 := Nat.mod_eq_of_lt (by omega)
  rw [hfit, BitVec.toNat_mul]
  exact Nat.div_add_mod' _ _

theorem wordMin_signed (a b : Word) : wordMin false a b = if b.toInt < a.toInt then b else a := by
  simp [wordMin, BitVec.slt_iff_toInt_lt]

theorem wordMin_unsigned (a b : Word) : wordMin true a b = if b.toNat < a.toNat then b else a := by
  simp [wordMin, BitVec.ult_iff_toNat_lt]

theorem wordMax_signed (a b : Word) : wordMax false a b = if a.toInt < b.toInt then b else a := by
  simp [wordMax, BitVec.slt_iff_toInt_lt]

theorem wordMax_unsigned (a b : Word) : wordMax true a b = if a.toNat < b.toNat then b else a := by
  simp [wordMax, BitVec.ult_iff_toNat_lt]

/-- The six conditions of R28 are decided as the facts that they stand for. -/
theorem condHolds_iff {m : Nat} (hm : m < 6) (a b : Word) : condHolds m a b = true ↔ condOf m a b := by
  match m, hm with
  | 0, _ => simp [condHolds, condOf, BitVec.toNat_inj]
  | 1, _ => simp [condHolds, condOf, BitVec.toNat_inj]
  | 2, _ => simp [condHolds, condOf, BitVec.slt_iff_toInt_lt]
  | 3, _ => simp [condHolds, condOf, BitVec.slt_eq_decide]
  | 4, _ => simp [condHolds, condOf, BitVec.ult_iff_toNat_lt]
  | 5, _ => simp [condHolds, condOf, BitVec.ult_eq_decide]

/-- MOVHI keeps the low 27 bits of hd below imm37: the two do not overlap. -/
theorem movhi_value (old : Word) (i : BitVec 37) :
    (old &&& 0x7FFFFFF#64) ||| (i.setWidth 64 <<< 27) = BitVec.ofNat 64 (old.toNat % 2 ^ 27 + i.toNat * 2 ^ 27) := by
  have hlow : old.toNat &&& 0x7FFFFFF = old.toNat % 2 ^ 27 := Nat.and_two_pow_sub_one_eq_mod _ 27
  have hor : i.toNat <<< 27 + old.toNat % 2 ^ 27 = i.toNat <<< 27 ||| old.toNat % 2 ^ 27 :=
    Nat.shiftLeft_add_eq_or_of_lt (Nat.mod_lt _ (by norm_num)) _
  have hi := i.isLt
  apply BitVec.eq_of_toNat_eq
  rw [BitVec.toNat_or, BitVec.toNat_and, BitVec.toNat_shiftLeft, BitVec.toNat_setWidth, BitVec.toNat_ofNat, BitVec.toNat_ofNat,
    Nat.mod_eq_of_lt (show i.toNat < 2 ^ 64 by omega), Nat.mod_eq_of_lt (show i.toNat <<< 27 < 2 ^ 64 by rw [Nat.shiftLeft_eq]; omega),
    hlow, Nat.or_comm, ← hor, Nat.shiftLeft_eq]
  omega

/-! Completion: a context that can issue runs a row whose word is legal to its end. -/

/-- Context c completes an instruction that writes v to hd, and goes on after it. -/
def completes (s : State) (c : Nat) (w : HoltWord) (v : Word) : Host.Outcome State Fault Refusal :=
  .next (regStep s c w.hd.toNat v ((ctxAt s.dev c).pc + 8))

/-- A legal word with a defined mod raises no illegal-instruction trap in a row that uses hd, ha and src2 (R20). -/
theorem illForm_of_formOk {w : HoltWord} (hf : formOk w = true) {mods : Nat} (hm : w.mod.toNat < mods) :
    illForm w (decide (mods ≤ w.mod.toNat)) true true false = none := by
  have hmod : decide (mods ≤ w.mod.toNat) = false := by simpa using hm
  have hform : unusedSet w true true (!w.imm) w.imm = false := by
    cases hi : w.imm <;> simpa [unusedSet, formOk, hi] using hf
  simp [illForm, illegal, hmod, hform]

/-- What a row without traps of its own does that ends by writing hd. -/
theorem issue_finH {s : State} {c : Nat} (h : canIssue s c = true) (word : Word) (w : HoltWord) {ill : Option Nat} (hill : ill = none)
    (v : Device → Word) : issue s c word ill none (fun fz d => finH fz d c w (v d)) = completes s c w (v (issued s.dev c)) := by
  rw [hill, issue_ok h]
  rfl

/-- An ALU row writes its function of ha and src2. -/
theorem aluGo_completes {s : State} {c : Nat} (h : canIssue s c = true) {w : HoltWord} (hf : formOk w = true) {mods : Nat}
    (hm : w.mod.toNat < mods) (op : Nat) (f : Word → Word → Word) :
    aluGo s c op mods w f = completes s c w (f (rA s.dev c w) (src2 s.dev c w)) :=
  issue_finH h _ w (illForm_of_formOk hf hm) fun d => f (rA d c w) (src2 d c w)

section
variable {s : State} {c : Nat} {w : HoltWord} (h : canIssue s c = true)
include h

section
variable (hf : formOk w = true)
include hf

/-! The rows with both forms. -/

theorem exec_add (hm : w.mod = 0) :
    exec (.add c w) s = completes s c w (BitVec.ofNat 64 ((rA s.dev c w).toNat + (src2 s.dev c w).toNat)) := by
  rw [BitVec.ofNat_add, BitVec.ofNat_toNat, BitVec.ofNat_toNat, BitVec.setWidth_eq, BitVec.setWidth_eq]
  exact aluGo_completes h hf (by simp [hm]) 0x00 _

theorem exec_sub (hm : w.mod = 0) :
    exec (.sub c w) s = completes s c w (BitVec.ofInt 64 (((rA s.dev c w).toNat : Int) - (src2 s.dev c w).toNat)) := by
  rw [← sub_eq_ofInt]
  exact aluGo_completes h hf (by simp [hm]) 0x02 _

theorem exec_and (hm : w.mod = 0) : exec (.and c w) s = completes s c w (rA s.dev c w &&& src2 s.dev c w) :=
  aluGo_completes h hf (by simp [hm]) 0x04 _

theorem exec_or (hm : w.mod = 0) : exec (.or c w) s = completes s c w (rA s.dev c w ||| src2 s.dev c w) :=
  aluGo_completes h hf (by simp [hm]) 0x06 _

theorem exec_xor (hm : w.mod = 0) : exec (.xor c w) s = completes s c w (rA s.dev c w ^^^ src2 s.dev c w) :=
  aluGo_completes h hf (by simp [hm]) 0x08 _

theorem exec_shl (hm : w.mod = 0) :
    exec (.shl c w) s = completes s c w (BitVec.ofNat 64 ((rA s.dev c w).toNat * 2 ^ ((src2 s.dev c w).toNat % 64))) := by
  rw [← shiftLeft_shiftOf]
  exact aluGo_completes h hf (by simp [hm]) 0x0A fun a b => a <<< shiftOf b

theorem exec_shr (hm : w.mod = 0) :
    exec (.shr c w) s = completes s c w (BitVec.ofNat 64 ((rA s.dev c w).toNat / 2 ^ ((src2 s.dev c w).toNat % 64))) := by
  rw [← ushiftRight_shiftOf]
  exact aluGo_completes h hf (by simp [hm]) 0x0C fun a b => a >>> shiftOf b

theorem exec_sar (hm : w.mod = 0) :
    exec (.sar c w) s = completes s c w (BitVec.ofInt 64 ((rA s.dev c w).toInt / 2 ^ ((src2 s.dev c w).toNat % 64))) := by
  rw [← sshiftRight_shiftOf]
  exact aluGo_completes h hf (by simp [hm]) 0x0E fun a b => a.sshiftRight (shiftOf b)

theorem exec_mul (hm : w.mod = 0) :
    exec (.mul c w) s = completes s c w (BitVec.ofNat 64 ((rA s.dev c w).toNat * (src2 s.dev c w).toNat)) := by
  rw [BitVec.ofNat_mul, BitVec.ofNat_toNat, BitVec.ofNat_toNat, BitVec.setWidth_eq, BitVec.setWidth_eq]
  exact aluGo_completes h hf (by simp [hm]) 0x10 _

theorem exec_mulh (hm : w.mod.toNat < 2) :
    exec (.mulh c w) s = completes s c w (mulHigh (w.mod == 1) (rA s.dev c w) (src2 s.dev c w)) :=
  aluGo_completes h hf hm 0x12 _

theorem exec_min (hm : w.mod.toNat < 2) :
    exec (.min c w) s = completes s c w (wordMin (w.mod == 1) (rA s.dev c w) (src2 s.dev c w)) :=
  aluGo_completes h hf hm 0x14 _

theorem exec_max (hm : w.mod.toNat < 2) :
    exec (.max c w) s = completes s c w (wordMax (w.mod == 1) (rA s.dev c w) (src2 s.dev c w)) :=
  aluGo_completes h hf hm 0x16 _

theorem exec_cmp (hm : w.mod.toNat < 6) :
    exec (.cmp c w) s = completes s c w (if condHolds w.mod.toNat (rA s.dev c w) (src2 s.dev c w) then 1 else 0) :=
  aluGo_completes h hf hm 0x18 fun a b => if condHolds w.mod.toNat a b then 1 else 0

theorem exec_sel (hm : w.mod.toNat < 2) :
    exec (.sel c w) s =
      completes s c w (if (rA s.dev c w == 0) == (w.mod == 1) then src2 s.dev c w else rD s.dev c w) :=
  issue_finH h _ w (illForm_of_formOk hf hm) fun d => if (rA d c w == 0) == (w.mod == 1) then src2 d c w else rD d c w

end

/-! The rows with one form. -/

theorem exec_mov (hm : w.mod = 0) (ha : w.ha = 0) (hi : w.imm37 = 0) : exec (.mov c w) s = completes s c w (rB s.dev c w) :=
  issue_finH h _ w (by simp [illegal, unusedSet, hm, ha, hi]) fun d => rB d c w

theorem exec_movi (hm : w.mod = 0) (ha : w.ha = 0) (hb : w.hb = 0) : exec (.movi c w) s = completes s c w (imm64 w) :=
  issue_finH h _ w (by simp [illegal, unusedSet, hm, ha, hb]) fun _ => imm64 w

theorem exec_movhi (hm : w.mod = 0) (ha : w.ha = 0) (hb : w.hb = 0) :
    exec (.movhi c w) s = completes s c w (BitVec.ofNat 64 ((rD s.dev c w).toNat % 2 ^ 27 + w.imm37.toNat * 2 ^ 27)) := by
  rw [← movhi_value]
  exact issue_finH h _ w (by simp [illegal, unusedSet, hm, ha, hb]) fun d => (rD d c w &&& 0x7FFFFFF#64) ||| (w.imm37.setWidth 64 <<< 27)

/-! The rows whose mod chooses between two results. -/

section
variable (hf : formOk w = true)
include hf

theorem exec_mulh_signed (hm : w.mod = 0) : ∃ v : Word, exec (.mulh c w) s = completes s c w v ∧
    v.toInt * 2 ^ 64 + ((rA s.dev c w * src2 s.dev c w).toNat : Int) = (rA s.dev c w).toInt * (src2 s.dev c w).toInt :=
  ⟨_, by simpa [hm] using exec_mulh h hf (by simp [hm]), mulHigh_signed _ _⟩

theorem exec_mulh_unsigned (hm : w.mod = 1) : ∃ v : Word, exec (.mulh c w) s = completes s c w v ∧
    v.toNat * 2 ^ 64 + (rA s.dev c w * src2 s.dev c w).toNat = (rA s.dev c w).toNat * (src2 s.dev c w).toNat :=
  ⟨_, by simpa [hm] using exec_mulh h hf (by simp [hm]), mulHigh_unsigned _ _⟩

theorem exec_min_signed (hm : w.mod = 0) : exec (.min c w) s =
    completes s c w (if (src2 s.dev c w).toInt < (rA s.dev c w).toInt then src2 s.dev c w else rA s.dev c w) := by
  simpa [hm, wordMin_signed] using exec_min h hf (by simp [hm])

theorem exec_min_unsigned (hm : w.mod = 1) : exec (.min c w) s =
    completes s c w (if (src2 s.dev c w).toNat < (rA s.dev c w).toNat then src2 s.dev c w else rA s.dev c w) := by
  simpa [hm, wordMin_unsigned] using exec_min h hf (by simp [hm])

theorem exec_max_signed (hm : w.mod = 0) : exec (.max c w) s =
    completes s c w (if (rA s.dev c w).toInt < (src2 s.dev c w).toInt then src2 s.dev c w else rA s.dev c w) := by
  simpa [hm, wordMax_signed] using exec_max h hf (by simp [hm])

theorem exec_max_unsigned (hm : w.mod = 1) : exec (.max c w) s =
    completes s c w (if (rA s.dev c w).toNat < (src2 s.dev c w).toNat then src2 s.dev c w else rA s.dev c w) := by
  simpa [hm, wordMax_unsigned] using exec_max h hf (by simp [hm])

theorem exec_sel_nonzero (hm : w.mod = 0) :
    exec (.sel c w) s = completes s c w (if rA s.dev c w = 0 then rD s.dev c w else src2 s.dev c w) := by
  rw [exec_sel h hf (by simp [hm])]
  by_cases h0 : rA s.dev c w = 0 <;> simp [hm, h0]

theorem exec_sel_zero (hm : w.mod = 1) :
    exec (.sel c w) s = completes s c w (if rA s.dev c w = 0 then src2 s.dev c w else rD s.dev c w) := by
  rw [exec_sel h hf (by simp [hm])]
  by_cases h0 : rA s.dev c w = 0 <;> simp [hm, h0]

theorem exec_cmp_true (hm : w.mod.toNat < 6) (hc : condOf w.mod.toNat (rA s.dev c w) (src2 s.dev c w)) :
    exec (.cmp c w) s = completes s c w 1 := by
  rw [exec_cmp h hf hm, if_pos ((condHolds_iff hm _ _).mpr hc)]

theorem exec_cmp_false (hm : w.mod.toNat < 6) (hc : ¬ condOf w.mod.toNat (rA s.dev c w) (src2 s.dev c w)) :
    exec (.cmp c w) s = completes s c w 0 := by
  rw [exec_cmp h hf hm, if_neg (mt (condHolds_iff hm _ _).mp hc)]

end

end

/-- Settles O1: every ALU row completes with the value of R27 and R28. -/
theorem aluResults : Obligations.AluResults := by
  intro s c w h a b old out
  refine ⟨fun hf hm => ?signed, fun hf hm => ?unsigned, fun hf hm => ⟨exec_cmp_true h hf hm, exec_cmp_false h hf hm⟩,
    exec_mov h, exec_movi h, exec_movhi h⟩
  case signed =>
    exact ⟨exec_add h hf hm, exec_sub h hf hm, exec_and h hf hm, exec_or h hf hm, exec_xor h hf hm, exec_shl h hf hm,
      exec_shr h hf hm, exec_sar h hf hm, exec_mul h hf hm, exec_mulh_signed h hf hm, exec_min_signed h hf hm,
      exec_max_signed h hf hm, exec_sel_nonzero h hf hm⟩
  case unsigned =>
    exact ⟨exec_mulh_unsigned h hf hm, exec_min_unsigned h hf hm, exec_max_unsigned h hf hm, exec_sel_zero h hf hm⟩

end Sys2Proof.Machine

namespace Sys2Proof.Machine

/-! What delivery (R416) leaves to the interrupt controller: everything but its record of what is delivered. -/

/-- Delivery keeps the controller but for its record of what is delivered, starts and ends no function reset, and only adds to what
leaves the device. -/
structure DeliveryKeeps (d e : Device) : Prop where
  intc : { e.intc with deliv := d.intc.deliv } = d.intc
  busy : ∀ f, funcBusy e f = funcBusy d f
  out : d.out <+: e.out

theorem DeliveryKeeps.refl (d : Device) : DeliveryKeeps d d := ⟨rfl, fun _ => rfl, List.prefix_rfl⟩

theorem DeliveryKeeps.trans {a b c : Device} (h : DeliveryKeeps a b) (g : DeliveryKeeps b c) : DeliveryKeeps a c where
  intc := by rw [← h.intc, ← g.intc]
  busy f := (g.busy f).trans (h.busy f)
  out := h.out.trans g.out

theorem DeliveryKeeps.latch_eq {d e : Device} (h : DeliveryKeeps d e) : e.intc.latch = d.intc.latch := by rw [← h.intc]

theorem DeliveryKeeps.en_eq {d e : Device} (h : DeliveryKeeps d e) : e.intc.en = d.intc.en := by rw [← h.intc]

theorem DeliveryKeeps.active_eq {d e : Device} (h : DeliveryKeeps d e) : e.intc.active = d.intc.active := by rw [← h.intc]

theorem DeliveryKeeps.cfg_eq {d e : Device} (h : DeliveryKeeps d e) : e.intc.cfg = d.intc.cfg := by rw [← h.intc]

theorem DeliveryKeeps.noCause_eq {d e : Device} (h : DeliveryKeeps d e) : e.intc.noCause = d.intc.noCause := by rw [← h.intc]

theorem DeliveryKeeps.emptyClaims_eq {d e : Device} (h : DeliveryKeeps d e) : e.intc.emptyClaims = d.intc.emptyClaims := by rw [← h.intc]

theorem emit_keeps (d : Device) (o : Out) : DeliveryKeeps d (emit d o) := ⟨rfl, fun _ => rfl, List.prefix_append _ _⟩

theorem setVec_keeps (d : Device) (f v : Nat) (x : Vec) : DeliveryKeeps d (setVec d f v x) := ⟨rfl, fun _ => rfl, List.prefix_rfl⟩

theorem setFunc_keeps {d : Device} {f : Nat} {x : Func} (hx : x.flr = (funcAt d f).flr) : DeliveryKeeps d (setFunc d f x) where
  intc := rfl
  busy g := by
    by_cases hg : g = f
    · subst hg
      exact (congrArg Func.flr (tget_tset _ _ _ _)).trans hx
    · exact congrArg Func.flr (tget_tset_ne _ hg _ _)
  out := List.prefix_rfl

theorem leaveL1_keeps (d : Device) : DeliveryKeeps d (leaveL1 d) := by
  unfold leaveL1
  split
  · exact ⟨rfl, fun _ => rfl, List.prefix_append _ _⟩
  · exact .refl d

theorem vecTry_keeps (d : Device) (f v : Nat) : DeliveryKeeps d (vecTry d f v) := by
  have hpme : DeliveryKeeps d (setFunc d f { funcAt d f with pmeSent := true }) := setFunc_keeps rfl
  have hwake : DeliveryKeeps d (setFunc d f { funcAt d f with wake := true }) := setFunc_keeps rfl
  unfold vecTry
  dsimp only
  split
  · exact .refl d
  split
  · split
    · exact .refl d
    · exact (setVec_keeps d f v _).trans (emit_keeps _ _)
  split
  · exact .refl d
  split
  · split
    · exact .refl d
    · exact leaveL1_keeps d
  · split
    · exact .refl d
    · exact (hpme.trans (emit_keeps _ _)).trans (leaveL1_keeps _)
  · exact hwake

theorem msixEvent_keeps (d : Device) (f v : Nat) : DeliveryKeeps d (msixEvent d f v) := by
  unfold msixEvent
  dsimp only
  split
  · exact .refl d
  · exact (setVec_keeps d f v _).trans (vecTry_keeps _ f v)

theorem intcDeliver_keeps (old : List Nat) (d : Device) (n : Nat) : DeliveryKeeps d (intcDeliver old d n) := by
  unfold intcDeliver
  dsimp only
  split
  · exact ⟨rfl, fun _ => rfl, List.prefix_rfl⟩
  split
  · exact msixEvent_keeps d _ _
  · exact .refl d

theorem deliverAll_keeps (old l : List Nat) (d : Device) : DeliveryKeeps d (l.foldl (intcDeliver old) d) := by
  induction l generalizing d with
  | nil => exact .refl d
  | cons n r ih => exact (intcDeliver_keeps old d n).trans (ih _)

theorem intcRound_keeps (d : Device) : DeliveryKeeps d (intcRound d) :=
  have h := deliverAll_keeps d.intc.deliv ((intcCandidates d).filter (intcDeliverable d)) d
  ⟨h.intc, h.busy, h.out⟩

theorem settle_keeps (d : Device) : DeliveryKeeps d (settle d) := (intcRound_keeps d).trans (intcRound_keeps _)

theorem after_keeps (s : State) (d : Device) : DeliveryKeeps d (after s d).dev := by
  have h := settle_keeps d
  unfold after
  generalize settle d = e at h ⊢
  exact ⟨h.intc, h.busy, h.out⟩

@[simp] theorem after_intc_latch (s : State) (d : Device) : (after s d).dev.intc.latch = d.intc.latch :=
  (after_keeps s d).latch_eq

@[simp] theorem after_intc_en (s : State) (d : Device) : (after s d).dev.intc.en = d.intc.en :=
  (after_keeps s d).en_eq

@[simp] theorem after_intc_active (s : State) (d : Device) : (after s d).dev.intc.active = d.intc.active :=
  (after_keeps s d).active_eq

@[simp] theorem after_intc_cfg (s : State) (d : Device) : (after s d).dev.intc.cfg = d.intc.cfg :=
  (after_keeps s d).cfg_eq

@[simp] theorem after_intc_noCause (s : State) (d : Device) : (after s d).dev.intc.noCause = d.intc.noCause :=
  (after_keeps s d).noCause_eq

@[simp] theorem after_intc_emptyClaims (s : State) (d : Device) : (after s d).dev.intc.emptyClaims = d.intc.emptyClaims :=
  (after_keeps s d).emptyClaims_eq

/-- Which sources lose their events (R420) is as the command left it: delivery changes neither configuration nor function resets. -/
@[simp] theorem after_intcLost (s : State) (d : Device) (n : Nat) : intcLost (after s d).dev n = intcLost d n := by
  simp only [intcLost, intcTarget, intcFunc, intcCfg, after_intc_cfg, (after_keeps s d).busy]

/-! What the controller's commands leave unchanged. -/

/-- Between s and u the controller's configuration and every store that its commands do not touch stayed as they were. -/
def IntcFrame (s u : State) : Prop :=
  u.dev.mem = s.dev.mem ∧ u.dev.rings = s.dev.rings ∧ u.dev.regs = s.dev.regs ∧ u.dev.wos = s.dev.wos ∧
    u.dev.ctxs = s.dev.ctxs ∧ u.dev.plumb = s.dev.plumb ∧ u.dev.intc.cfg = s.dev.intc.cfg ∧ u.fuses = s.fuses

theorem intcFrame_after {s : State} {d : Device} (h : DeliveryOnly s.dev d) (hcfg : d.intc.cfg = s.dev.intc.cfg) :
    IntcFrame s (after s d) := by
  simp [IntcFrame, hcfg, h.mem_eq, h.rings_eq, h.regs_eq, h.wos_eq, h.ctxs_eq, h.plumb_eq]

@[simp] theorem answer_intc (who : Who) (n : Nat) (x : Device × Nat) : (answer who n x).intc = x.1.intc := by
  cases who <;> rfl

theorem answer_deliveryOnly {d : Device} {x : Device × Nat} (h : DeliveryOnly d x.1) (who : Who) (n : Nat) :
    DeliveryOnly d (answer who n x) :=
  h.trans (by cases who <;> rfl)

/-- A value read goes to its host requester first: what delivery sends follows it. -/
theorem sends_answer {s : State} {x : Device × Nat} (h : x.1.out = s.dev.out) (f n : Nat) :
    sends s (after s (answer (.host f) n x)) (.hostData f (leBytes n x.2) false) := by
  obtain ⟨more, hmore⟩ := (after_keeps s (answer (.host f) n x)).out
  exact ⟨more, by rw [← hmore, ← h]; simp [answer, emit]⟩

/-! Claims (R417). -/

theorem mem_of_tget_ne {α : Type} {x : α} {k : Nat} {t : Table α} (h : tget x k t ≠ x) : ∃ v, (k, v) ∈ t := by
  induction t with
  | nil => exact absurd rfl h
  | cons e r ih =>
    obtain ⟨a, w⟩ := e
    by_cases ha : a = k
    · exact ⟨w, by simp [ha]⟩
    · obtain ⟨v, hv⟩ := ih (by simpa [tget, ha] using h)
      exact ⟨v, List.mem_cons_of_mem _ hv⟩

theorem mem_intcCandidates_iff {d : Device} {n : Nat} : n ∈ intcCandidates d ↔
    n ∈ d.intc.latch ∨ n = 129 ∨ (∃ e ∈ d.mbox.chans, n = 256 + e.1 ∨ n = 384 + e.1) ∨
      (d.mbox.cross ≠ 0 ∧ ∃ k < 32, n = 448 + k ∨ n = 480 + k) ∨ (512 ≤ n ∧ n < 518) := by
  by_cases h0 : d.mbox.cross = 0 <;> simp [intcCandidates, h0]

/-- The two level sources of a channel that holds anything are among those that a claim and delivery look at. -/
theorem mem_intcCandidates_of_chan {d : Device} {n c : Nat} (hc : mboxAt d c ≠ Mbox.reset) (hn : n = 256 + c ∨ n = 384 + c) :
    n ∈ intcCandidates d := by
  obtain ⟨m, hm⟩ := mem_of_tget_ne hc
  exact mem_intcCandidates_iff.mpr (.inr (.inr (.inl ⟨(c, m), hm, hn⟩)))

/-- So are the two level sources of a pair whose cross bit is set. -/
theorem mem_intcCandidates_of_cross {d : Device} {n k : Nat} (hk : bitOf d.mbox.cross k = true) (hlt : k < 32)
    (hn : n = 448 + k ∨ n = 480 + k) : n ∈ intcCandidates d := by
  have h0 : d.mbox.cross ≠ 0 := by
    intro h0
    rw [h0, bitOf, Nat.zero_testBit] at hk
    exact Bool.false_ne_true hk
  exact mem_intcCandidates_iff.mpr (.inr (.inr (.inr (.inl ⟨h0, k, hlt, hn⟩))))

/-- A source whose level input is asserted is among those that a claim and delivery look at. -/
theorem mem_intcCandidates_of_input {d : Device} {n : Nat} (h : intcInput d n = true) : n ∈ intcCandidates d := by
  have hplumb (hlo : 512 ≤ n) (hhi : n < 518) : n ∈ intcCandidates d :=
    mem_intcCandidates_iff.mpr (.inr (.inr (.inr (.inr ⟨hlo, hhi⟩))))
  unfold intcInput at h
  by_cases h129 : n = 129
  · exact mem_intcCandidates_iff.mpr (.inr (.inl h129))
  rw [if_neg h129] at h
  by_cases h256 : n < 256
  · rw [if_pos h256] at h
    cases h
  rw [if_neg h256] at h
  by_cases h320 : n < 320
  · rw [if_pos h320] at h
    exact mem_intcCandidates_of_chan (c := n - 256) (by intro h0; rw [h0] at h; cases h) (by omega)
  rw [if_neg h320] at h
  by_cases h384 : n < 384
  · rw [if_pos h384] at h
    cases h
  rw [if_neg h384] at h
  by_cases h448 : n < 448
  · rw [if_pos h448] at h
    exact mem_intcCandidates_of_chan (c := n - 384) (by intro h0; rw [h0] at h; cases h) (by omega)
  rw [if_neg h448] at h
  by_cases h480 : n < 480
  · rw [if_pos h480] at h
    exact mem_intcCandidates_of_cross h (by omega) (by omega)
  rw [if_neg h480] at h
  by_cases h512 : n < 512
  · rw [if_pos h512] at h
    exact mem_intcCandidates_of_cross h (by omega) (by omega)
  rw [if_neg h512] at h
  by_cases h518 : n < 518
  · exact hplumb (by omega) h518
  · rw [if_neg (by omega), if_neg (by omega)] at h
    cases h

theorem mem_intcCandidates {d : Device} {n : Nat} (h : intcDeliverable d n = true) : n ∈ intcCandidates d := by
  simp only [intcDeliverable, intcPending, Bool.and_eq_true, Bool.or_eq_true, List.contains_iff_mem] at h
  obtain ⟨⟨⟨-, hlatch | ⟨⟨-, hin⟩, -⟩⟩, -⟩, -⟩ := h
  · exact mem_intcCandidates_iff.mpr (.inl hlatch)
  · exact mem_intcCandidates_of_input hin

/-- Source m comes after source n in a claim (R417): lower PRIO, or the same PRIO and the higher number. -/
def ClaimBehind (d : Device) (n m : Nat) : Prop := intcPrio d m < intcPrio d n ∨ (intcPrio d m = intcPrio d n ∧ n < m)

theorem intcBetter_of_behind {d : Device} {n m : Nat} (h : ClaimBehind d n m) : intcBetter d n m = n ∧ intcBetter d m n = n := by
  unfold ClaimBehind at h
  unfold intcBetter
  split_ifs <;> omega

theorem intcBetter_self (d : Device) (n : Nat) : intcBetter d n n = n := by simp [intcBetter]

theorem intcBetter_eq_or (d : Device) (a b : Nat) : intcBetter d a b = a ∨ intcBetter d a b = b := by
  unfold intcBetter
  split_ifs <;> omega

/-- The fold of a claim finds the source that every other one comes after, wherever it stands in the list. -/
theorem foldl_intcBetter {d : Device} {n : Nat} (l : List Nat) (a : Nat) (hn : n = a ∨ n ∈ l) (ha : a ≠ n → ClaimBehind d n a)
    (hl : ∀ m ∈ l, m ≠ n → ClaimBehind d n m) : l.foldl (intcBetter d) a = n := by
  induction l generalizing a with
  | nil => simpa [eq_comm] using hn
  | cons b r ih =>
    obtain ⟨hb, hr⟩ := List.forall_mem_cons.mp hl
    refine ih (intcBetter d a b) ?_ ?_ hr
    · by_cases hna : n = a
      · subst hna
        by_cases hbn : b = n
        · exact .inl (by rw [hbn, intcBetter_self])
        · exact .inl (intcBetter_of_behind (hb hbn)).1.symm
      · by_cases hbn : b = n
        · subst hbn
          exact .inl (intcBetter_of_behind (ha (Ne.symm hna))).2.symm
        · have hmem : n ∈ r := by simpa [hna, Ne.symm hbn] using hn
          exact .inr hmem
    · rcases intcBetter_eq_or d a b with h | h <;> rw [h]
      · exact ha
      · exact hb

theorem intcBest_eq_none {d : Device} {r : Nat} (h : ∀ n, intcDeliverable d n = true → intcCovers d r n = false) :
    intcBest d r = none := by
  have hnil : (intcCandidates d).filter (fun n => intcDeliverable d n && intcCovers d r n) = [] := by
    simp only [List.filter_eq_nil_iff, Bool.and_eq_true, not_and, Bool.not_eq_true]
    exact fun n _ => h n
  unfold intcBest
  rw [hnil]

theorem intcBest_eq_some {d : Device} {r n : Nat} (hn : intcDeliverable d n = true) (hc : intcCovers d r n = true)
    (hbest : ∀ m, intcDeliverable d m = true → intcCovers d r m = true → m ≠ n → ClaimBehind d n m) : intcBest d r = some n := by
  have hmem : ∀ m, m ∈ (intcCandidates d).filter (fun n => intcDeliverable d n && intcCovers d r n) ↔
      intcDeliverable d m = true ∧ intcCovers d r m = true := by
    intro m
    simp only [List.mem_filter, Bool.and_eq_true]
    exact ⟨And.right, fun h => ⟨mem_intcCandidates h.1, h⟩⟩
  unfold intcBest
  split
  · next hnil => simpa [hnil] using (hmem n).mpr ⟨hn, hc⟩
  · next a l hlist =>
    rw [hlist] at hmem
    have hbehind : ∀ m ∈ a :: l, m ≠ n → ClaimBehind d n m := fun m hm => hbest m ((hmem m).mp hm).1 ((hmem m).mp hm).2
    obtain ⟨ha, hl⟩ := List.forall_mem_cons.mp hbehind
    rw [foldl_intcBetter l a (List.mem_cons.mp ((hmem n).mpr ⟨hn, hc⟩)) ha hl]

theorem intcClaim_of_none {d : Device} {r : Nat} (h : intcBest d r = none) :
    intcClaim d r = ({ d with intc := { d.intc with emptyClaims := (d.intc.emptyClaims + 1) % 65536 } }, 0) := by
  simp only [intcClaim, h]

theorem intcClaim_of_some {d : Device} {r n : Nat} (h : intcBest d r = some n) :
    intcClaim d r =
      ({ d with intc := { d.intc with latch := sdel n d.intc.latch, active := tput n r d.intc.active } }, 2 ^ 31 + n) := by
  simp only [intcClaim, h]

theorem bitOf_toNat (v : Word32) (i : Nat) : bitOf v.toNat i = v.getLsbD i := rfl

section
variable {s : State} {who : Who} {r : Nat} (hr : r < 10 ∨ (16 ≤ r ∧ r < 32))
include hr

theorem claimReg_of_range : claimReg r = true := by simpa [claimReg] using hr

/-- A granted claim is performed and answered. -/
theorem exec_intcClaim (hg : ctlGrant s.dev who (claimOff s.dev who r) 4 false = true) :
    exec (.intcClaim who r) s = .next (after s (answer who 4 (intcClaim s.dev r))) := by
  change execIntcClaim who r s = _
  simp only [execIntcClaim, claimReg_of_range hr, regGet, hg, if_true, done]

/-- A granted completion is performed. -/
theorem exec_intcComplete {v : Word32} (hg : ctlGrant s.dev who (claimOff s.dev who r + 4) 4 true = true) :
    exec (.intcComplete who r v) s = .next (after s (intcComplete s.dev r v.toNat)) := by
  change execIntcComplete who r v s = _
  simp only [execIntcComplete, claimReg_of_range hr, regDo, hg, if_true, done]

section
variable (hg : ctlGrant s.dev who (claimOff s.dev who r) 4 false = true)
include hg

/-- A claim that finds nothing is counted and answered with 0. -/
theorem claim_empty (hnone : ∀ n, intcDeliverable s.dev n = true → intcCovers s.dev r n = false) :
    ∃ u, exec (.intcClaim who r) s = .next u ∧ IntcFrame s u ∧
      u.dev.intc.latch = s.dev.intc.latch ∧ u.dev.intc.active = s.dev.intc.active ∧
      u.dev.intc.emptyClaims = (s.dev.intc.emptyClaims + 1) % 65536 ∧
      (∀ f, who = .host f → sends s u (.hostData f (leBytes 4 0) false)) := by
  refine ⟨_, exec_intcClaim hr hg, ?_⟩
  rw [intcClaim_of_none (intcBest_eq_none hnone)]
  refine ⟨intcFrame_after (answer_deliveryOnly (by rfl) who 4) (by simp), by simp, by simp, by simp, ?_⟩
  rintro f rfl
  exact sends_answer rfl f 4

/-- A claim takes the source that every other one comes after. -/
theorem claim_best {n : Nat} (hn : intcDeliverable s.dev n = true) (hc : intcCovers s.dev r n = true)
    (hbest : ∀ m, intcDeliverable s.dev m = true → intcCovers s.dev r m = true → m ≠ n → ClaimBehind s.dev n m) :
    ∃ u, exec (.intcClaim who r) s = .next u ∧ IntcFrame s u ∧ tfind n u.dev.intc.active = some r ∧
      (∀ m, m ≠ n → tfind m u.dev.intc.active = tfind m s.dev.intc.active) ∧
      (∀ m, m ∈ u.dev.intc.latch ↔ m ∈ s.dev.intc.latch ∧ m ≠ n) ∧ u.dev.intc.emptyClaims = s.dev.intc.emptyClaims ∧
      (∀ f, who = .host f → sends s u (.hostData f (leBytes 4 (2 ^ 31 + n)) false)) := by
  refine ⟨_, exec_intcClaim hr hg, ?_⟩
  rw [intcClaim_of_some (intcBest_eq_some hn hc hbest)]
  refine ⟨intcFrame_after (answer_deliveryOnly (by rfl) who 4) (by simp), by simp, ?_, by simp, by simp, ?_⟩
  · intro m hm
    simpa using tfind_tput_ne hm r s.dev.intc.active
  · rintro f rfl
    exact sends_answer rfl f 4

end

/-! Completions (R418, R419). -/

section
variable {v : Word32} (hg : ctlGrant s.dev who (claimOff s.dev who r + 4) 4 true = true)
include hg

/-- A completion of a source claimed through the same register ends its active state: a level source is then pending by its latch or by
its input as it is sampled again. -/
theorem complete_claimed (ha : tfind (v.toNat % 1024) s.dev.intc.active = some r) :
    ∃ u, exec (.intcComplete who r v) s = .next u ∧ IntcFrame s u ∧ tfind (v.toNat % 1024) u.dev.intc.active = none ∧
      (∀ m, m ≠ v.toNat % 1024 → tfind m u.dev.intc.active = tfind m s.dev.intc.active) ∧ u.dev.intc.latch = s.dev.intc.latch ∧
      (intcValid (v.toNat % 1024) = true → intcLevel (v.toNat % 1024) = true → intcLost s.dev (v.toNat % 1024) = false →
        intcPending u.dev (v.toNat % 1024) = (s.dev.intc.latch.contains (v.toNat % 1024) || intcInput u.dev (v.toNat % 1024))) ∧
      (v.getLsbD 31 = true → u.dev.intc.noCause = (s.dev.intc.noCause + 1) % 65536) ∧
      (v.getLsbD 31 = false → u.dev.intc.noCause = s.dev.intc.noCause) := by
  refine ⟨_, exec_intcComplete hr hg, ?_⟩
  have hdev : intcComplete s.dev r v.toNat = { s.dev with intc := { s.dev.intc with
      active := tdel (v.toNat % 1024) s.dev.intc.active
      noCause := if v.getLsbD 31 then (s.dev.intc.noCause + 1) % 65536 else s.dev.intc.noCause } } := by
    simp [intcComplete, bitsOf, ha, bitOf_toNat]
  rw [hdev]
  refine ⟨intcFrame_after rfl rfl, by simp, ?_, by simp, ?_, ?_, ?_⟩
  · intro m hm
    simpa using tfind_tdel_ne hm s.dev.intc.active
  · intro hvalid hlevel hlost
    have hlost' (i : Intc) (hi : i.cfg = s.dev.intc.cfg) : intcLost { s.dev with intc := i } (v.toNat % 1024) = false := by
      rw [← hlost]; simp only [intcLost, intcTarget, intcFunc, intcCfg, hi]; rfl
    simp [intcPending, intcActive, hvalid, hlevel, hlost']
  · intro h; simp only [after_intc_noCause, h, if_true]
  · intro h; simp only [after_intc_noCause, h, Bool.false_eq_true, if_false]

/-- Any other completion is ignored. -/
theorem complete_other (ha : tfind (v.toNat % 1024) s.dev.intc.active ≠ some r) :
    exec (.intcComplete who r v) s = .next (after s s.dev) := by
  have hdev : intcComplete s.dev r v.toNat = s.dev := by simp [intcComplete, bitsOf, ha]
  rw [exec_intcComplete hr hg, hdev]

end

end

/-! Set and clear registers, and events (R413, R415). -/

/-- The sources that a write of v to set or clear register w names. -/
theorem mem_bitsIn (n w : Nat) (v : Word32) : n ∈ bitsIn w v.toNat ↔ n / 32 = w ∧ v.getLsbD (n % 32) = true := by
  simp only [bitsIn, List.mem_map, List.mem_filter, mem_upto]
  constructor
  · rintro ⟨b, ⟨⟨-, hb⟩, hv⟩, rfl⟩
    rw [show (32 * w + b) / 32 = w by omega, show (32 * w + b) % 32 = b by omega]
    exact ⟨rfl, hv⟩
  · rintro ⟨rfl, hv⟩
    exact ⟨n % 32, ⟨⟨by omega, by omega⟩, hv⟩, by omega⟩

@[simp] theorem mem_foldl_sadd (j : Nat) (ns l : List Nat) : j ∈ ns.foldl (fun l n => sadd n l) l ↔ j ∈ l ∨ j ∈ ns := by
  induction ns generalizing l with
  | nil => simp
  | cons n r ih =>
    rw [List.foldl_cons, ih, mem_sadd, List.mem_cons, or_assoc, or_left_comm]

/-- A write of INTC_PEND_SETw latches the named sources that are valid and whose events are not lost. -/
theorem pendSet_eq (d : Device) (w v : Nat) : pendSet d w v = { d with intc := { d.intc with
    latch := ((bitsIn w v).filter (fun n => intcValid n && !intcLost d n)).foldl (fun l n => sadd n l) d.intc.latch } } := by
  unfold pendSet
  generalize bitsIn w v = ns
  induction ns generalizing d with
  | nil => rfl
  | cons n r ih =>
    rw [List.foldl_cons, List.filter_cons]
    split
    · exact ih { d with intc := { d.intc with latch := sadd n d.intc.latch } }
    · exact ih d

section
variable {s : State} {who : Who} {w : Nat} {v : Word32} (hw : w < 32)
include hw

theorem pendSet_latches (hg : ctlGrant s.dev who (0x300000 + 4 * w) 4 true = true) :
    ∃ u, exec (.intcPendSet who w v) s = .next u ∧ IntcFrame s u ∧
      u.dev.intc.en = s.dev.intc.en ∧ u.dev.intc.active = s.dev.intc.active ∧
      ∀ n, n ∈ u.dev.intc.latch ↔ n ∈ s.dev.intc.latch ∨
        ((n / 32 = w ∧ v.getLsbD (n % 32) = true) ∧ intcValid n = true ∧ intcLost s.dev n = false) := by
  have hexec : exec (.intcPendSet who w v) s = .next (after s (pendSet s.dev w v.toNat)) := by
    change execIntcPendSet who w v s = _
    simp only [execIntcPendSet, hw, regDo, hg, if_true, done]
  refine ⟨_, hexec, ?_⟩
  rw [pendSet_eq]
  exact ⟨intcFrame_after rfl rfl, by simp, by simp, fun n => by simp [mem_bitsIn]⟩

theorem pendClr_unlatches (hg : ctlGrant s.dev who (0x300080 + 4 * w) 4 true = true) :
    ∃ u, exec (.intcPendClr who w v) s = .next u ∧ IntcFrame s u ∧
      u.dev.intc.en = s.dev.intc.en ∧ u.dev.intc.active = s.dev.intc.active ∧
      ∀ n, n ∈ u.dev.intc.latch ↔ n ∈ s.dev.intc.latch ∧ ¬ (n / 32 = w ∧ v.getLsbD (n % 32) = true) := by
  have hexec : exec (.intcPendClr who w v) s = .next (after s (pendClr s.dev w v.toNat)) := by
    change execIntcPendClr who w v s = _
    simp only [execIntcPendClr, hw, regDo, hg, if_true, done]
  exact ⟨_, hexec, intcFrame_after rfl rfl, by simp [pendClr], by simp [pendClr],
    fun n => by simp [pendClr, mem_bitsIn, -not_and, not_and_or]⟩

theorem enSet_enables (hg : ctlGrant s.dev who (0x300100 + 4 * w) 4 true = true) :
    ∃ u, exec (.intcEnSet who w v) s = .next u ∧ IntcFrame s u ∧
      u.dev.intc.latch = s.dev.intc.latch ∧ u.dev.intc.active = s.dev.intc.active ∧
      ∀ n, n ∈ u.dev.intc.en ↔ n ∈ s.dev.intc.en ∨ ((n / 32 = w ∧ v.getLsbD (n % 32) = true) ∧ intcValid n = true) := by
  have hexec : exec (.intcEnSet who w v) s = .next (after s (enSet s.dev w v.toNat)) := by
    change execIntcEnSet who w v s = _
    simp only [execIntcEnSet, hw, regDo, hg, if_true, done]
  exact ⟨_, hexec, intcFrame_after rfl rfl, by simp [enSet], by simp [enSet], fun n => by simp [enSet, mem_bitsIn]⟩

theorem enClr_disables (hg : ctlGrant s.dev who (0x300180 + 4 * w) 4 true = true) :
    ∃ u, exec (.intcEnClr who w v) s = .next u ∧ IntcFrame s u ∧
      u.dev.intc.latch = s.dev.intc.latch ∧ u.dev.intc.active = s.dev.intc.active ∧
      ∀ n, n ∈ u.dev.intc.en ↔ n ∈ s.dev.intc.en ∧ (n = 517 ∨ ¬ (n / 32 = w ∧ v.getLsbD (n % 32) = true)) := by
  have hexec : exec (.intcEnClr who w v) s = .next (after s (enClr s.dev w v.toNat)) := by
    change execIntcEnClr who w v s = _
    simp only [execIntcEnClr, hw, regDo, hg, if_true, done]
  exact ⟨_, hexec, intcFrame_after rfl rfl, by simp [enClr], by simp [enClr],
    fun n => by simp [enClr, mem_bitsIn, -not_and, not_and_or]⟩

end

theorem event_latches (s : State) (n : Nat) :
    ∃ u, exec (.intcEvent n) s = .next u ∧ IntcFrame s u ∧ u.dev.intc.en = s.dev.intc.en ∧
      u.dev.intc.active = s.dev.intc.active ∧
      ∀ m, m ∈ u.dev.intc.latch ↔
        m ∈ s.dev.intc.latch ∨ (m = n ∧ intcValid n = true ∧ intcLevel n = false ∧ intcLost s.dev n = false) := by
  refine ⟨after s (intcEvent s.dev n), rfl, ?_⟩
  unfold intcEvent
  split
  · next h =>
    obtain ⟨⟨hv, hl⟩, hlost⟩ : (intcValid n = true ∧ intcLevel n = false) ∧ intcLost s.dev n = false := by simpa using h
    exact ⟨intcFrame_after rfl rfl, by simp, by simp, fun m => by simp [hv, hl, hlost, or_comm]⟩
  · next h =>
    have hnot : ¬ (intcValid n = true ∧ intcLevel n = false ∧ intcLost s.dev n = false) := by simpa [and_assoc] using h
    exact ⟨intcFrame_after rfl rfl, by simp, by simp, fun m => by simp [hnot]⟩

/-- Settles O47: each register of the controller has the effect of R413, R415 and R417 to R419, which delivery then keeps. -/
theorem interruptController : Obligations.InterruptController := by
  unfold Obligations.InterruptController
  intro same
  refine ⟨fun s who r hr hg => ⟨claim_empty hr hg, fun n hn hc hbest => claim_best hr hg hn hc hbest⟩,
    fun s who r v hr hg => ⟨complete_claimed hr hg, complete_other hr hg⟩,
    fun s who w v hw => ⟨pendSet_latches hw, pendClr_unlatches hw, enSet_enables hw, enClr_disables hw⟩,
    event_latches⟩

end Sys2Proof.Machine
